-- ==== Sys2Proof/Word.lean ====
section
/-! DEFINITION. Word.lean: the word types of the NL9472 model. A bit vector stands for what the manual treats as bits (register words, data, Fehel slots); a count, an index or an address is a Nat. -/
namespace Sys2Proof

/-- One byte. -/
abbrev Byte := BitVec 8

/-- A register word or a TS64 time-stamp, 64 bits (R9, R11). -/
abbrev Word := BitVec 64

/-- A 128-bit Fehel slot (R176). -/
abbrev Slot := BitVec 128

/-- The data of a 64 B line (R5). -/
abbrev Line := BitVec 512

/-- The data of a 256 B riser (R5). -/
abbrev Riser := BitVec 2048

/-- The byte-enable mask of a line: bit k enables byte k. -/
abbrev Mask := BitVec 64

/-- A sparse table from a number to data: entries in strictly rising key order. -/
abbrev Tbl (α : Type) := List (Nat × α)

end Sys2Proof
end

