-- ==== Sys2Proof/Types.lean ====
section
/-! DEFINITION. Types.lean: the data that commands carry as operands, named as the spec names it. -/
namespace Sys2Proof

/-- The event that opened a consequential window (R401). -/
inductive WinEv where
  | galFence (n : Nat) | galReset (n : Nat) | ringFence (n : Nat) | headFence (n : Nat)
  | linkFence (k : Nat) | vchFence (c : Nat) | lunFence (l : Nat)
  deriving DecidableEq, Repr

/-- The modes of a hall (R92). -/
inductive HallMode where
  | unassigned | priv | shared
  deriving DecidableEq, Repr

/-- The numbered spaces (R187). -/
inductive Space where
  | mir | req | blk
  deriving DecidableEq, Repr

/-- TAG: the stream's origin link and the sequence number in it (R187). -/
structure Tag where
  orig : Nat
  seq : Nat
  deriving DecidableEq, Repr

/-- The content of HELLO (R183). -/
structure Hello where
  pairId : BitVec 32
  side : Nat
  pending : Bool
  fencedGals : BitVec 8
  saveSeq : Word
  halls : Nat
  dimmGib : Nat
  proposed : Nat
  saveTime : Word
  prefCrc : BitVec 32
  deriving DecidableEq, Repr

/-- One hall-map entry as the MAP stream and MAP_CHUNK carry it (R257). -/
structure MapEnt where
  mode : HallMode
  homeSide : Nat
  /-- COLD: directory-cold at the cut-off. -/
  cold : Bool
  sanitize : Bool
  gen : Nat
  sharers : Nat
  owner : Nat
  ownerSide : Nat
  deriving DecidableEq, Repr

/-- The snoop type of a read (R98, R180). -/
inductive Snp where
  | none | data | inv | cur
  deriving DecidableEq, Repr

/-- A riser as a save, a log slab or a base carries it: its number (HADDR / 256), data and line poison. -/
structure RiserCopy where
  riser : Nat
  data : Riser
  poison : BitVec 4
  deriving DecidableEq, Repr

/-- What the boot controller's checks of one slot find that rest on cryptography (R481): the key hash equals the hash of PUBKEY, SIGNATURE verifies, every section hash matches. -/
structure SlotVerdict where
  key : Bool
  sig : Bool
  hashes : Bool
  deriving DecidableEq, Repr

/-- What the training of one DRAM channel found (R132 to R136). Rates are 0 for 4800, 1 for 5600 and 2 for 6400 MT/s. -/
structure TrainProbe where
  detected : Bool
  spdOk : Bool
  cap : Nat
  ranks : Nat
  stack : Nat
  die : Nat
  serial : Nat
  /-- Highest rate, at or below the one tried, at which the channel passes; none when it fails at 4800 MT/s. -/
  pass : Option (Fin 3)
  failStep : Fin 8
  rdMargin : Byte
  wrMargin : Byte
  params : Word
  deriving DecidableEq, Repr

/-- What the mount finds on the media (R287, R288, R308, R315, R321). -/
structure MountProbe where
  uniform : Bool
  targets : Nat
  lunsPer : Nat
  planes : Nat
  blocksPer : Nat
  wordlines : Nat
  lunGb : Nat
  nPe : Nat
  /-- Maximum SLC-mode page program time in ns, and TLC wordline time in µs, of the parameter page. -/
  tSlcNs : Nat
  tTlcUs : Nat
  badLuns : List (Fin 512)
  /-- Trained rate of each channel in units of 100 MT/s; 0 when training fails at 800 MT/s. -/
  rates : List Nat
  /-- Blocks that carry a factory mark: LUN and block. -/
  factoryBad : List (Fin 512 × BitVec 16)
  foreign : Bool
  /-- Copies of the newest checkpoint that decode, and whether an older one does. -/
  ckptOk : Bool
  olderCkpt : Bool
  newId : Word
  /-- Save records whose copies are unreadable, by SAVE_SEQ. -/
  badRecords : List Nat
  /-- Blocks whose headers are not valid: LUN and block. -/
  badHeaders : List (Fin 512 × BitVec 16)
  deriving DecidableEq, Repr

/-- What a DRAM burst brings beside the line (R138): the devices of the sub-channel with symbols in error, each with their number less 1. -/
structure EccRes where
  errs : List (Fin 10 × Fin 8)
  deriving DecidableEq, Repr

/-- The end of the PMBus transactions of an alert (R369, R370). -/
inductive PmbRes where
  | ok | nack | pec
  deriving DecidableEq, Repr

/-- A burst without errors. -/
def EccRes.clean : EccRes := { errs := [] }

/-- The decode of a vault codeword (R298): at a hard decode after this many retry steps, by soft decode, or not at all. -/
inductive CwRes where
  | hard (steps : Nat)
  | soft
  | uncorrectable
  deriving DecidableEq, Repr

/-- The fields of INIT and INIT_ACK (R175). -/
structure InitFields where
  version : Byte
  fast : Bool
  tl : Byte
  pairId : BitVec 32
  side : Byte
  txLanes : BitVec 4
  rxLanes : BitVec 4
  nextExp : BitVec 16
  nextSend : BitVec 16
  credits : List (BitVec 16)
  epoch : BitVec 16
  fack : BitVec 12
  deriving DecidableEq, Repr

/-- What waits for its throttle delay: a write (R76), or the mirror acknowledgement of a link's stream (R78). -/
inductive Delayed where
  | request | mirrorAck
  deriving DecidableEq, Repr

/-- The two IDE streams of a head (R120). -/
inductive IdeStream where
  | cachemem | io
  deriving DecidableEq, Repr

/-- An IDE stream of the device. -/
structure HeadStream where
  head : Fin 16
  stream : IdeStream
  deriving DecidableEq, Repr

/-- What an IDE_KM exchange does with a stream's keys (R120): programs a set, takes the programmed set into use, or fails. -/
inductive IdeKm where
  | program | go | failed
  deriving DecidableEq, Repr

/-- Codeword lock on a twin link: the physical lane of each logical one, and the physical lanes without lock (R171, R202). -/
structure LaneLock where
  laneMap : BitVec 16
  lost : BitVec 4
  deriving DecidableEq, Repr

/-- A twin link and the FACK that a CTRL flit brings on it (R179). -/
structure LinkFack where
  tl : Fin 4
  fack : BitVec 12
  deriving DecidableEq, Repr

/-- The five event logs of an LD (R122). -/
inductive EvLog where
  | info | warning | failure | fatal | dcd
  deriving DecidableEq, Repr

end Sys2Proof
end

