-- ==== Sys2Proof/Syntax.lean ====
section
/-! DEFINITION. Syntax.lean: the commands of the block, one constructor per row of the opcode table, with the operands their rules name. -/
namespace Sys2Proof

/-- A command (spec/opcode_table.json). `ini` is the initiator ID of R8, `h` a head, `ld` an LD of it, `g` a gallery, `tl` a twin link. -/
inductive Instr where
  /-- BACKUP_DOMAIN_POWER_ON_RESET (R439). The backup domain loses both VBAT and the always-on supply; on return every backup-domain register takes its reset value. -/
  | backupDomainPowerOnReset
  /-- VBAT_SWITCHOVER (R439). The backup domain switches between the always-on supply and VBAT without losing an oscillator cycle. -/
  | vbatSwitchover (toVbat : Bool)
  /-- ALWAYS_ON_POWER_ON_RESET (R32). The always-on power-on reset releases and the device goes from OFF to STANDBY (code 0x01); Alcove recovery runs first. -/
  | alwaysOnPowerOnReset (senseGood : Bool) (pfN : Bool) (ref100 : Bool) (ref156 : Bool)
  /-- ALWAYS_ON_SUPPLY_LOSS (R32). The always-on supply is lost and the device goes to OFF (code 0x02); uncommitted gathered Alcove writes and the warm token are lost. -/
  | alwaysOnSupplyLoss (cut : Option (Fin 7)) (tornRing : Bool)
  /-- RESET_N_ASSERT (R494). RESET_N held low for at least 1 µs drops every enable, stops any save and has the Alcove commit its buffer, keeping FATAL and the state. -/
  | resetNAssert
  /-- RESET_N_RELEASE (R494). On release of RESET_N the device starts as after an always-on power-on reset and records code 0x05. -/
  | resetNRelease (senseGood : Bool) (pfN : Bool)
  /-- INPUT_GOOD_TIMER_EXPIRY (R33). The input bus has been good for 100 ms, one of the conditions of an ON request. -/
  | inputGoodTimerExpiry
  /-- MIN_OFF_TIME_EXPIRY (R33). The minimum off time after DOWN has passed, allowing an ON request. -/
  | minOffTimeExpiry
  /-- ON_REQUEST (R361). An ON request is accepted in STANDBY, starting stage 0 of the boot, or is withdrawn when no power section or SEQ record is valid. -/
  | onRequest (sfdpOk : Bool) (a : SlotVerdict) (b : SlotVerdict)
  /-- BOOT_STAGE_1 (R484). After UP the Steward boot code sets the wait states, hashes every section, falls back if needed and loads and starts the firmware. -/
  | bootStage1 (vaonMv : Nat) (hashA : Bool) (hashB : Bool) (fcuOk : Bool)
  /-- BOOT_STAGE_2 (R266). The Steward firmware runs the start from DRAM training through mount, index read, pairing and flight replay toward SERVICE. -/
  | bootStage2 (badGals : List (Bool × Fin 8)) (badMap : Bool) (badFlight : Option Nat)
  /-- DCH_TRAINING_DONE (R135). Training of a DRAM channel ends with its RESULT, retraining all channels at a lower rate or fencing the gallery when needed. -/
  | dchTrainingDone (ch : Fin 32) (p : TrainProbe)
  /-- VAULT_MOUNT (R320). The vault is mounted: LUNs reset and identified, channels trained, intent batch repeated, checkpoint read, record area and open blocks scanned. -/
  | vaultMount (p : MountProbe)
  /-- PAIR_WAIT_EXPIRY (R220). No partner answered HELLO within PAIR_WAIT, so the device enters SERVICE.SOLO, seeding its bitmap from the unsettled list if double save was pending. -/
  | pairWaitExpiry
  /-- START_COMPLETE (R32). Start and pairing are complete, the boot lock is set and the device enters SERVICE.PAIRED or SERVICE.SOLO with Memory_Active 1. -/
  | startComplete
  /-- START_FAIL (R487). A start fails with a cause, sets LAST_FAILED and proceeds by warm reset to VAULT.START or to VAULT.VESTIBULE at the boot limit. -/
  | startFail (cause : Byte)
  /-- START_MAX_EXPIRY (R487). START_MAX elapses since entry to VAULT.START and the start fails with cause 0x40. -/
  | startMaxExpiry
  /-- STEWARD_WATCHDOG_EXPIRY (R487). The Steward firmware watchdog expires and the start fails with cause 0x41. -/
  | stewardWatchdogExpiry
  /-- BOOT_STABLE_TIME_EXPIRY (R35). The device has stayed in SERVICE for BOOT_STABLE_TIME and the boot counter clears. -/
  | bootStableTimeExpiry
  /-- WARM_RESET (R363). A warm reset keeps the rails, runs UP with WARM set and enters VAULT.START, checking the warm token gallery by gallery. -/
  | warmReset (sfdpOk : Bool) (a : SlotVerdict) (b : SlotVerdict) (badGals : List (Fin 8))
  /-- DOZE_IDLE_EXPIRY (R28). A gallery idle for DOZE_IDLE enters DOZE: its scheduler, directory and Corridor port are gated and DRAM enters self-refresh. -/
  | dozeIdleExpiry (g : Fin 8)
  /-- DOZE_WAKE (R29). An access or transfer for a dozing gallery wakes it within 5 µs, restarting its frame at slot 0. -/
  | dozeWake (g : Fin 8)
  /-- MEM_RD (R42). A CXL.mem read is decoded and checked and served from DRAM, the mirror or by proxy path, waiting for restore or undurable writes as needed. -/
  | memRd (h : Fin 16) (ld : Fin 4) (ctag : BitVec 16) (dpa : BitVec 52) (snp : Snp) (ecc : EccRes)
  /-- MEM_SPEC_RD (R83). MemSpecRd is treated as a hint and dropped when no H-class slot is free. -/
  | memSpecRd (h : Fin 16) (ld : Fin 4) (ctag : BitVec 16) (dpa : BitVec 52) (freeSlot : Bool)
  /-- MEM_WR (R45). A full-line CXL.mem write is placed in the coalescing buffer, marked dirty, mirrored or proxied, and completed under R45. -/
  | memWr (h : Fin 16) (ld : Fin 4) (ctag : BitVec 16) (dpa : BitVec 52) (data : Line) (poison : Bool)
  /-- MEM_WR_PTL (R83). A partial write writes only its enabled bytes, merged at the home before mirroring. -/
  | memWrPtl (h : Fin 16) (ld : Fin 4) (ctag : BitVec 16) (dpa : BitVec 52) (mask : Mask) (data : Line) (poison : Bool)
  /-- MEM_CLN_EVCT (R98). MemClnEvct removes the sender from a shared line's holders, or has no effect for a private hall. -/
  | memClnEvct (h : Fin 16) (ld : Fin 4) (ctag : BitVec 16) (dpa : BitVec 52)
  /-- WRITE_THROTTLE_EXPIRY (R76). The throttle delay added to a write that dirtied a clean riser ends and its completion may leave. -/
  | writeThrottleExpiry (w : Delayed) (link : Fin 4) (id : Nat)
  /-- BI_RSP_FROM_HOST (R100). A host answers a back-invalidate snoop, possibly with dirty data, and the waiting request proceeds once all answers are in. -/
  | biRspFromHost (h : Fin 16) (ld : Fin 4) (haddr : BitVec 46) (resp : Fin 3) (data : Option Line) (poison : Bool)
  /-- BI_CONFLICT (R100). A BIConflict from a host is resolved per CXL 3.1 with the entry held BUSY. -/
  | biConflict (h : Fin 16) (ld : Fin 4) (haddr : BitVec 46)
  /-- BI_TIMEOUT_EXPIRY (R104). A holder fails to answer within BI_TIMEOUT_US, is treated as invalidated and its LD is fenced. -/
  | biTimeoutExpiry (here : Bool) (dld : Fin 64) (haddr : BitVec 46)
  /-- COLD_SWEEP_SNOOP (R107). The background sweep sends BISnpInvBlk for the next unwarmed block of the gallery's current cold hall, clearing the mark when the hall is warm. -/
  | coldSweepSnoop (g : Fin 8)
  /-- GPF_PHASE2 (R113). A GPF phase 2 request on a head is answered once every earlier write on that head is acknowledged. -/
  | gpfPhase2 (h : Fin 16)
  /-- HEAD_LINK_DOWN (R130). A head's link goes down, removing its LDs from directories, handling requests in progress and stopping its rings. -/
  | headLinkDown (h : Fin 16)
  /-- PERST_N_ASSERT (R130). PERST_N resets the head's link and its LDs' CXL.io state. -/
  | perstNAssert (h : Fin 16)
  /-- PERST_N_RELEASE (R130). On release of PERST_N the head retrains and reports Memory_Active 1 only in SERVICE. -/
  | perstNRelease (h : Fin 16)
  /-- HOT_RESET (R130). A hot reset resets the head's link and CXL.io state like PERST_N. -/
  | hotReset (h : Fin 16)
  /-- CXL_RESET (R130). A CXL Reset addressed to one LD resets that LD alone. -/
  | cxlReset (h : Fin 16) (ld : Fin 4)
  /-- IDE_INTEGRITY_FAILURE (R121). An IDE integrity check fails; the head discards the stream's flits, marks IDE failed and raises IDE_INTEGRITY. -/
  | ideIntegrityFailure (w : HeadStream)
  /-- DECODER_COMMIT (R91). An HDM decoder commit with other than 1-way interleave fails with Error Not Committed. -/
  | decoderCommit (h : Fin 16) (ld : Fin 4) (dec : Fin 2) (ways : Nat) (base : Nat) (size : Nat)
  /-- INJECT_POISON (R115). Inject Poison marks the addressed line poisoned, durable under R45. -/
  | injectPoison (h : Fin 16) (ld : Fin 4) (dpa : BitVec 52)
  /-- CLEAR_POISON (R115). Clear Poison writes the supplied data without poison. -/
  | clearPoison (h : Fin 16) (ld : Fin 4) (dpa : BitVec 52) (data : Line)
  /-- GET_POISON_LIST (R117). Returns the poisoned lines and missing treads in the LD's halls as ranges, with overflow. -/
  | getPoisonList (h : Fin 16) (ld : Fin 4) (dpa : BitVec 52) (len : BitVec 52)
  /-- GET_TIMESTAMP (R124). Returns the RTC time in nanoseconds since 1970. -/
  | getTimestamp (h : Fin 16) (ld : Fin 4)
  /-- SET_TIMESTAMP (R125). From a management LD sets the RTC by halt, write and resume; otherwise Unsupported, or Invalid Input for unrepresentable values. -/
  | setTimestamp (h : Fin 16) (ld : Fin 4) (ns : Word)
  /-- SET_SHUTDOWN_STATE (R126). Records the shutdown state per LD without affecting the Dirty Shutdown Count. -/
  | setShutdownState (h : Fin 16) (ld : Fin 4) (v : Byte)
  /-- GET_HEALTH_INFO (R534). Returns health information including the hottest junction temperature. -/
  | getHealthInfo (h : Fin 16) (ld : Fin 4) (tempC : Int)
  /-- SET_LSA (R88). Writes the Label Storage Area and completes when the data is durable. -/
  | setLsa (h : Fin 16) (ld : Fin 4) (off : Nat) (bytes : List Byte)
  /-- GET_MEASUREMENTS (R491). SPDM GET_MEASUREMENTS returns the image header hash, VERSION, page 0 hash and BOOT_STATUS. -/
  | getMeasurements (h : Fin 16) (index : Byte) (header : BitVec 384) (page0 : BitVec 384)
  /-- GET_NOVLEN_INFO (R127). Returns GLB_STATE, hall counts, LD number and rights. -/
  | getNovlenInfo (ini : Byte)
  /-- GET_HALL_INFO (R127). Returns mode, flags, sharers, owner and generation for a range of halls. -/
  | getHallInfo (ini : Byte) (first : BitVec 32) (count : BitVec 16)
  /-- GET_BUDGET (R127). Returns GLB_BUDGET and GLB_BUDGET_PARAM. -/
  | getBudget (ini : Byte)
  /-- HALL_SANITIZE (R127). Marks an unassigned hall under sanitize, sends the mark to the partner and starts a background fill with the pattern. -/
  | hallSanitize (ini : Byte) (hall : BitVec 32) (pattern : Word)
  /-- SANITIZE_FILL_DONE (R127). Every line of the sanitize fill is durable, the mark clears on both devices and completion is reported on vector 0. -/
  | sanitizeFillDone (hall : BitVec 16)
  /-- GET_VIOLATION_LOG (R127). Returns a head's, or the management, violation count and log. -/
  | getViolationLog (ini : Byte) (head : Byte)
  /-- GET_TIME_TS64 (R127). Returns the current TS64 time-stamp including UNTRUSTED. -/
  | getTimeTs64 (ini : Byte)
  /-- QUIESCE_PLANNED (R282). QUIESCE ACTION 0 returns Success and leaves SERVICE within 1 ms for a planned-quiesce save to VAULT.HOLD. -/
  | quiescePlanned (ini : Byte)
  /-- QUIESCE_WARM_RESET (R495). QUIESCE ACTION 1 requests a warm reset: a save of cause 0x21 in SERVICE, or a warm reset in VAULT.HOLD. -/
  | quiesceWarmReset (ini : Byte)
  /-- FREEZE_LOGS (R519). Freezes the fault log, Alcove fault ring and violation logs and records the freeze time. -/
  | freezeLogs (ini : Byte)
  /-- THAW_LOGS (R520). Ends a log freeze. -/
  | thawLogs (ini : Byte)
  /-- HOLDUP_MEASURE (R518). Starts or defers a hold-up measurement, or returns Busy while one runs. -/
  | holdupMeasure (ini : Byte)
  /-- RETRY_START (R32). Leaves VAULT.HOLD (code 0x40) or VAULT.VESTIBULE (code 0x48, counter cleared) for VAULT.START. -/
  | retryStart (ini : Byte)
  /-- SET_TIME (R517). Sets the RTC through halt, write and resume, or returns Busy or Invalid Input. -/
  | setTime (ini : Byte) (ts : Word)
  /-- INITIATE_DYNAMIC_CAPACITY_ADD (R92). Adds a hall to an LD, setting mode and sharer slot and sending HALL_ADD to the partner when paired. -/
  | initiateDynamicCapacityAdd (ini : Byte) (here : Bool) (dld : Fin 64) (hall : BitVec 16) (shared : Bool) (etag : BitVec 128)
  /-- INITIATE_DYNAMIC_CAPACITY_RELEASE (R96). Releases a hall from an LD after accepted requests complete and holdings are invalidated, then clears the bitmap bit. -/
  | initiateDynamicCapacityRelease (ini : Byte) (here : Bool) (dld : Fin 64) (hall : BitVec 16)
  /-- IDENTIFY (R521). FM API Identify returns the device identity. -/
  | identify
  /-- BACKGROUND_OPERATION_STATUS (R521). Returns the status of the background operation. -/
  | backgroundOperationStatus
  /-- GET_RESPONSE_MESSAGE_LIMIT (R521). Returns the FM API response message limit. -/
  | getResponseMessageLimit
  /-- SET_RESPONSE_MESSAGE_LIMIT (R521). Sets the FM API response message limit. -/
  | setResponseMessageLimit (limit : Byte)
  /-- TUNNEL_MANAGEMENT_COMMAND (R521). Carries a command to the FM-owned LD of the named head. -/
  | tunnelManagementCommand (port : Byte) (opcode : BitVec 16)
  /-- GET_LD_INFO (R521). Returns LD information of the head. -/
  | getLdInfo (h : Fin 16)
  /-- GET_LD_ALLOCATIONS (R521). Returns LD allocations. -/
  | getLdAllocations (h : Fin 16)
  /-- SET_LD_ALLOCATIONS (R521). Sets LD allocations, accepting only zero static capacity. -/
  | setLdAllocations (h : Fin 16) (allocs : List (BitVec 64))
  /-- GET_QOS_CONTROL (R521). Returns MLD QoS control settings. -/
  | getQosControl (h : Fin 16)
  /-- SET_QOS_CONTROL (R521). Sets MLD QoS control. -/
  | setQosControl (h : Fin 16) (v : Word)
  /-- GET_QOS_STATUS (R521). Returns MLD QoS status. -/
  | getQosStatus (h : Fin 16)
  /-- GET_QOS_ALLOCATED_BW (R521). Returns QoS allocated bandwidth. -/
  | getQosAllocatedBw (h : Fin 16)
  /-- SET_QOS_ALLOCATED_BW (R521). Sets QoS allocated bandwidth. -/
  | setQosAllocatedBw (h : Fin 16) (first : Fin 4) (vals : List Byte)
  /-- GET_QOS_BW_LIMIT (R521). Returns QoS bandwidth limits. -/
  | getQosBwLimit (h : Fin 16)
  /-- SET_QOS_BW_LIMIT (R521). Sets QoS bandwidth limits. -/
  | setQosBwLimit (h : Fin 16) (first : Fin 4) (vals : List Byte)
  /-- GET_MULTI_HEADED_INFO (R521). Returns multi-headed device information. -/
  | getMultiHeadedInfo
  /-- GET_HEAD_INFO (R521). Returns head information. -/
  | getHeadInfo (h : Fin 16)
  /-- GET_DCD_INFO (R521). Returns dynamic-capacity device information. -/
  | getDcdInfo
  /-- GET_HOST_DC_REGION_CONFIGURATION (R521). Returns the DC region configuration of a host. -/
  | getHostDcRegionConfiguration (h : Fin 16) (ld : Fin 4)
  /-- SET_DC_REGION_CONFIGURATION (R521). Accepts only 1 GiB blocks and the regions of R89, else Invalid Input. -/
  | setDcRegionConfiguration (h : Fin 16) (ld : Fin 4) (region : Byte) (block : Word) (base : Word) (len : Word)
  /-- GET_DC_REGION_EXTENT_LISTS (R521). Returns the extent lists of the DC regions. -/
  | getDcRegionExtentLists (h : Fin 16) (ld : Fin 4) (first : BitVec 32) (count : BitVec 32)
  /-- SET_ENDPOINT_ID (R506). MCTP control message that assigns the endpoint ID. -/
  | setEndpointId (eid : Byte)
  /-- GET_ENDPOINT_ID (R506). MCTP control message that returns the endpoint ID. -/
  | getEndpointId
  /-- GET_MCTP_VERSION_SUPPORT (R506). Returns the supported MCTP versions. -/
  | getMctpVersionSupport
  /-- GET_MESSAGE_TYPE_SUPPORT (R506). Returns the supported MCTP message types. -/
  | getMessageTypeSupport
  /-- GET_VENDOR_DEFINED_MESSAGE_SUPPORT (R508). Returns vendor support, including Vendor ID 0x1F3A. -/
  | getVendorDefinedMessageSupport
  /-- ENTDAA (R505). The I3C endpoint accepts a dynamic address through ENTDAA. -/
  | entdaa (addr : BitVec 7)
  /-- SETDASA (R505). The I3C endpoint accepts a dynamic address through SETDASA. -/
  | setdasa (addr : BitVec 7)
  /-- I3C_TARGET_RESET (R507). An I3C target reset discards held requests and partial messages, keeping address and ID. -/
  | i3cTargetReset
  /-- MCTP_REGISTER_READ (R508). A vendor register-access message reads COUNT registers of BAR2 and returns data with STATUS. -/
  | mctpRegisterRead (vendor : BitVec 16) (mtag : Byte) (size : Byte) (count : Byte) (b7 : Byte) (off : BitVec 32)
  /-- MCTP_REGISTER_WRITE (R508). A vendor register-access message writes COUNT registers of BAR2 in order and returns STATUS. -/
  | mctpRegisterWrite (vendor : BitVec 16) (mtag : Byte) (size : Byte) (count : Byte) (b7 : Byte) (off : BitVec 32) (vals : List Word)
  /-- REGISTER_WRITE (R12). A write to a register field with no row of its own acts under the field's type, RWL writes after the boot lock counting as illegal sequences. -/
  | registerWrite (ini : Byte) (off : BitVec 32) (size : Nat) (val : Word)
  /-- PEAK_CLR (R109). Writing HST_TRACKER.PEAK_CLR sets PEAK to CURRENT. -/
  | peakClr (ini : Byte) (h : Fin 16)
  /-- GAL_RESET (R164). Writing GAL_CTRL.GAL_RESET on a fenced gallery starts a gallery reset with full training, resetting its heads. -/
  | galReset (ini : Byte) (g : Fin 8)
  /-- GALLERY_RESET_DONE (R164). The gallery reset ends; if all channels pass the fence clears and the halls are restored and resynced, else it stays fenced. -/
  | galleryResetDone (g : Fin 8) (p0 : TrainProbe) (p1 : TrainProbe) (p2 : TrainProbe) (p3 : TrainProbe)
  /-- FRAME_SWITCH (R150). After the coalescing buffers drain, the slot frame switches on all sub-channels at a frame boundary. -/
  | frameSwitch
  /-- SCRUB_READ (R142). Patrol scrub reads a line, rewriting it corrected or handling it under R116. -/
  | scrubRead (g : Fin 8) (ecc : EccRes)
  /-- CLEANER_COPY (R157). The cleaner lane copies a dirty riser into its in-flight tracker and appends it to a slab. -/
  | cleanerCopy (g : Fin 8) (riser : BitVec 38)
  /-- SLAB_CLOSE_TIMEOUT (R304). A slab open 100 µs since its first riser is closed. -/
  | slabCloseTimeout (g : Fin 8)
  /-- WORDLINE_FILL_TIMEOUT (R304). With fewer than three slabs waiting after 100 µs the wordline is completed with empty slabs. -/
  | wordlineFillTimeout
  /-- VAULT_PROGRAM_DONE (R157). A vault program completes; for a log wordline the cleaner clears dirty bits of risers not re-dirtied, a failure leaving them set. -/
  | vaultProgramDone (lun : Fin 512) (pass : Bool)
  /-- VAULT_ERASE_DONE (R317). A block erase completes and its header is programmed on wordline 0. -/
  | vaultEraseDone (lun : Fin 512) (pass : Bool)
  /-- ERASE_BATCH_ISSUE (R318). The device commits ERASE_INTENT and issues a batch of up to 255 erases. -/
  | eraseBatchIssue
  /-- VAULT_CODEWORD_READ_DONE (R298). A vault codeword read completes decoding, retrying, soft-decoding or reporting it uncorrectable. -/
  | vaultCodewordReadDone (lun : Fin 512) (block : BitVec 16) (res : CwRes) (riser : BitVec 38)
  /-- LUN_READY_TIMEOUT (R311). A LUN not ready within three times its rated operation time is fenced. -/
  | lunReadyTimeout (lun : Fin 512)
  /-- BUSY_STALL_TIMEOUT (R310). A read waiting over 1 ms on a busy LUN raises BUSY_STALL. -/
  | busyStallTimeout (lun : Fin 512)
  /-- VAULT_PATROL_READ (R300). Patrol reads one codeword of a wordline of a block with valid content. -/
  | vaultPatrolRead (lun : Fin 512) (block : BitVec 16) (res : CwRes)
  /-- COMPACTION_TREAD (R306). Compaction rewrites a tread of the victim block as a new base and updates the tread map. -/
  | compactionTread (tread : BitVec 34) (bad : List (Fin 16))
  /-- CHECKPOINT_TIMER (R307). After 60 s or 4 GiB of appends an archive checkpoint is written in two copies. -/
  | checkpointTimer
  /-- ALLOWANCE_BUCKET_TIMER (R313). A 15-minute allowance bucket ends and the rolling window advances. -/
  | allowanceBucketTimer
  /-- DEMAND_FETCH_DONE (R272). A demand fetch writes its tread to DRAM and releases the waiting accesses. -/
  | demandFetchDone (tread : BitVec 34) (us : Nat) (bad : List (Fin 16))
  /-- RESTORE_TREAD_DONE (R273). The restore engine fills a tread in DRAM; when none remains unrestored or stale, RESTORING clears (code 0x22). -/
  | restoreTreadDone (tread : BitVec 34) (bad : List (Fin 16))
  /-- PF_SENSE_LOW (R241). PF_SENSE falls below PF_TRIP_MV and the filter starts. -/
  | pfSenseLow
  /-- PF_SENSE_RECOVER (R243). PF_SENSE rises back before the filter ends, counting a glitch and restarting the filter. -/
  | pfSenseRecover
  /-- PF_FILTER_EXPIRY (R241). PF_SENSE stayed low for PF_FILTER, giving a power-fail trigger acted on per state. -/
  | pfFilterExpiry
  /-- PF_N_FALL (R241). A deglitched falling edge of PF_N with PF_N_EN 1 is a power-fail trigger. -/
  | pfNFall
  /-- CUT_OFF (R49). The save engine sets the cut-off latch in every head and Fehel engine, sends DEPART or PFAULT, freezes the dirty table and commits SAVE_ATTEMPT. -/
  | cutOff (ns : Nat)
  /-- LANDING_UNIT_PROGRAMMED (R248). A landing unit of a save stream is programmed, or rewritten under a new unit number after a failure. -/
  | landingUnitProgrammed (pass : Bool) (badLines : List (BitVec 40))
  /-- SAVE_RECORD_PROGRAMMED (R248). The save record is written, LANDING is updated, the warm token issued if due, and DOWN, VAULT.HOLD or the warm reset follows. -/
  | saveRecordProgrammed (ms : Nat)
  /-- PMD_TRAIN_DONE (R174). PMD training of a twin link ends and the link enters ALIGN. -/
  | pmdTrainDone (tl : Fin 4) (good : BitVec 4)
  /-- PMD_TRAIN_TIMEOUT (R174). PMD training not finished within 1 s sends the link to LOST. -/
  | pmdTrainTimeout (tl : Fin 4)
  /-- CODEWORD_LOCK (R171). Three consecutive valid marker codewords give lock and the link enters INIT; `lost` names the lanes that have none in a fast retrain (R202). -/
  | codewordLock (tl : Fin 4) (lock : LaneLock)
  /-- ALIGN_TIMEOUT (R174). No lock within 1 ms of ALIGN sends the link to LOST. -/
  | alignTimeout (tl : Fin 4)
  /-- CODEWORD_LOCK_LOSS (R171). Three missed marker positions lose lock, entering fast retrain or LOST during INIT. -/
  | codewordLockLoss (tl : Fin 4)
  /-- INIT_TIMEOUT (R174). INIT not successful within 1 ms sends the link to LOST. -/
  | initTimeout (tl : Fin 4)
  /-- LOST_IDLE_EXPIRY (R174). After 250 µs at electrical idle a lost link enters PMD_TRAIN, or retries every 1 s. -/
  | lostIdleExpiry (tl : Fin 4)
  /-- DATA_FLIT (R197). A DATA flit is accepted if CRC, codewords and FSEQ are good and its messages walked, else discarded with RETRY_REQ. -/
  | dataFlit (tl : Fin 4) (hdr : Word) (slots : List Slot) (crc : Word) (corrected : Nat) (uncorr : Nat)
  /-- IDLE (R179). A CTRL IDLE flit carries FACK only. -/
  | ctrlIdle (tl : Fin 4) (fack : BitVec 12)
  /-- RETRY_REQ (R197). The transmitter replays every buffered flit from the requested FSEQ. -/
  | retryReq (tl : Fin 4) (fack : BitVec 12) (expected : BitVec 12)
  /-- RETRY_REQ_REPEAT (R197). RETRY_REQ is repeated every 2 µs until the replayed flit arrives. -/
  | retryReqRepeat (tl : Fin 4)
  /-- INIT (R175). An INIT control flit is checked for version, pair ID, side and link, fencing the link with MISWIRED on failure. -/
  | ctrlInit (tl : Fin 4) (f : InitFields)
  /-- INIT_ACK (R174). INIT_ACK completes INIT and the link enters ACTIVE. -/
  | initAck (tl : Fin 4) (f : InitFields)
  /-- RETRAIN_REQ (R174). A received RETRAIN_REQ sends the link into fast retrain. -/
  | retrainReq (f : LinkFack)
  /-- HEARTBEAT_SEND (R199). Every 10 µs an ACTIVE link sends a HEARTBEAT. -/
  | heartbeatSend (tl : Fin 4)
  /-- LINK_LOST_TIMEOUT (R193). No heartbeat for 200 µs declares a link lost, removing it from steering. -/
  | linkLostTimeout (tl : Fin 4)
  /-- LANE_SER_WINDOW (R202). A 10 ms symbol-error window ends; a lane over LANE_SER_LIMIT in three windows fails and starts a fast retrain. -/
  | laneSerWindow (tl : Fin 4) (lane : Fin 4) (errs : Nat) (ppm : Nat)
  /-- PARTNER_LOSS_TIMEOUT (R200). No heartbeat on any link for 1 ms declares the partner lost and the device promotes itself. -/
  | partnerLossTimeout
  /-- DEPART_WAIT_EXPIRY (R200). 10 µs after the first DEPART or PFAULT the partner loss is declared. -/
  | departWaitExpiry
  /-- DEPART_HOLD_EXPIRY (R201). 20 to 25 µs after sending DEPART or PFAULT the twin SerDes are powered down. -/
  | departHoldExpiry
  /-- NOP (R180). A NOP slot is ignored. -/
  | fehelNop (tl : Fin 4)
  /-- HEARTBEAT (R199). A received HEARTBEAT keeps the link and partner alive and reports the partner's state and budget. -/
  | heartbeat (tl : Fin 4) (st : BitVec 4) (rxUp : BitVec 4) (epoch : BitVec 16) (count : BitVec 16) (dbEff : Byte) (restoring : Bool)
  /-- ACK (R189). A cumulative ACK covers MIR or BLK messages, releasing waiting completions, flight commits and resync bits. -/
  | ack (tl : Fin 4) (space : Space) (tag : Tag) (delayNs : BitVec 32) (stall : Bool)
  /-- STALE (R211). A refused message is re-resolved and resent to the new home in order, or carried out locally. -/
  | stale (tl : Fin 4) (space : Space) (homeHere : Bool) (hgen : BitVec 16) (tag : Tag) (haddr : BitVec 46) (init : Byte)
  /-- DEPART (R200). A DEPART with the current epoch starts the wait before the partner is declared lost. -/
  | depart (tl : Fin 4) (cause : Byte) (epoch : BitVec 16)
  /-- PFAULT (R200). A PFAULT with the current epoch starts the wait before the partner is declared lost. -/
  | pfault (tl : Fin 4) (epoch : BitVec 16) (source : BitVec 10) (kind : BitVec 6)
  /-- MIR_WR64 (R188). A 64 B mirror write is compared by HGEN and placed in the coalescing buffer with its riser marked dirty, or refused STALE. -/
  | mirWr64 (tl : Fin 4) (poison : Bool) (hgen : BitVec 16) (tag : Tag) (haddr : BitVec 46) (init : Byte) (data : Line)
  /-- MIR_WR256 (R188). A 256 B mirror write is processed like MIR_WR64 for a whole riser. -/
  | mirWr256 (tl : Fin 4) (poison : BitVec 4) (hgen : BitVec 16) (tag : Tag) (haddr : BitVec 46) (init : Byte) (data : Riser)
  /-- JRN_WR (R346). The partner stores a journal chunk of a flight. -/
  | jrnWr (tl : Fin 4) (fgen : BitVec 16) (tag : Tag) (joff : BitVec 24) (slot : Byte) (init : Byte) (bytes : List Byte)
  /-- JRN_END (R346). The partner holds the flight committed with its own COMMIT_SEQ and acknowledges it, waiting on overlapping flights. -/
  | jrnEnd (tl : Fin 4) (fgen : BitVec 16) (tag : Tag) (jlen : BitVec 24) (slot : Byte) (segs : BitVec 10)
  /-- JRN_DONE (R346). The partner frees the flight's journal, or discards a partial one. -/
  | jrnDone (tl : Fin 4) (fgen : BitVec 16) (tag : Tag) (slot : Byte)
  /-- BARRIER_MIR (R194). A MIR barrier releases held MIR messages once barriers of the epoch arrived from every link in MASK. -/
  | barrierMir (tl : Fin 4) (mask : BitVec 4) (epoch : Byte)
  /-- BARRIER_REQ (R194). A REQ barrier releases held REQ messages once complete. -/
  | barrierReq (tl : Fin 4) (mask : BitVec 4) (epoch : Byte)
  /-- BARRIER_BLK (R194). A BLK barrier releases held BLK messages once complete. -/
  | barrierBlk (tl : Fin 4) (mask : BitVec 4) (epoch : Byte)
  /-- PRX_RD (R212). The home serves a proxied read with data and grant, or a MIRROR read from its own copy. -/
  | prxRd (tl : Fin 4) (snp : Snp) (mirror : Bool) (hgen : BitVec 16) (tag : Tag) (haddr : BitVec 46) (init : Byte) (ecc : EccRes)
  /-- PRX_WR64 (R213). The home applies a proxied full-line write, mirrors it back and sends PRX_CMP after the ACK. -/
  | prxWr64 (tl : Fin 4) (poison : Bool) (hgen : BitVec 16) (tag : Tag) (haddr : BitVec 46) (init : Byte) (data : Line)
  /-- PRX_WRPTL (R212). The home merges a proxied partial write, mirrors the line and sends PRX_CMP. -/
  | prxWrptl (tl : Fin 4) (poison : Bool) (hgen : BitVec 16) (tag : Tag) (haddr : BitVec 46) (init : Byte) (mask : Mask) (data : Line)
  /-- PRX_CLN (R212). The home removes the requester from the line's holders and answers PRX_CMP. -/
  | prxCln (tl : Fin 4) (hgen : BitVec 16) (tag : Tag) (haddr : BitVec 46) (init : Byte)
  /-- BI_FWD (R214). The partner issues the snoop on the named LD's head and returns BI_RSP. -/
  | biFwd (tl : Fin 4) (snp : Fin 4) (hgen : BitVec 16) (tag : Tag) (haddr : BitVec 46) (init : Byte)
  /-- PRX_RD_DATA (R212). Proxied read data arrives and completes the waiting read, or corrects a line at the home. -/
  | prxRdData (tl : Fin 4) (status : BitVec 2) (grant : BitVec 2) (tag : Tag) (data : Line)
  /-- PRX_CMP (R213). Arrival of PRX_CMP returns the CXL completion of a proxied write. -/
  | prxCmp (tl : Fin 4) (status : BitVec 2) (tag : Tag)
  /-- BI_RSP (R214). A snoop answer from a partner-side holder arrives at the home with any dirty data. -/
  | biRsp (tl : Fin 4) (resp : Fin 3) (tag : Tag) (haddr : BitVec 46) (data : Option Line) (poison : Bool)
  /-- HELLO (R218). Exchange of HELLO decides the pairing outcome, new epoch, reconciliation, resync or refusal. -/
  | hello (tl : Fin 4) (tag : Tag) (hello : Hello)
  /-- HALL_ADD (R94). The partner applies an add with the given sharer slot and answers ROLE_RSP. -/
  | hallAdd (tl : Fin 4) (tag : Tag) (hall : BitVec 16) (shared : Bool) (dld : Fin 64) (side : Fin 2) (slot : Fin 64) (etag : BitVec 128)
  /-- HALL_RELEASE (R96). The home removes the LD's holdings in the hall and answers after every snoop answer. -/
  | hallRelease (tl : Fin 4) (tag : Tag) (hall : BitVec 16) (dld : Fin 64) (side : Fin 2)
  /-- HOME_XFER (R235). The new home applies the generation and home, marks a shared hall cold and answers. -/
  | homeXfer (tl : Fin 4) (tag : Tag) (hall : BitVec 16) (hgen : BitVec 16) (side : Fin 2)
  /-- PROMOTED (R200). The receiver declares the partner lost at once and promotes, sending no answer. -/
  | promoted (tl : Fin 4) (tag : Tag)
  /-- RESYNC_BEGIN (R229). The authoritative device sends its hall map, enters SERVICE.PAIRED, sends stale maps and then answers. -/
  | resyncBegin (tl : Fin 4) (tag : Tag)
  /-- DIVERGED (R65). The partner reports divergence and PAIR_DIVERGED is raised. -/
  | diverged (tl : Fin 4) (tag : Tag)
  /-- LD_FENCE (R214). The partner fences, or the home notes the lift of, a BI-fenced LD. -/
  | ldFence (tl : Fin 4) (tag : Tag) (dld : Fin 64) (lift : Bool)
  /-- SANITIZE_MARK (R127). The partner sets or clears a hall's sanitize mark. -/
  | sanitizeMark (tl : Fin 4) (tag : Tag) (hall : BitVec 16) (set : Bool)
  /-- GAL_FENCE (R161). The partner records a gallery of the sender as fenced or restored. -/
  | galFence (tl : Fin 4) (tag : Tag) (g : Fin 8) (fenced : Bool)
  /-- MAP_CHUNK (R229). The receiver replaces 32 hall-map entries with the authoritative ones. -/
  | mapChunk (tl : Fin 4) (tag : Tag) (first : BitVec 32) (ents : List MapEnt)
  /-- STALE_MAP (R229). The receiver marks stale every tread set in the chunk. -/
  | staleMap (tl : Fin 4) (tag : Tag) (chunk : BitVec 32) (bits : BitVec 2048)
  /-- STALE_MAP_END (R229). Ends the stale-map transfer, marking every tread stale when FULL. -/
  | staleMapEnd (tl : Fin 4) (tag : Tag) (count : BitVec 32) (full : Bool)
  /-- ROLE_RSP (R183). A role response arrives, continuing the operation that waited for it. -/
  | roleRsp (tl : Fin 4) (sub : Byte) (status : BitVec 16) (tag : Tag) (hello : Option Hello)
  /-- RSY_DATA (R230). The receiver writes a resynced riser as dirty and clears its stale mark, or applies or discards reconcile data. -/
  | rsyData (tl : Fin 4) (poison : BitVec 4) (reconcile : Bool) (hgen : BitVec 16) (tag : Tag) (haddr : BitVec 46) (data : Riser)
  /-- RSY_DONE (R229). Ends a resync or reconciliation stream. -/
  | rsyDone (tl : Fin 4) (reconcile : Bool) (tag : Tag) (treads : BitVec 40)
  /-- RESYNC_SEND_TREAD (R229). The authoritative device sends the risers of the next set tread as RSY_DATA, paced by the receiver. -/
  | resyncSendTread (tread : BitVec 34)
  /-- HOME_RETURN_START (R234). When conditions hold, the home of a hall preferred on the other side starts a planned transfer. -/
  | homeReturnStart (hall : BitVec 16)
  /-- HOME_XFER_RETRY (R235). A HOME_XFER answered retry later is sent again after 1 ms. -/
  | homeXferRetry (hall : BitVec 16)
  /-- LINK_RESET (R206). Writing TWN_LINK_CTRL.LINK_RESET removes the link from steering, lifts a fence and starts full training. -/
  | linkReset (ini : Byte) (tl : Fin 4)
  /-- LINK_RETRAIN (R174). Writing TWN_LINK_CTRL.RETRAIN starts a fast retrain of an ACTIVE link. -/
  | linkRetrain (ini : Byte) (tl : Fin 4)
  /-- YIELD (R239). Writing TWN_PAIR_CTRL.YIELD while diverged proposes epoch 0 and leaves SERVICE to restart and receive a full resync. -/
  | yieldImage (ini : Byte)
  /-- RNG_SQ_TAIL (R331). The doorbell makes descriptors up to the new tail available. -/
  | rngSqTail (ini : Byte) (r : Fin 1024) (tail : BitVec 16)
  /-- RNG_CQ_HEAD (R331). Writing the completion head frees completion entries. -/
  | rngCqHead (ini : Byte) (r : Fin 1024) (head : BitVec 16)
  /-- RING_ENABLE (R330). Writing ENABLE 1 in DISABLED checks the ring and enters RUNNING or ERROR. -/
  | ringEnable (ini : Byte) (r : Fin 1024)
  /-- RING_DISABLE (R330). Writing ENABLE 0 moves RUNNING to DRAINING, or ERROR and STOPPED to DISABLED. -/
  | ringDisable (ini : Byte) (r : Fin 1024)
  /-- RING_NOP (R334). A NOP descriptor completes at once. -/
  | ringNop (r : Fin 1024) (ecc : EccRes)
  /-- COPY (R334). Copies LEN bytes from SRC to DST, carrying poison. -/
  | ringCopy (r : Fin 1024) (ecc : EccRes) (src : EccRes)
  /-- FILL (R334). Fills LEN bytes at DST with the 8 B pattern. -/
  | ringFill (r : Fin 1024) (ecc : EccRes)
  /-- COMPARE (R334). Compares two ranges and returns the first differing offset. -/
  | ringCompare (r : Fin 1024) (ecc : EccRes) (src : EccRes)
  /-- CRC32C (R334). Computes the CRC-32C of a range from SEED. -/
  | ringCrc32c (r : Fin 1024) (ecc : EccRes) (src : EccRes)
  /-- PERSIST_BARRIER (R337). Completes when earlier descriptors in scope and earlier CXL.mem writes of the owner are durable. -/
  | persistBarrier (r : Fin 1024) (ecc : EccRes)
  /-- FLIGHT (R345). Checks and journals a flight of segments locally and to the partner for atomic commit. -/
  | ringFlight (r : Fin 1024) (ecc : EccRes) (src : EccRes)
  /-- DESCRIPTOR_COMPLETE (R338). A descriptor finishes and its completion entry is written and may signal an interrupt. -/
  | descriptorComplete (r : Fin 1024) (index : BitVec 16)
  /-- INT_DELAY_EXPIRY (R340). INT_DELAY_US after the first signalling entry, the ring's MSI-X vector is raised. -/
  | intDelayExpiry (r : Fin 1024)
  /-- FLIGHT_APPLY_DONE (R345). Every apply write of a flight is durable and the origin sends JRN_DONE, retiring on its ACK. -/
  | flightApplyDone (own : Bool) (slot : Byte)
  /-- RING_ENGINE_RESTART (R342). Writing GAL_RING_ENGINE.RESTART lifts the ring-engine fence when every ring is DISABLED. -/
  | ringEngineRestart (ini : Byte) (g : Fin 8)
  /-- END (R357). The sequencer program ends, giving its transition. -/
  | seqEnd
  /-- ENABLE (R358). Drives every RAIL_EN in MASK to LEVEL in one cycle. -/
  | seqEnable
  /-- WAIT (R358). Starts a wait of COUNT units. -/
  | seqWait
  /-- WAIT_EXPIRY (R358). A WAIT ends and the next instruction runs. -/
  | waitExpiry
  /-- CHECK (R359). Starts an up or discharge check of a rail. -/
  | seqCheck
  /-- CHECK_PASS (R359). Three consecutive good samples pass the check, arming the rail for an up check. -/
  | checkPass (code : BitVec 12)
  /-- CHECK_TIMEOUT (R359). A check times out, setting FAIL or STUCK. -/
  | checkTimeout (code : BitVec 12)
  /-- JUMP_IF (R359). Jumps on COND, abandoning UP when the target is DOWN. -/
  | jumpIf
  /-- PMBUS (R369). Sends a PMBus command to a regulator, retrying twice and setting PMBUS_FAIL on failure. -/
  | seqPmbus
  /-- MARK (R358). Sets and clears user flags and writes PWR_SEQ_STATUS.MARK. -/
  | seqMark
  /-- WAITEV (R358). Waits in SAVE_SHED for TWIN_QUIET or HEADS_DOWN. -/
  | waitev
  /-- WAITEV_EVENT (R358). The awaited event occurs and the program continues. -/
  | waitevEvent
  /-- WAITEV_TIMEOUT (R358). WAITEV times out, sets EV_TIMEOUT and continues. -/
  | waitevTimeout
  /-- SEQ_WATCHDOG_EXPIRY (R359). A program exceeding SEQ_WDOG_MS is ended according to which program ran. -/
  | seqWatchdogExpiry
  /-- OFF_REQUEST (R362). Writing PWR_SEQ_CTRL.OFF triggers a save, DOWN, or is held or ignored by state. -/
  | offRequest (ini : Byte)
  /-- RAIL_BLANK_EXPIRY (R355). BLANK after enable the rail becomes running and supervised for over-voltage and over-current. -/
  | railBlankExpiry (rail : Fin 16)
  /-- RAIL_TRIP (R365). TRIP_SAMPLES samples beyond OV or OC on a running rail trip the device. -/
  | railTrip (rail : Fin 16) (oc : Bool) (code : BitVec 12)
  /-- RAIL_UNDER_VOLTAGE (R355). TRIP_SAMPLES samples below UV_CODE on an armed rail raise RAIL_UV. -/
  | railUnderVoltage (rail : Fin 16) (code : BitVec 12)
  /-- ADC_REFERENCE_CHECK (R353). Every 1 ms the converters measure a reference, raising ADC_FAULT outside ±1 %. -/
  | adcReferenceCheck (railOk : Bool) (holdOk : Bool)
  /-- PMBUS_ALERT (R370). PMB_ALERT_N low leads to alert response, STATUS_WORD read, trip or REG_WARN, and CLEAR_FAULTS. -/
  | pmbusAlert (addr : BitVec 7) (page : Byte) (ov : Bool) (oc : Bool) (other : Bool) (res : PmbRes)
  /-- HOLD_MEASUREMENT_START (R373). A hold-up measurement starts with the charger turned off. -/
  | holdMeasurementStart
  /-- HOLD_V0_SAMPLE (R373). At t0 + 100 ms V0 is taken and at t0 + 110 ms the load is switched on. -/
  | holdV0Sample (v0 : Nat) (span : Nat)
  /-- HOLD_DROOP_REACHED (R373). The bank droops by DROOP_MV and the load is switched off. -/
  | holdDroopReached (v1 : Nat) (v2 : Nat) (dtUs : Nat)
  /-- HOLD_DROOP_TIMEOUT (R373). t_on + 2 s passes without the droop and the measurement ends with result 0x5. -/
  | holdDroopTimeout
  /-- HOLD_MEASUREMENT_END (R374). V3 is taken, c and esr computed, checked and committed or rejected. -/
  | holdMeasurementEnd (v3 : Nat)
  /-- HOLD_MEASUREMENT_ABORT (R377). A power-fail trigger, trip, S3 fault or state change ends the measurement early. -/
  | holdMeasurementAbort (powerFail : Bool)
  /-- HOLD_PERIOD_EXPIRY (R376). HOLD_PERIOD after the last measurement a new one is scheduled. -/
  | holdPeriodExpiry
  /-- HOLD_DEFER_RETRY (R376). A deferred scheduled measurement is retried after 10 min. -/
  | holdDeferRetry
  /-- HOLD_CHARGE_WAIT_EXPIRY (R378). HOLD_CHARGE_WAIT passes in VAULT.START and HOLD_CHARGE_SLOW is raised. -/
  | holdChargeWaitExpiry
  /-- HOLD_ENERGY_RECOMPUTE (R375). Every 10 ms e_usable, db_hold and DB are recomputed and a deferred start measurement checked. -/
  | holdEnergyRecompute (code : BitVec 12) (low : Nat) (steady : Bool)
  /-- MEASURE (R376). Writing PWR_HOLD_CTRL.MEASURE requests a hold-up measurement. -/
  | holdMeasure (ini : Byte)
  /-- MINMAX_CLR (R353). Writing PWR_SNS.MINMAX_CLR sets MIN and MAX to CODE. -/
  | minmaxClr (ini : Byte) (ch : Fin 17)
  /-- THERMAL_THROTTLE_START (R534). A junction reading of 100 °C in SERVICE starts throttling. -/
  | thermalThrottleStart
  /-- THERMAL_THROTTLE_END (R534). Throttling ends after the reading stays below 95 °C for 1 s. -/
  | thermalThrottleEnd
  /-- FAULT_MESSAGE (R398). The collector root decides a fault message as self-fault, S3, stale, consequential, fenced or by class, and logs it. -/
  | faultMessage (source : Fin 768)
  /-- CONSEQUENTIAL_WINDOW_EXPIRY (R401). The 10 ms consequential window of a fence closes. -/
  | consequentialWindowExpiry (ev : WinEv)
  /-- FORCE (R394). Writing FCU_SRC.FORCE raises the source as a forced fault. -/
  | fcuForce (ini : Byte) (source : Fin 768)
  /-- ARM_FATAL (R394). Writing FCU_CTRL.ARM_FATAL allows one force of an S3 source within 1 ms. -/
  | armFatal (ini : Byte)
  /-- ARM_FATAL_EXPIRY (R394). The 1 ms window for an S3 force closes. -/
  | armFatalExpiry
  /-- CAPTURE_CLR (R406). Writing FCU_CTRL.CAPTURE_CLR clears the capture and CAPTURE_MORE. -/
  | captureClr (ini : Byte)
  /-- FCU_HEAD_UNFENCE (R405). Writing a bit lifts a head's fence, reloading its configuration and retraining. -/
  | fcuHeadUnfence (ini : Byte) (heads : BitVec 16)
  /-- COLLECTOR_SELF_CHECK (R412). The periodic parity scan and loopback check detect a self-fault and react as S2. -/
  | collectorSelfCheck (cause : Fin 5) (corrected : Bool)
  /-- FLUSH (R428). Writing ALC_CTRL.FLUSH commits the Alcove write buffer. -/
  | alcFlush (ini : Byte)
  /-- ALCOVE_COMMIT (R429). The controller commits the write buffer through the journal to the home locations. -/
  | alcoveCommit
  /-- GATHERED_WRITE_EXPIRY (R428). 100 ms after the oldest buffered write the buffer is committed. -/
  | gatheredWriteExpiry
  /-- URGENT_COMMIT (R430). An urgent record write commits on its own ahead of buffered writes. -/
  | urgentCommit
  /-- RING_SLOT_WRITE (R435). A counter or fault ring is updated by writing the slot after the newest. -/
  | ringSlotWrite
  /-- KEY (R421). Writing ALC_LOCK.KEY checks page 0 and sets the permanent lock. -/
  | alcKey (ini : Byte) (key : BitVec 32)
  /-- BP (R422). Writing ALC_PROTECT.BP raises block protection, or lowers it before the boot lock, committing PROTECT. -/
  | alcBp (ini : Byte) (bp : Fin 4)
  /-- WIN_ADDR_WRITE (R423). Naming a new page in ALC_WIN_ADDR clears WIN_LOADED and starts a page load. -/
  | winAddrWrite (ini : Byte) (val : Word)
  /-- PAGE_LOAD_DONE (R423). The page buffer is loaded and WIN_LOADED is set. -/
  | pageLoadDone
  /-- WIN_DATA_READ (R423). Reading ALC_WIN_DATA returns the word and advances WORD. -/
  | winDataRead (ini : Byte)
  /-- WIN_DATA_WRITE (R423). Writing ALC_WIN_DATA updates page and write buffer, or is refused with ALC_PROTECT. -/
  | winDataWrite (ini : Byte) (val : Word)
  /-- MARGIN_SCAN_PAGE (R436). Each second the margin scan reads one page at reduced margin and rewrites weak words. -/
  | marginScanPage (weak : Nat)
  /-- WEAR_HOURLY_WRITE (R437). Every hour the page access counts are written into WEAR. -/
  | wearHourlyWrite
  /-- RTC_SECONDS_CARRY (R441). A carry from the fraction advances SECONDS and the alarm is compared. -/
  | rtcSecondsCarry
  /-- OSC_STOP_DETECTED (R440). No oscillator edge for 2 ms sets OSC_STOPPED. -/
  | oscStopDetected
  /-- RTC_TIME_READ (R443). A read of a time register starts or uses a freeze, or a closing read of RTC_TIME_HI ends it. -/
  | rtcTimeRead (ini : Byte) (off : BitVec 32) (size : Nat)
  /-- FREEZE_EXPIRY (R443). A freeze ends 1 ms after it began. -/
  | freezeExpiry (ini : Byte)
  /-- HALT (R445). Writing 1 to RTC_CTRL.HALT stops the counter at the next edge. -/
  | rtcHalt (ini : Byte)
  /-- RESUME (R447). Writing 0 to HALT resumes counting, clearing OSC_STOPPED and raising TIME_SET after a time write. -/
  | rtcResume (ini : Byte)
  /-- TIME_WRITE (R446). A write of SECONDS or FRACTION while halted is applied and checked against the alarm, else ignored. -/
  | timeWrite (ini : Byte) (off : BitVec 32) (size : Nat) (val : Word)
  /-- ALARM_ARM (R453). Writing RTC_ALARM with ARMED 1 arms the alarm and fires at once if due. -/
  | alarmArm (ini : Byte) (val : Word)
  /-- ALARM_DISARM (R453). Writing RTC_ALARM with ARMED 0 disarms the alarm. -/
  | alarmDisarm (ini : Byte) (val : Word)
  /-- TRIM (R449). Writing RTC_TRIM.TRIM sets the trim for the next period, abandoning a measurement. -/
  | rtcTrim (ini : Byte) (trim : BitVec 16)
  /-- TRIM_START (R450). Writing TRIM_START starts a trim measurement. -/
  | trimStart (ini : Byte)
  /-- TRIM_PERIOD_EXPIRY (R450). TRIM_PERIOD after the last measurement a new one starts. -/
  | trimPeriodExpiry
  /-- TRIM_MEASUREMENT_END (R451). The trim window ends and a new trim is computed and applied. -/
  | trimMeasurementEnd (count : Nat)
  /-- TIME_REF_LOST (R451). The reference shows no edge for 3 s and the measurement is abandoned. -/
  | timeRefLost
  /-- CANCEL_REQ (R456). Writing RTC_CTRL.CANCEL_REQ clears both PWR_ON_REQ causes. -/
  | cancelReq (ini : Byte)
  /-- CORE_PLL_LOSS (R461). A core or Corridor PLL loses lock, raising an S3 fault. -/
  | corePllLoss (corr : Bool)
  /-- REFCLK100_LOSS (R461). The 100 MHz reference disappears; PLLs enter holdover and PCIE_REFCLK_LOSS is raised. -/
  | refclk100Loss
  /-- AON_CALIBRATION (R460). Every 1 s the AON oscillator is calibrated against BKP. -/
  | aonCalibration
  /-- CLOCK_MONITOR_CHECK (R461). Every 1 s each running PLL is compared and CLK_MONITOR raised if off frequency. -/
  | clockMonitorCheck (dom : Fin 54) (ppm : Int)
  /-- XSPI_IDLE_STOP (R463). The XSPI domain stops after 100 µs idle. -/
  | xspiIdleStop
  /-- CDC_ACCESS_TIMEOUT (R468). An access into a stopped or reset domain ends after 4 µs with an error response and CDC_TIMEOUT. -/
  | cdcAccessTimeout (ini : Byte) (addr : BitVec 32)
  /-- CROSSING_RESET_DISCARD (R466). A crossing whose side resets discards items in flight and resynchronises. -/
  | crossingResetDiscard (src : Fin 54) (dst : Fin 54) (items : Nat)
  /-- VERIFY_SLOT_A (R490). BOOT_CTRL.VERIFY 0x1 checks slot A. -/
  | verifySlotA (ini : Byte)
  /-- VERIFY_SLOT_B (R490). BOOT_CTRL.VERIFY 0x2 checks slot B. -/
  | verifySlotB (ini : Byte)
  /-- VERIFY_DONE (R490). A VERIFY ends and BOOT_SLOT_STATUS.RESULT is set. -/
  | verifyDone (v : SlotVerdict)
  /-- FLASH_READ (R470). BOOT_FLASH_CMD 0x1 reads 256 B into the buffer. -/
  | flashRead (ini : Byte)
  /-- FLASH_PROGRAM (R475). BOOT_FLASH_CMD 0x2 programs the buffer as a page, unless protected or gated. -/
  | flashProgram (ini : Byte) (gate : Bool)
  /-- FLASH_ERASE_4K (R475). BOOT_FLASH_CMD 0x3 erases 4 KiB, unless protected or gated. -/
  | flashErase4k (ini : Byte) (gate : Bool)
  /-- FLASH_ERASE_64K (R475). BOOT_FLASH_CMD 0x4 erases 64 KiB, unless protected or gated. -/
  | flashErase64k (ini : Byte) (gate : Bool)
  /-- FLASH_COMMAND_DONE (R490). A flash command completes and BOOT_FLASH_STATUS is updated. -/
  | flashCommandDone (ok : Bool)
  /-- WARM (R495). Writing RST_CTRL.WARM requests a warm reset with effect by state. -/
  | rstWarm (ini : Byte)
  /-- LOG_FREEZE (R519). Writing GLB_LOG_CTRL.FREEZE freezes the logs. -/
  | logFreeze (ini : Byte)
  /-- LOG_THAW (R520). Writing GLB_LOG_CTRL.THAW ends a freeze. -/
  | logThaw (ini : Byte)
  /-- PF_N_RISE (R243). PF_N returns high, re-arming its edge trigger and, with PF_SENSE good, setting INPUT_GOOD, which starts the 100 ms timer and re-enables the charger. -/
  | pfNRise
  /-- PF_SENSE_GOOD (R243). PF_SENSE rises above PF_TRIP_MV plus PF_HYST_MV, counting as good again, re-arming the trigger and setting INPUT_GOOD. -/
  | pfSenseGood
  /-- VBAT_LOW (R389). VBAT crosses 2.0 V while the always-on supply is present, setting or clearing RTC_STATUS.VBAT_LOW and raising VBAT_LOW when it falls. -/
  | vbatLow (low : Bool)
  /-- REFCLK100_RETURN (R461). The 100 MHz reference reappears, ending holdover, relocking the PLLs and starting the 10 ms presence needed before a warm reset or RETRY_START is accepted. -/
  | refclk100Return (settled : Bool)
  /-- TWIN_REFCLK_LOSS (R205). The 156.25 MHz twin reference goes missing or outside ±200 ppm, raising TWIN_REFCLK so that no twin link can train. -/
  | twinRefclkLoss
  /-- THERMAL_HIGH (R387). The junction stays above 105 °C for 100 ms and THERMAL_HIGH (S2) is raised. -/
  | thermalHigh
  /-- THERMAL_CRITICAL (R387). The junction reaches 115 °C and THERMAL_CRITICAL (S3) trips the device. -/
  | thermalCritical
  /-- DIMM_THERMAL (R165). A DIMM sensor exceeds 85 °C, raising DIMM_THERMAL and doubling the refresh rate within the M slots. -/
  | dimmThermal (ch : Fin 32)
  /-- HEAD_LINK_UP (R81). A head's link training ends in L0 in CXL mode, setting rate, width and LINK_UP, raising LINK_DEGRADED when narrower or slower, or staying out of CXL mode. -/
  | headLinkUp (h : Fin 16) (rate : BitVec 4) (width : BitVec 4) (flit256 : Bool)
  /-- IDE_KM (R120). An IDE_KM key-programming or key-refresh exchange over an SPDM session sets or refreshes a head's IDE stream keys, raising IDE_KEY when it fails. -/
  | ideKm (w : HeadStream) (op : IdeKm)
  /-- CLEAR_EVENT_RECORDS (R122). A Clear Event Records command removes records from an LD's event log per CXL 3.1. -/
  | clearEventRecords (h : Fin 16) (ld : Fin 4) (log : EvLog) (all : Bool) (handles : List (BitVec 16))
  /-- CREDIT_STARVE (R205). Messages of a virtual channel have waited more than 100 µs with no credit and CREDIT_STARVE is raised. -/
  | creditStarve (tl : Fin 4) (vc : Fin 4)
  /-- PMBUS_TRANSACTION_END (R369). A PMBus transaction of a PMBUS instruction completes, acknowledged or failed, and the sequencer retries or sets PMBUS_FAIL and continues. -/
  | pmbusTransactionEnd (ack : Bool) (pec : Bool)
  /-- INTERNAL_ERROR_DETECTED (R381). A unit detects a parity, ECC, lockstep, PLL-loss or PHY error of its own and raises a fault message with its current RGEN. -/
  | internalErrorDetected (source : Fin 768) (kind : BitVec 6) (addr : BitVec 52) (ini : Byte) (access : BitVec 4)
  /-- ROLE_GENERATION_ADVANCE (R396). A held second advance of a unit's role generation takes effect 20 µs after the first. -/
  | roleGenerationAdvance (unit : Fin 576)
  /-- BACKUP_DOMAIN_WRITE_EFFECTIVE (R445). At the next oscillator edge a backup-domain write takes effect: HALTED sets or clears, held time writes apply, or a trim takes effect at its period start. -/
  | backupDomainWriteEffective
  deriving DecidableEq, Repr

end Sys2Proof
end

