-- ==== Sys2Proof/Decode.lean ====
section
/-! DEFINITION. Decode.lean: the command a table word spells. The opcode table gives no row any bits, so none is spelled. -/
namespace Sys2Proof

/-- The command that a word spells by the table's bits (log entry 10): every row's operands come from outside as values. -/
def decodeTableWord (_nbits _w : Nat) : Option Instr := none

end Sys2Proof
end

