-- ==== Sys2Proof/Config.lean ====
section
/-! DEFINITION. Config.lean: what an implementation fixes and the values the spec leaves open. Each is opaque: nothing can be proved about a value of it. -/
namespace Sys2Proof.Config

/-- Free value number n as a 64-bit word: a value the spec does not state (log entry 8). -/
opaque freeWord : Nat → Word

/-- Free value number n as a Nat (log entry 8). -/
opaque freeNat : Nat → Nat

/-- DevLoad of a response (R110): the spec says that it reports the head's load and does not say how. By head, LD, outstanding requests and the
number of the next request (log entry 90). -/
opaque devLoad : Nat → Nat → Nat → Nat → BitVec 2

/-- The die serial of this part (R522); the spec gives no value. -/
opaque dieSerial : Word

/-- A word that the Alcove array holds damaged, or left over from a journal of before, by array offset and sequence number (log entry 8). -/
opaque alcoveWord : Nat → Nat → Word

/-- Byte i of the payload of an Alcove record whose layout the spec does not give, by record ID, SEQ and content (log entry 20). -/
opaque recordByte : Nat → Nat → List Nat → Nat → Byte

end Sys2Proof.Config
end

