-- ==== Sys2Proof/Machine/State.lean ====
section
/-! DEFINITION. Machine/State.lean: everything the spec gives the device, as plain data, and State.reset. -/
namespace Sys2Proof.Machine

/-! ## Modes, transitions and the global registers -/

/-- The states of R26. -/
inductive Mode where
  | off | standby | start | save | hold | vestibule | paired | solo
  deriving DecidableEq, Repr

/-- GLB_STATE, GLB_LAST_TRANSITION and the start timers (R30 to R41). -/
structure Glb where
  mode : Mode
  restoring : Bool
  fatal : Bool
  promoting : Bool
  /-- GLB_LAST_TRANSITION: FROM, TO, CODE, COUNT (R41). -/
  ltFrom : Nat
  ltTo : Nat
  ltCode : Nat
  ltCount : Nat
  ltTime : Word
  /-- The 100 ms of R33 have passed with the input bus good. -/
  inputGood100 : Bool
  /-- The minimum off time of R33 is running. -/
  minOff : Bool
  /-- The mode held when RESET_N was asserted (R494); none while the pin is high. -/
  resetHeld : Option Mode
  /-- The always-on supply was lost since the last entry to STANDBY (code 0x02 is due, R41). -/
  lossDue : Bool
  deriving DecidableEq, Repr

/-! ## Fault collector (11_fault_collection.md) -/

/-- The classes of R391. -/
inductive FClass where
  | s0 | s1 | s2 | s3
  deriving DecidableEq, Repr

/-- A fault message (R381), with the repeat count of R385 and the FORCED mark of R394. -/
structure FMsg where
  source : Nat
  kind : Nat
  addr : Nat
  ini : Nat
  access : Nat
  rgen : Nat
  rep : Nat
  forced : Bool
  deriving DecidableEq, Repr

/-- A log entry (R407, FCU_LOG). -/
structure LogEntry where
  time : Word
  rgen : Nat
  access : Nat
  addr : Nat
  seq : Nat
  rep : Nat
  ini : Nat
  kind : Nat
  source : Nat
  cause : Nat
  reaction : Nat
  fromAlcove : Bool
  forced : Bool
  fenced : Bool
  conseq : Bool
  stale : Bool
  cls : Nat
  deriving DecidableEq, Repr

/-- The state of one source (R393). -/
structure SrcSt where
  active : Bool
  latched : Bool
  count : Nat
  lastKind : Nat
  /-- The source reports a condition that holds now (R393, R397). -/
  condition : Bool
  deriving DecidableEq, Repr

/-- The state of one unit (R395, R396, FCU_UNIT). -/
structure UnitSt where
  fenced : Bool
  rgen : Nat
  fences : Nat
  fenceSrc : Nat
  /-- Less than 20 µs have passed since the last advance (R396). -/
  recent : Bool
  /-- Advances held until 20 µs after the first (R396). -/
  held : Nat
  deriving DecidableEq, Repr

/-- An open consequential window: its event and the source that caused it (R401, R402). -/
structure Win where
  ev : WinEv
  cause : Nat
  deriving DecidableEq, Repr

/-- The fault collector root (R381 to R414). -/
structure Fcu where
  src : Tbl SrcSt
  /-- Classes in force where they differ from the default (R392). -/
  cls : Tbl FClass
  unit : Tbl UnitSt
  /-- Messages waiting for the root, oldest first (R385). -/
  waiting : List FMsg
  /-- Log entries by index, 0 to 63 (R407). -/
  log : Tbl LogEntry
  next : Nat
  entries : Nat
  unlogged : Nat
  frozen : Bool
  freezeTime : Word
  captured : Option LogEntry
  captureMore : Bool
  captureMin : Nat
  rejected : Nat
  logCe : Bool
  self : Bool
  selfCause : Nat
  armed : Bool
  /-- Open windows, earliest first (R401, R402). -/
  windows : List Win
  /-- Fault-ring entries waiting to be committed to the Alcove (R410). -/
  alcDue : List LogEntry
  deriving DecidableEq, Repr

/-- One entry of a violation log (HST_VIOL_LOG, GLB_MGMT_VIOL_LOG). -/
structure ViolEntry where
  time : Word
  addr : Nat
  access : Nat
  kind : Nat
  ini : Nat
  hall : Nat
  deriving DecidableEq, Repr

/-- A violation counter with its log of 16 entries (R118, R512). -/
structure Viol where
  violations : Nat
  ignored : Nat
  next : Nat
  log : Tbl ViolEntry
  deriving DecidableEq, Repr

/-! ## Real-time clock and backup domain (13_rtc_backup.md) -/

/-- A read shadow: the initiator and the three registers copied at the freeze (R443, R444). -/
structure Freeze where
  ini : Nat
  lo : Word
  cal : Word
  hi : Word
  deriving DecidableEq, Repr

/-- The result of a trim measurement (RTC_TRIM_MEAS.RESULT). -/
inductive TrimRes where
  | none | accepted | saturated | running | refLost | supplyLost | written
  deriving DecidableEq, Repr

/-- The RTC (R439 to R458). -/
structure Rtc where
  seconds : BitVec 40
  frac : BitVec 24
  /-- Edge number within the period of 32,768 edges (R441). -/
  edge : Nat
  halt : Bool
  halted : Bool
  adjusted : Bool
  oscStopped : Bool
  /-- Time writes held until the edge that sets HALTED (R446). -/
  heldSec : Option (BitVec 40)
  heldFrac : Option (BitVec 24)
  /-- A time write was accepted since HALT was set (R447). -/
  wrote : Bool
  alarm : BitVec 40
  armed : Bool
  wake : Bool
  fired : Bool
  firedByAdjust : Bool
  causeAlarm : Bool
  causeRestore : Bool
  ignored : Nat
  steals : Nat
  vbatLow : Bool
  /-- The freezes, earliest first (R444). -/
  freezes : List Freeze
  /-- RTC_TRIM.TRIM and the trim in force for the current period (R449). -/
  trim : Int
  trimNow : Int
  trimSrc : Nat
  /-- No measurement has started at an entry to SERVICE since the backup-domain reset (R450). -/
  firstService : Bool
  measCount : Nat
  measRes : TrimRes
  measTrim : Int
  measTime : Word
  refLost : Bool
  /-- RTC_REF_CFG, from the image. -/
  timeRef : Nat
  periodH : Nat
  windowS : Nat
  deriving DecidableEq, Repr

/-! ## Alcove (12_alcove.md) -/

/-- The LANDING record (R261): the newest committed save and its predecessor with their retired flags, the next unit number, the erased units
from there on, and the saves written. -/
structure LandRec where
  newest : Nat
  newestRetired : Bool
  pred : Nat
  predRetired : Bool
  next : Nat
  reserve : Nat
  saves : Nat
  deriving DecidableEq, Repr

/-- The SAVE_ATTEMPT record (R247). -/
structure AttemptRec where
  seq : Nat
  cause : Nat
  time : Word
  deriving DecidableEq, Repr

/-- The VAULT record (R321, R136): the vault's identity, the record area and the DIMM record. -/
structure VaultRec where
  id : Word
  geom : List Nat
  recArea : List Nat
  dimms : List Nat
  deriving DecidableEq, Repr

/-- The PAIR record (R426). -/
structure PairRec where
  lastEpoch : Nat
  proposed : Nat
  pending : Bool
  deriving DecidableEq, Repr

/-- The HOLDUP record: the measurement in force (R373, R374). -/
structure HoldRec where
  cMf : Nat
  esr : Nat
  v0 : Nat
  time : Word
  iTest : Nat
  scale : Nat
  deriving DecidableEq, Repr

/-- One rail table entry (R354), as PWR_RAIL_CFG and PWR_RAIL_PMB show it. -/
structure RailCfg where
  cfg : Word
  pmb : Word
  deriving DecidableEq, Repr

/-- A sequencer program with its entry points, rail table and PMBus data table (R356, R357, R479). -/
structure SeqProg where
  up : Nat
  down : Nat
  shed : Nat
  trip : Nat
  rails : List RailCfg
  words : List (BitVec 32)
  data : List (BitVec 16)
  deriving DecidableEq, Repr

/-- Training parameters and DIMM serial number of one channel (R134). -/
structure TrainRec where
  serial : Nat
  rate : Nat
  params : Word
  deriving DecidableEq, Repr

/-- The content of a record (R426). -/
inductive RecVal where
  | vault (v : VaultRec)
  | landing (v : LandRec)
  | attempt (v : AttemptRec)
  | erase (esn : Nat) (blocks : List Nat)
  | pair (v : PairRec)
  | hold (v : HoldRec)
  | protect (bp : Nat)
  | wear (counts : Tbl Nat)
  | margin (page : Nat) (time : Word)
  | marks (devs : List Nat)
  | seq (p : SeqProg)
  | train (v : TrainRec)
  deriving DecidableEq, Repr

/-- One copy of a record (R424, R427). -/
inductive Copy where
  | blank
  | damaged
  | valid (seq : Nat) (v : RecVal)
  deriving DecidableEq, Repr

/-- The two copies of a record (R424). -/
structure RecSlot where
  a : Copy
  b : Copy
  deriving DecidableEq, Repr

/-- A write waiting in the write buffer (R428). -/
inductive BufW where
  | record (id : Nat) (v : RecVal)
  | win (off : Nat) (w : Word)
  deriving DecidableEq, Repr

/-- One extent of a commit: a record copy or a window word (R429). -/
inductive Extent where
  | copyA (id seq : Nat) (v : RecVal)
  | copyB (id seq : Nat) (v : RecVal)
  | word (off : Nat) (w : Word)
  deriving DecidableEq, Repr

/-- The journal (R429): STATE, whether its header and body are whole, and the extents. -/
structure Journal where
  blank : Bool
  state : Nat
  whole : Bool
  commitSeq : Nat
  extents : List Extent
  deriving DecidableEq, Repr

/-- The content of a ring slot: a counter value or a fault entry (R433, R434). -/
inductive RingVal where
  | count (n : Nat)
  | fault (e : LogEntry)
  deriving DecidableEq, Repr

/-- A ring slot that is not blank (R434). -/
inductive RSlot where
  | torn
  | valid (seq : Nat) (v : RingVal)
  deriving DecidableEq, Repr

/-- A ring: its slots by position, and what the controller learned from the last scan (R435). -/
structure ARing where
  slots : Tbl RSlot
  newest : Nat
  torn : Nat
  deriving DecidableEq, Repr

/-- The Alcove controller and what the array holds outside its byte areas (R415 to R438). -/
structure Alc where
  ready : Bool
  /-- A commit of the buffer has started and not ended (ALC_STATUS.BUSY). -/
  busy : Bool
  /-- ALC_UE or ALC_CTRL_PARITY was decided since the last recovery (R431). -/
  faulted : Bool
  recs : Tbl RecSlot
  rings : Tbl ARing
  /-- Ring updates waiting for their slot write (R435), oldest first. -/
  ringQ : List (Nat × RingVal)
  /-- Buffered writes, oldest first (R428). -/
  buf : List BufW
  /-- Urgent record writes waiting (R430), oldest first. -/
  urgent : List (Nat × RecVal)
  journal : Journal
  commits : Nat
  lastRecovery : Nat
  bp : Nat
  locked : Bool
  winPage : Nat
  winWord : Nat
  winLoaded : Bool
  /-- A page load has been asked for and has not ended (R423). -/
  loading : Bool
  pageBuf : Tbl Word
  recoveries : Nat
  marginWords : Nat
  refused : Nat
  ce : Nat
  marginTime : Word
  /-- The margin scan: a pass is in progress, its page, the words rewritten in it (R436). -/
  marginRun : Bool
  marginPage : Nat
  marginHits : Nat
  /-- Accesses to each page (R437). -/
  wear : Tbl Nat
  /-- Bytes of page 0 and of the OEM area (R418); an unlisted byte reads 0 (R419). -/
  cells : List Host.Cell
  /-- Offsets of the words of page 0 and of the OEM area that read uncorrectable (R416). -/
  lost : List Nat
  deriving DecidableEq, Repr

/-! ## Clock domains (14_clock_domains.md) -/

/-- One clock domain (CLK_DOMAIN). -/
structure ClkDom where
  ppm : Int
  stops : Nat
  offFreq : Bool
  deriving DecidableEq, Repr

/-- The CLK block (R459 to R469). -/
structure Clk where
  aonCal : Bool
  holdover : Bool
  ref100 : Bool
  /-- The 100 MHz reference has been present for 10 ms (R461). -/
  ref100Settled : Bool
  ref156 : Bool
  /-- The XSPI domain runs (R463). -/
  xspiOn : Bool
  overrun : Nat
  overrunLast : Nat
  drop : Nat
  dropLast : Nat
  timeout : Nat
  timeoutIni : Nat
  timeoutAddr : Nat
  doms : Tbl ClkDom
  deriving DecidableEq, Repr

/-! ## Resets, boot and flash (15_boot_image.md, 16_resets_retention.md) -/

/-- RST_STATUS and RST_TIME. -/
structure Rst where
  warmResets : Nat
  coldStarts : Nat
  lastKind : Nat
  time : Word
  deriving DecidableEq, Repr

/-- BOOT_STATUS.PAGE0 (R482). -/
inductive Page0 where
  | blank | written | locked | damaged
  deriving DecidableEq, Repr

/-- BOOT_STATUS.STAGE (R484). -/
inductive Stage where
  | idle | stage0 | up | stage1 | stage2 | service | vestibule
  deriving DecidableEq, Repr

/-- What stage 2 waits for (R266). -/
inductive StartPhase where
  | none | training | mounting | index | pairing | ready
  deriving DecidableEq, Repr

/-- BOOT_SLOT_STATUS and BOOT_SLOT_VERSION of one slot. -/
structure SlotSt where
  result : Nat
  keySlot : Nat
  sections : Nat
  lenKib : Nat
  version : Word
  rejected : Bool
  rejectVersion : Word
  deriving DecidableEq, Repr

/-- A flash command in progress (R470). -/
inductive FlashOp where
  | read | program | erase4k | erase64k
  deriving DecidableEq, Repr

/-- The boot controller (R470 to R491). -/
structure Boot where
  locked : Bool
  cause : Nat
  page0 : Page0
  stage : Stage
  phase : StartPhase
  /-- 0 none, 1 slot A, 2 slot B. -/
  runSlot : Nat
  lastSlot : Nat
  /-- The slot and version of the last failed start (R483). -/
  failedSlot : Nat
  failedVersion : Word
  fallback : Bool
  lastFailed : Bool
  slotA : SlotSt
  slotB : SlotSt
  vaonMv : Nat
  xEntry : Nat
  xDummy : Nat
  xDdr : Bool
  xMhz : Nat
  flashAddr : BitVec 32
  flashOp : Option FlashOp
  flashOps : Nat
  flashResult : Nat
  failTime : Word
  buf : Tbl Word
  verifying : Option Nat
  /-- The start that runs was begun by a warm reset. -/
  warm : Bool
  /-- PAIR_WAIT has run out in this start (R34). -/
  pairWaitOver : Bool
  /-- The POWER section of the slot that stage 1 fell back to (R483). -/
  fbProg : Option SeqProg
  /-- The cause with which stage 0 found nothing to load, or 0 (R482, R487). -/
  cause0 : Nat
  deriving DecidableEq, Repr

/-! ## Power (07_save_restore.md, 10_power_holdup.md) -/

/-- A sequencer program (R357). -/
inductive Prog where
  | none | up | down | shed | trip
  deriving DecidableEq, Repr

/-- What the running program waits for. -/
inductive SeqWait where
  | none
  | wait
  | check (rail : Nat) (discharge : Bool)
  | pmbus (tries : Nat)
  | event (headsDown : Bool)
  deriving DecidableEq, Repr

/-- One rail (R355, R359, R277). -/
structure Rail where
  en : Bool
  running : Bool
  armed : Bool
  fail : Bool
  stuck : Bool
  /-- Driven high since UP last began from STANDBY (R359). -/
  driven : Bool
  /-- Off or out of its window since the warm token was issued (R277). -/
  lost : Bool
  deriving DecidableEq, Repr

/-- One sense channel (PWR_SNS): the last sample, the last 16 samples, and the extremes. -/
structure Sns where
  code : Nat
  hist : List Nat
  min : Nat
  max : Nat
  deriving DecidableEq, Repr

/-- The rail sequencer (R351 to R371). -/
structure Seq where
  prog : Option SeqProg
  /-- 0 none, 1 slot A, 2 slot B, 3 SEQ record. -/
  source : Nat
  running : Prog
  pc : Nat
  wait : SeqWait
  mark : Nat
  user : BitVec 4
  upRuns : Nat
  wdog : Bool
  evTimeout : Bool
  pmbusFail : Bool
  warm : Bool
  offPending : Bool
  rails : Vector Rail 16
  /-- The transition code that DOWN ends with, and the initiator of its trigger. -/
  downCode : Nat
  downIni : Nat
  tripCode : Nat
  tripProg : Nat
  tripPc : Nat
  tripRail : Nat
  tripCause : Nat
  tripTime : Word
  tripN : Bool
  alerts : Nat
  pecErr : Nat
  nack : Nat
  lastAddr : Nat
  deriving DecidableEq, Repr

/-- The power parameters loaded with the power section (R354, PWR_PF_CFG, PWR_SEQ_ENTRY, PWR_HOLD_CFG). -/
structure PwrImg where
  pfTrip : Nat
  pfHyst : Nat
  pfFilter : Nat
  pfNEn : Bool
  minOff : Nat
  wdog : Nat
  pmbRate : Nat
  pmbPec : Bool
  vmin : Nat
  iTest : Nat
  droop : Nat
  periodH : Nat
  scale : Nat
  chargeWait : Nat
  deriving DecidableEq, Repr

/-- The power-fail detector (R241 to R246). -/
structure Pf where
  /-- PF_SENSE is below its threshold as filtered by the hysteresis. -/
  senseLow : Bool
  /-- The filter is running (R241). -/
  filtering : Bool
  /-- PF_SENSE may trigger again (R243). -/
  senseArmed : Bool
  pfN : Bool
  pfNArmed : Bool
  inputGood : Bool
  /-- PF_SENSE counts as good: it exceeded PF_TRIP_MV + PF_HYST_MV and has not fallen below PF_TRIP_MV since (R243). -/
  senseGood : Bool
  /-- Time of the last PF_GLITCH raised (R243). -/
  lastGlitch : Option Word
  triggers : Nat
  glitches : Nat
  lastSource : Nat
  time : Word
  deriving DecidableEq, Repr

/-- The phase of a hold-up measurement (R373). -/
inductive HoldPhase where
  | idle | settle | load | recover
  deriving DecidableEq, Repr

/-- The hold-up meter (R372 to R379). Voltages are in mV at the bank. -/
structure Hold where
  inForce : Option HoldRec
  result : Nat
  phase : HoldPhase
  deferred : Bool
  /-- The deferred measurement was asked for by HOLDUP_MEASURE (R518). -/
  byCommand : Bool
  v0 : Nat
  v1 : Nat
  v2 : Nat
  dt : Nat
  loadEn : Bool
  vBank : Nat
  vStart : Nat
  eUsable : Nat
  dbHold : Nat
  /-- The bank moved less than 20 mV over the last second (R376). -/
  settled : Bool
  deriving DecidableEq, Repr

/-- The budget (R69 to R79). Sizes in risers of 256 B or GiB as named. -/
structure Budget where
  dbCfg : Nat
  eFixed : Nat
  pSave : Nat
  rSave : Nat
  throttleMax : Nat
  soloFactor : Nat
  /-- The SOLO ceiling of R74 in half risers, while it lies above the solo DB. -/
  ramp : Option Nat
  wearPaced : Bool
  deriving DecidableEq, Repr

/-! ## Management (17_management.md) -/

/-- The I3C endpoint and the management CCI (R505 to R522). -/
structure Mgmt where
  dropped : Nat
  eid : Nat
  dynAddr : Nat
  held : Nat
  viol : Viol
  /-- A background command: its opcode and percentage done (R516). -/
  background : Option Nat
  /-- FM API response message limit (R521). -/
  respLimit : Nat
  deriving DecidableEq, Repr
/-! ## Heads and logical devices (03_host_heads.md) -/

/-- HST_LINK_STATUS.IDE: no stream, established and not secure, secure, failed (R120, R121). -/
inductive Ide where
  | none | established | secure | failed
  deriving DecidableEq, Repr

/-- One IDE stream (R120): its state, and a key set programmed and not yet in use. -/
structure IdeStr where
  st : Ide
  next : Bool
  deriving DecidableEq, Repr

/-- One head (R80 to R131). -/
structure Head where
  /-- HST_CFG, loaded from the image. -/
  ldCount : Nat
  mgmtLd : Nat
  biTimeout : Nat
  maxRate : Nat
  linkUp : Bool
  rate : Nat
  width : Nat
  flit256 : Bool
  /-- The CXL.cachemem stream and the CXL.io stream (R120). -/
  ideMem : IdeStr
  ideIo : IdeStr
  perst : Bool
  memActive : Nat
  replays : Nat
  peak : Nat
  biTimeouts : Nat
  viol : Viol
  /-- GPF phase 2 requests waiting, each with the requests received before it (R113). -/
  gpf : List (List Nat)
  /-- FM QoS control of the head's FM-owned LD (R521). -/
  qosControl : Word
  deriving DecidableEq, Repr

/-- An event record: a General Media record, a Dynamic Capacity record or a vendor record (R122, R123). -/
inductive EvRec where
  | media (dpa : Nat)
  | dirtyShutdown
  | capacity (add : Bool) (hall : Nat)
  | vendor (kind ini access hall dpa : Nat) (time : Word)
  deriving DecidableEq, Repr

/-- One event log: its records, oldest first, and its overflow count and times (R122). -/
structure EvQ where
  recs : List (Nat × EvRec)
  nextHandle : Nat
  overflow : Nat
  firstOverflow : Word
  lastOverflow : Word
  deriving DecidableEq, Repr

/-- One HDM decoder (R91). -/
structure Decoder where
  committed : Bool
  error : Bool
  ways : Nat
  base : Nat
  size : Nat
  deriving DecidableEq, Repr

/-- One logical device (R84 to R91, R122, R126). -/
structure Ld where
  biFenced : Bool
  shutdown : Nat
  dirtyCount : Nat
  decoders : List Decoder
  info : EvQ
  warning : EvQ
  failure : EvQ
  fatal : EvQ
  dcd : EvQ
  /-- A background mailbox command: its opcode (R127). -/
  background : Option Nat
  /-- FM QoS settings: allocated bandwidth and bandwidth limit in 256ths (R521). -/
  qosAlloc : Nat
  qosLimit : Nat
  /-- What is left of a Get Poison List query: its address, its length and the ranges returned (R117). -/
  poisonPos : Nat × Nat × Nat
  /-- MSI-X vectors that the host has masked, none at reset (PRESUMED, log entry 113), and those pending under their mask (R87, R340). -/
  msixMask : BitVec 32
  msixPend : BitVec 32
  deriving DecidableEq, Repr

/-! ## Halls, the directory and snoops -/

/-- One LD to which a hall is assigned, with its sharer slot (R95). `side` is true for an LD of this device. -/
structure Sharer where
  slot : Nat
  here : Bool
  ld : Nat
  deriving DecidableEq, Repr

/-- One entry of the hall map (R92 to R96, R209, R257). -/
structure Hall where
  mode : HallMode
  /-- This device is the hall's home. -/
  home : Bool
  gen : Nat
  cold : Bool
  sharers : List Sharer
  /-- The entry's sharer count, which a resync brings before the slots (R209, R229). -/
  count : Nat
  tag : Nat
  sanitize : Bool
  /-- A sanitize fill runs here: its pattern and the mailbox it reports to. -/
  fill : Option (Word × Nat)
  /-- Warm lines of a directory-cold hall beyond the sweep (R106), and the blocks of 4 lines the sweep has warmed, all below this
  number (R107). -/
  warm : List Nat
  swept : Nat
  deriving DecidableEq, Repr

/-- The state of a directory entry (R101). -/
inductive DirState where
  | shared | exclusive | busy
  deriving DecidableEq, Repr

/-- A holder of a line: an LD of this device or of the partner. -/
structure Holder where
  here : Bool
  ld : Nat
  deriving DecidableEq, Repr

/-- A directory entry (R101): its line number (HADDR / 64), state and holders. -/
structure DirEnt where
  line : Nat
  state : DirState
  holders : List Holder
  deriving DecidableEq, Repr

/-- The kinds of snoop the device issues (R82): of one line, and of blocks of two and of four (R180). -/
inductive SnpKind where
  | inv | data | invBlk2 | invBlk
  deriving DecidableEq, Repr

/-- A snoop waiting for its answer (R100 to R109). -/
structure Snoop where
  kind : SnpKind
  holder : Holder
  line : Nat
  /-- The request that waits, or 0 for the sweep, an eviction or a release. -/
  req : Nat
  /-- The partner asked for it with BI_FWD: link and SEQ of the request (R214). -/
  fwd : Option (Nat × Nat)
  /-- It has left; a head has at most 64 out, the partner 512 (R109, R185). -/
  sent : Bool
  /-- It is one of the sweep's (R107). -/
  sweep : Bool
  deriving DecidableEq, Repr

/-! ## Galleries (04_galleries_dram.md) -/

/-- One DRAM channel (GAL_DCH_TRAIN, GAL_DCH_ECC). -/
structure Dch where
  result : Nat
  failStep : Nat
  rate : Nat
  die : Nat
  stack : Nat
  ranks : Nat
  cap : Nat
  rdMargin : Nat
  wrMargin : Nat
  ce : Nat
  ue : Nat
  failed : List Nat
  lastRank : Nat
  lastSub : Nat
  lastDev : Nat
  /-- Corrections of each device position within 24 h (R140). -/
  devCe : Tbl (List Word)
  /-- Times of the uncorrectable lines of the last second (R141). -/
  ueTimes : List Word
  /-- The refresh rate is doubled within the M slots (R165). -/
  hot : Bool
  serial : Nat
  deriving DecidableEq, Repr

/-- A set of treads, all of them or those listed, with the exceptions. -/
structure TreadSet where
  /-- Every tread is in the set but for those in `xs`; otherwise exactly those in `xs` are. -/
  all : Bool
  xs : List Nat
  deriving DecidableEq, Repr

/-- A riser in the cleaner's in-flight tracker (R157): riser number, data copied, re-dirtied flag, slab. -/
structure InFlight where
  riser : Nat
  data : Riser
  redirty : Bool
  slab : Nat
  deriving DecidableEq, Repr

/-- One gallery (R132 to R165). -/
structure Gal where
  fenced : Bool
  fenceCause : Nat
  dchFenced : List Nat
  resetting : Bool
  /-- 0 SERVICE, 1 START, 2 SAVE, 3 none (GAL_STATUS.FRAME). -/
  frame : Nat
  doze : Bool
  dozeEntries : Nat
  /-- Dirty risers, by riser number HADDR / 256 (R156). -/
  dirty : List Nat
  /-- The mark cache: those of them whose marks the dirty table has not taken yet (R156). -/
  cache : List Nat
  inFlight : List InFlight
  /-- GAL_CLASS_BURSTS and GAL_CLASS_LENT of H, W, C and S (R146, R151). -/
  bursts : List Nat
  lent : List Nat
  dir : List DirEnt
  evictions : Nat
  scrubPasses : Nat
  scrubPos : Nat
  scrubTime : Word
  deriving DecidableEq, Repr
/-! ## Fehel (05_fehel_link.md) -/

/-- TWN_LINK_STATUS.STATE (R173). -/
inductive LinkSt where
  | disabled | pmdTrain | align | init | active | retrain | lost | fenced
  deriving DecidableEq, Repr

/-- ROLE_REQ subtypes (R183). -/
inductive Role where
  | hello (h : Hello)
  | hallAdd (hall : Nat) (shared : Bool) (ld side slot tag : Nat)
  | hallRelease (hall ld side : Nat)
  | homeXfer (hall gen side : Nat)
  | promoted
  | resyncBegin
  | diverged
  | ldFence (ld : Nat) (lift : Bool)
  | sanitizeMark (hall : Nat) (set : Bool)
  | galFence (gal : Nat) (fenced : Bool)
  | mapChunk (first : Nat) (ents : List MapEnt)
  | staleMap (chunk : Nat) (treads : List Nat)
  | staleMapEnd (count : Nat) (full : Bool)
  deriving DecidableEq, Repr

/-- A Fehel message (R180), with the fields of the table. HADDR is a byte address. -/
inductive Msg where
  | nop
  | heartbeat (state rxUp epoch count dbEff : Nat) (restoring : Bool)
  | ack (space : Space) (tag : Tag) (delayNs : Nat) (stall : Bool)
  | stale (space : Space) (homeHere : Bool) (hgen : Nat) (tag : Tag) (haddr ini : Nat)
  | depart (cause epoch : Nat)
  | pfault (epoch source kind : Nat)
  | mirWr64 (poison : Bool) (hgen : Nat) (tag : Tag) (haddr ini : Nat) (data : Line)
  | mirWr256 (poison : BitVec 4) (hgen : Nat) (tag : Tag) (haddr ini : Nat) (data : Riser)
  | jrnWr (fgen : Nat) (tag : Tag) (joff flight ini len : Nat) (data : Riser)
  | jrnEnd (fgen : Nat) (tag : Tag) (jlen flight segs : Nat)
  | jrnDone (fgen : Nat) (tag : Tag) (flight : Nat)
  | barrier (vc : Nat) (mask : BitVec 4) (epoch : Nat)
  | prxRd (snp : Snp) (mirror : Bool) (hgen : Nat) (tag : Tag) (haddr ini : Nat)
  | prxWr64 (poison : Bool) (hgen : Nat) (tag : Tag) (haddr ini : Nat) (data : Line)
  | prxWrPtl (poison : Bool) (hgen : Nat) (tag : Tag) (haddr ini : Nat) (mask : Mask) (data : Line)
  | prxCln (hgen : Nat) (tag : Tag) (haddr ini : Nat)
  | biFwd (snp : Nat) (hgen : Nat) (tag : Tag) (haddr ini : Nat)
  | role (tag : Tag) (r : Role)
  | prxRdData (status grant : Nat) (tag : Tag) (data : Line)
  | prxCmp (status : Nat) (tag : Tag)
  | biRsp (resp : Nat) (tag : Tag) (haddr : Nat) (data : Option Line) (poison : Bool)
  | roleRsp (sub status : Nat) (tag : Tag) (hello : Option Hello)
  | rsyData (poison : BitVec 4) (reconcile : Bool) (hgen : Nat) (tag : Tag) (haddr : Nat) (data : Riser)
  | rsyDone (reconcile : Bool) (tag : Tag) (treads : Nat)
  deriving DecidableEq, Repr

/-- A CTRL flit the device sends (R179). -/
inductive Ctrl where
  | idle (fack : Nat)
  | retryReq (fack expected : Nat)
  | init (f : InitFields)
  | initAck (f : InitFields)
  | retrainReq (fack : Nat)
  deriving DecidableEq, Repr

/-- What waits for the answer to a sent message: for the ACK of MIR and BLK, for the response of REQ. -/
inductive Cont where
  /-- Nothing waits. -/
  | none
  /-- A write of the request with this identifier: one of its mirror messages. -/
  | write (req : Nat)
  /-- A proxied access of the request with this identifier. -/
  | proxy (req : Nat)
  /-- Journal messages of the flight in this slot (R345). -/
  | journal (slot : Nat)
  /-- JRN_DONE of the flight in this slot. -/
  | retire (slot : Nat)
  /-- The last RSY_DATA of a tread (R229 step 5). -/
  | rsy (tread : Nat)
  /-- A snoop answered by the partner. -/
  | snoop (req : Nat) (ld line : Nat)
  /-- A hall operation that answers its requester when applied (R94). -/
  | hallOp (add : Bool) (ini hall ld : Nat)
  /-- A home transfer of this hall (R235) or of a fenced gallery's hall (R224). -/
  | xfer (hall : Nat)
  /-- A GAL_FENCE message (R161). -/
  | galFence (gal : Nat) (fenced : Bool)
  /-- A sanitize mark (R127): set before the fill, or cleared at its end. -/
  | sanitize (hall : Nat) (set : Bool)
  /-- A map chunk or a stale-map message of a resync (R229). -/
  | resync
  /-- HELLO (R217). -/
  | hello
  /-- A line pulled from the partner (R229 step 1, R281). -/
  | pull (line : Nat)
  /-- A line read from the mirror to correct it (R216). -/
  | correct (req : Nat)
  deriving DecidableEq, Repr

/-- A message sent and not yet acknowledged or answered (R194). On link 4, with a TAG of ORIG 4, it waits for a link to be steered. -/
structure Sent where
  space : Space
  tag : Tag
  link : Nat
  msg : Msg
  cont : Cont
  /-- Times refused with STALE in succession (R211). -/
  refused : Nat
  deriving DecidableEq, Repr

/-- A DATA flit held in the replay buffer (R197): its header fields and the message it carries. -/
structure TxFlit where
  fseq : Nat
  fack : Nat
  credits : List (Nat × Nat)
  msg : Msg
  deriving DecidableEq, Repr

/-- One lane's error window state (R202). -/
structure Lane where
  ser : Nat
  errs : Nat
  failed : Bool
  /-- Consecutive windows above LANE_SER_LIMIT. -/
  overRow : Nat
  deriving DecidableEq, Repr

/-- One twin link (R166 to R206). -/
structure TLink where
  enabled : Bool
  media : Nat
  state : LinkSt
  downCause : Nat
  peerTl : Nat
  peerSide : Nat
  txLanes : BitVec 4
  rxLanes : BitVec 4
  laneMap : Nat
  txWidth : Nat
  rxWidth : Nat
  time : Word
  cwCorrected : Nat
  cwUncorr : Nat
  lanes : List Lane
  replays : Nat
  retrains : Nat
  losses : Nat
  /-- Flit sequence numbers: next to send new, next expected (R197). -/
  nextSend : Nat
  nextExp : Nat
  replayBuf : List TxFlit
  /-- Messages waiting for credit or for room in the replay buffer, oldest first. -/
  txq : List Msg
  /-- Deficit round robin over MIR, REQ and BLK: the channel whose turn it is, and the slots each may still send (R186). -/
  drrTurn : Nat
  drrLeft : List Nat
  /-- Waiting for a replayed flit with the expected FSEQ (R197). -/
  awaiting : Bool
  retryReqs : Nat
  /-- Slots of a message that continue in the next DATA flit (R178). -/
  contSlots : Nat
  /-- Slots received of a message that the next DATA flit continues (R178). -/
  rxCont : List Slot
  /-- Credits held for MIR, REQ, RSP, BLK (R184). -/
  credit : List Nat
  /-- Slots of received messages to be returned as credits (R184). -/
  rxDue : List Nat
  /-- Slots sent and received on MIR, REQ, RSP, BLK (TWN_TX_SLOTS, TWN_RX_SLOTS). -/
  txSlots : List Nat
  rxSlots : List Nat
  hbTx : Nat
  hbRx : Nat
  hbTime : Word
  initSent : Bool
  initRcvd : Bool
  initAcked : Bool
  /-- The training in progress is a fast retrain (R174). -/
  fast : Bool
  /-- STALE received, and uncorrectable codewords, within the last second: time and number (R205). -/
  staleWin : List (Word × Nat)
  uncorrWin : List (Word × Nat)
  /-- A DEPART or PFAULT arrived on this link (R200). -/
  departed : Bool
  /-- Flits replayed within the last ms: time and number (R198). -/
  replayWin : List (Word × Nat)
  deriving DecidableEq, Repr

/-- A barrier under way at the receiver (R194): channel, epoch, links still to arrive, links behind it. -/
structure Barrier where
  vc : Nat
  epoch : Nat
  missing : List Nat
  arrived : List Nat
  deriving DecidableEq, Repr

/-- A received message that waits: its link, the tracker number that the next request was to get when it arrived, and whether it waits for room
below the ceiling (R78, R188, R194). -/
structure HeldMsg where
  link : Nat
  since : Nat
  stall : Bool
  msg : Msg
  deriving DecidableEq, Repr

/-- What the twin links share (R187 to R196). -/
structure Twin where
  links : Vector TLink 4
  side : Nat
  pairId : BitVec 32
  /-- Steered links in TL order and their widths (R191). -/
  steered : List Nat
  steerEpoch : Nat
  /-- Next SEQ to send and next SEQ expected, by 3 × origin + space. -/
  sendSeq : Tbl Nat
  expSeq : Tbl Nat
  sent : List Sent
  /-- PRX messages that wait while 1,024 are out (R185): their TAG is set when they leave. -/
  prxWait : List (Cont × Msg)
  /-- Responses given to REQ messages, for duplicates (R188), with the address that decides their link (R192). -/
  answered : List (Tag × Option Nat × Msg)
  barriers : List Barrier
  held : List HeldMsg
  wMir : Nat
  wReq : Nat
  wBlk : Nat
  serLimit : Nat
  /-- A DEPART or PFAULT has been received and the loss is not yet declared (R200). -/
  departing : Bool
  /-- The wait of R200 is over: the loss is declared once every message that arrived before is processed. -/
  departDue : Bool
  /-- The device has sent DEPART or PFAULT and holds its links up (R201). -/
  holding : Bool
  /-- The delay and the stall that the last ACK sent reported (R189). -/
  ackSaid : Nat × Bool
  /-- Acknowledgements of mirror streams held back, oldest first: link, TAG, and whether its write has a throttle delay of its own (R78). -/
  ackHeld : List (Nat × Tag × Bool)
  deriving DecidableEq, Repr

/-! ## Pair operation (06_pair_operation.md) -/

/-- What the device knows of its partner (R78, R161, R199, R218). -/
structure Partner where
  hello : Option Hello
  fenced : List Nat
  delayNs : Nat
  stall : Bool
  state : Nat
  dbEff : Nat
  restoring : Bool
  deriving DecidableEq, Repr

/-- The stage of a rejoin or of a reconciliation at this device. -/
inductive Rejoin where
  | none
  /-- Receiver: pulling its unsettled treads (R229 step 1). -/
  | pulling (treads : List Nat)
  /-- Receiver: RESYNC_BEGIN sent (R229 step 2). -/
  | begun
  /-- Receiver: in SERVICE.PAIRED, receiving RSY_DATA (R229 step 4). -/
  | receiving
  /-- Authoritative: sending the map, next hall to send (R229 step 3.1). -/
  | sendingMap (next : Nat) (begin : Tag) (link : Nat)
  /-- Authoritative: sending stale maps (R229 step 3.3). -/
  | sendingStale (begin : Tag) (link : Nat)
  /-- Authoritative: waiting for RESYNC_BEGIN. -/
  | awaiting
  /-- Authoritative: sending treads (R229 step 5). -/
  | sending
  /-- Both: reconciliation of the unsettled tail (R237). -/
  | reconcile (mine : List Nat) (doneSent doneRcvd : Bool)
  deriving DecidableEq, Repr

/-- The pair's state (R207 to R240). -/
structure Pair where
  paired : Bool
  homeReturn : Bool
  pairWait : Nat
  prefMap : Option (List Byte)
  prefCrc : BitVec 32
  epoch : Nat
  role : Nat
  outcome : Nat
  sepCause : Nat
  sepTime : Word
  yielding : Bool
  /-- A HELLO has been sent and not answered. -/
  helloSent : Bool
  /-- Pairing was refused under R219. -/
  refused : Bool
  partner : Option Partner
  rejoin : Rejoin
  full : Bool
  /-- Treads changed since separation (R227); none when no bitmap exists. -/
  changed : Option TreadSet
  /-- Stale treads at a rejoin receiver (R230). -/
  stale : TreadSet
  /-- Risers of stale treads already received, by riser number. -/
  staleGot : List Nat
  treadsDone : Nat
  /-- Treads whose RSY_DATA is sent and not covered by an ACK (R231). -/
  rsyOut : List Nat
  promHalls : Nat
  promCold : Nat
  promDur : Nat
  promCount : Nat
  promTime : Word
  /-- Home transfers in progress (R235), and those answered retry later. -/
  xfers : List Nat
  xferRetry : List Nat
  /-- The devices have diverged (R65). -/
  diverged : Bool
  /-- Adds and releases made in SERVICE.SOLO that resync carries (R228). -/
  soloOps : List Role
  deriving DecidableEq, Repr
/-! ## Save, landing and restore (07_save_restore.md) -/

/-- One segment of a flight: destination HADDR, length, fill or copy, and its data (R343, R344). -/
structure Seg where
  dst : Nat
  len : Nat
  fill : Bool
  data : List Byte
  deriving DecidableEq, Repr

/-- A committed flight as a landing record holds it (R256). -/
structure FlightRec where
  commitSeq : Nat
  origin : Nat
  slot : Nat
  ld : Nat
  ring : Nat
  segs : List Seg
  deriving DecidableEq, Repr

/-- A save: its record (R259) with the content of its streams (R254). -/
structure SaveRec where
  seq : Nat
  pred : Nat
  cause : Nat
  fromSt : Nat
  pairedSave : Bool
  unsettledOvf : Bool
  warm : Bool
  restoring : Bool
  asnCut : Nat
  tTrigger : Word
  tCutoff : Word
  tRecord : Word
  pairEpoch : Nat
  incomplete : List Nat
  dbEff : Nat
  halls : Nat
  dimmGib : Nat
  holdV : Nat
  data : List RiserCopy
  flights : List FlightRec
  map : List MapEnt
  unsettled : List Nat
  changed : Option TreadSet
  staleMap : Option TreadSet
  /-- The adds and releases that a resync carries (R228; log entry 116). -/
  soloOps : List Role
  units : List Nat
  /-- KIND and gallery of each unit, in the order of `units` (R253, R254). -/
  kinds : List (Nat × Nat)
  /-- The risers of each DATA unit, by its unit number (R254, R255). -/
  placed : List (Nat × List Nat)
  /-- Which of the two record copies are valid (R260). -/
  copyA : Bool
  copyB : Bool
  /-- The record-area blocks that hold the two copies (R252), by LUN × 65536 + block. -/
  blkA : Nat
  blkB : Nat
  deriving DecidableEq, Repr

/-- One landing unit still to be programmed (R248, R254): KIND, gallery, and the risers of a DATA unit. -/
structure SaveJob where
  kind : Nat
  gal : Nat
  risers : List Nat
  deriving DecidableEq, Repr

/-- The save in progress (R245 to R251). -/
structure SaveRun where
  saved : SaveRec
  jobs : List SaveJob
  /-- The cut-off has taken place. -/
  cut : Bool
  /-- PFAULT fields of an S2 save. -/
  source : Nat
  kind : Nat
  /-- The save ends in DOWN whatever its cause (R39, R246). -/
  downAfter : Bool
  ini : Nat
  deriving DecidableEq, Repr

/-- The warm token in the always-on domain (R276). -/
structure Token where
  seq : Nat
  nonce : Word
  crcs : List Word
  deriving DecidableEq, Repr

/-- The save and restore engines (R241 to R284). -/
structure Svr where
  /-- Records of the record area, newest first (R252, R260). -/
  saves : List SaveRec
  run : Option SaveRun
  token : Option Token
  /-- Galleries kept by the last warm start (SVR_WARM, R278). -/
  warmGals : List Nat
  failGals : List Nat
  tokenState : Nat
  savePhase : Nat
  restorePhase : Nat
  lastCause : Nat
  lastSeq : Nat
  lastTime : Word
  cutoffNs : Nat
  durationMs : Nat
  lastUnits : Nat
  lastIncomplete : List Nat
  /-- Save sequence numbers of live saves, predecessor first (R262). -/
  live : List Nat
  /-- Treads not yet restored (R271). -/
  unrestored : TreadSet
  /-- Demand fetches in progress, by tread (R272), and treads waiting for a free fetch. -/
  fetches : List Nat
  fetchWait : List Nat
  dfCount : Nat
  dfMax : Nat
  unrecovered : Nat
  toServiceMs : Nat
  startTime : Word
  /-- Treads known to be missing: they read as poison until written (R63). -/
  missing : List Nat
  /-- The erased reserve in landing units, whole stripes (R263, R293). -/
  reserve : Nat
  /-- The landing stripe that is being erased (R263, R293). -/
  landStripe : Option Nat
  nextUnit : Nat
  landSaves : Nat
  /-- Landing units that a restore found uncorrectable: the risers concerned (R281). -/
  lostRisers : List Nat
  /-- Treads whose lost risers the partner is asked for (R281). -/
  pulls : List Nat
  /-- Own unsettled list of the newest save (R236). -/
  unsettled : List Nat
  unsettledOvf : Bool
  /-- Dirty Shutdown reports owed at this start (R63). -/
  reportDue : List Nat
  /-- LDs whose Dirty Shutdown Count has advanced since this start began: it advances once for each (R63). -/
  reported : List Nat
  /-- Parts of saves that this start cannot use (R163, R281): SAVE_SEQ and gallery. -/
  skipParts : List (Nat × Nat)
  /-- The flights of the newest live save from this one on are not replayed in this start (R281). -/
  flightCut : Option Nat
  deriving DecidableEq, Repr

/-! ## Vault (08_vault.md) -/

/-- A log copy of a riser in the archive (R303, R305). -/
structure LogCopy where
  asn : Nat
  data : Riser
  poison : BitVec 4
  lun : Nat
  block : Nat
  deriving DecidableEq, Repr

/-- The base of a tread (R305). -/
structure Base where
  asn : Nat
  risers : List RiserCopy
  lun : Nat
  block : Nat
  deriving DecidableEq, Repr

/-- A log slab (R303). -/
structure Slab where
  id : Nat
  gal : Nat
  firstAsn : Nat
  risers : List RiserCopy
  deriving DecidableEq, Repr

/-- A program in progress on a LUN (R304, R310): a log wordline with its slabs in a block. -/
inductive LunOp where
  | wordline (block : Nat) (slabs : List Slab)
  deriving DecidableEq, Repr

/-- One LUN (R288, R290, R304, R310, R315, R316): its fence, its program, its spares and grown-bad blocks,
and its open log block with the wordlines written there. -/
structure Lun where
  fenced : Bool
  op : Option LunOp
  spares : Nat
  bad : Nat
  openBlock : Option Nat
  openWl : Nat
  deriving DecidableEq, Repr

/-- One block of the block table (R307, R312, R319). -/
structure Block where
  use : Nat
  pe : Nat
  esn : Nat
  bad : Bool
  /-- Marked for refresh (R300), or for levelling (R314). -/
  refresh : Bool
  level : Bool
  /-- Full and no longer programmed. -/
  closed : Bool
  headerOk : Bool
  /-- Time of its last program, and of its last erase (R317). -/
  time : Word
  erased : Word
  deriving DecidableEq, Repr

/-- One vault channel (R285, R288). -/
structure Vch where
  rate : Nat
  fenced : Bool
  ue : Nat
  progFail : Nat
  eraseFail : Nat
  stalls : Nat
  deriving DecidableEq, Repr

/-- One block of the record area (R252, R294): its LUN × 65536 + block, and the pages programmed since its erase. -/
structure RecBlk where
  key : Nat
  page : Nat
  deriving DecidableEq, Repr

/-- The vault (R285 to R323). -/
structure Vlt where
  /-- VLT_ARCHIVE.MOUNT and FAIL_CAUSE (R322). -/
  mount : Nat
  failCause : Nat
  targets : Nat
  lunsPer : Nat
  planes : Nat
  blocksPer : Nat
  wordlines : Nat
  lunGb : Nat
  /-- Parameter page: TLC endurance, SLC-mode program time in ns, TLC wordline time in µs. -/
  nPe : Nat
  tSlc : Nat
  tTlc : Nat
  vaultId : Word
  /-- The time of the first initialisation, when every block was erased (R317, R321). -/
  initTime : Word
  /-- Blocks with a factory mark, which are never used (R315). -/
  badFactory : List Nat
  /-- Number of blocks retired since (R315). -/
  badGrown : Nat
  chans : Vector Vch 16
  luns : Tbl Lun
  /-- The block table, by LUN × 65536 + block; an unlisted block is as its zone has it (R290). -/
  blocks : Tbl Block
  /-- The physical block in the role of another that failed (R315), the landing block table among them (R293). -/
  roles : Tbl Nat
  /-- The record area: copy A's two blocks, then copy B's, and which of its two each copy writes to (R252). -/
  recArea : List RecBlk
  recCurA : Bool
  recCurB : Bool
  /-- The log overlay by riser and the tread map by tread (R305). -/
  log : Tbl LogCopy
  bases : Tbl Base
  nextAsn : Nat
  nextSlab : Nat
  nextLun : Nat
  /-- The open slab of each gallery, and closed slabs waiting for a wordline (R304). -/
  openSlab : Tbl Slab
  closed : List Slab
  /-- Bytes appended, and written by compaction, with their times, within the last second. -/
  appends : List (Word × Nat)
  compacts : List (Word × Nat)
  /-- Bytes appended since the last checkpoint, its sequence number and time (R307). -/
  ckptBytes : Nat
  ckptSeq : Nat
  ckptTime : Word
  /-- Slabs of each gallery since its last summary (R307). -/
  summaries : Tbl Nat
  /-- The allowance window: bytes of each of the 96 buckets, newest first (R313). -/
  buckets : List Nat
  esn : Nat
  /-- Blocks of the outstanding erase batch, and blocks waiting for one (R318). -/
  batch : List Nat
  eraseQ : List Nat
  redone : Nat
  soft : Nat
  retried : Nat
  /-- Image parameters (R79, R298, R300, R305, R312); FCOMP in hundredths, LOG_MAX in GiB. -/
  tLife : Nat
  fComp : Nat
  tlcPe : Nat
  slcPe : Nat
  retrySteps : Nat
  refreshSteps : Nat
  patrolDays : Nat
  logMax : Nat
  deriving DecidableEq, Repr

/-! ## Work rings and flights (09_rings_flights.md) -/

/-- RNG_STATUS.STATE (R329). -/
inductive RingSt where
  | disabled | running | draining | error | stopped
  deriving DecidableEq, Repr

/-- What a started descriptor is doing. -/
inductive DescSt where
  /-- Waiting for its writes: how many are not durable. -/
  | writing
  /-- Waiting in the flight slot named. -/
  | flight (slot : Nat)
  /-- A persist barrier waiting (R337): the requests and descriptors it waits for. -/
  | barrier (reqs descs : List Nat)
  /-- Finished, with its entry still to be written. -/
  | finished
  deriving DecidableEq, Repr

/-- A descriptor in progress (R336, R338). -/
structure Desc where
  id : Nat
  index : Nat
  opcode : Nat
  irq : Bool
  tag : Nat
  status : Nat
  poisonCopied : Bool
  result : Word
  st : DescSt
  /-- Halls its ranges address (R341). -/
  halls : List Nat
  deriving DecidableEq, Repr

/-- One work ring (R324 to R341). -/
structure Ring where
  owner : Option Nat
  sqBase : Word
  cqBase : Word
  logSize : Nat
  vector : Nat
  intCount : Nat
  intDelay : Nat
  st : RingSt
  code : Nat
  sqHead : Nat
  sqTail : Nat
  cqHead : Nat
  cqTail : Nat
  phase : Bool
  descs : List Desc
  completed : Nat
  errors : Nat
  signalled : Nat
  /-- INT_DELAY_US runs since the first signalling entry (R340). -/
  delayRun : Bool
  /-- RNG_CTRL.ENABLE. -/
  enable : Bool
  /-- Lines read for the next descriptor: line number, data, poison. -/
  got : List (Nat × Line × Bool)
  /-- Doorbells whose descriptors have not all started: the tail, and the owner's writes pending then (R337). -/
  doorbells : List (Nat × List Nat)
  /-- Halls released while descriptors were available, and how many of those have not started (R341). -/
  released : List (Nat × Nat)
  deriving DecidableEq, Repr

/-- The phase of a flight (R345). -/
inductive FlightSt where
  /-- The partner's journal arrives; an own flight waits for an overlapping one before it is journalled (R345 step 1). -/
  | journal
  /-- JRN_END is sent and not acknowledged. -/
  | sentEnd
  /-- Ready to commit, waiting for an overlapping flight to retire (R347). -/
  | acked
  | committed
  /-- JRN_DONE is sent and not acknowledged. -/
  | retiring
  deriving DecidableEq, Repr

/-- A flight in a slot (R343 to R349): own flights and those of the partner. -/
structure Flight where
  own : Bool
  slot : Nat
  fgen : Nat
  ring : Nat
  desc : Nat
  ld : Nat
  st : FlightSt
  commitSeq : Nat
  segs : List Seg
  /-- Journal bytes received from the partner, before JRN_END. -/
  journal : List Byte
  deriving DecidableEq, Repr

/-! ## Requests in the tracker -/

/-- Who made a request: a host LD, the partner by proxy path, or an engine of the device. -/
inductive Source where
  | host (head ld tag : Nat)
  /-- With `mirror` the partner asks for this device's own copy (R216). -/
  | proxy (link : Nat) (tag : Tag) (ini : Nat) (mirror : Bool)
  | ring (ring desc : Nat)
  | flight (own : Bool) (slot : Nat)
  /-- A completion entry: whether it signals, and at once (R340). -/
  | entry (ring : Nat) (sig now : Bool)
  | sanitize (hall : Nat)
  /-- Patrol scrub of a gallery (R142). -/
  | scrub (gal : Nat)
  | mailbox (head ld op : Nat)
  /-- The writes of a Set LSA (R88). -/
  | lsa (head ld : Nat)
  /-- Dirty data that a snooped holder returned: a write from the holder (R100). -/
  | writeback (here : Bool) (ld : Nat)
  deriving DecidableEq, Repr

/-- What a request asks for. -/
inductive ReqOp where
  | read (snp : Snp)
  | write
  | wrPtl (mask : Mask)
  | cleanEvict
  deriving DecidableEq, Repr

/-- Why a request waits. -/
inductive Wait where
  /-- Ready to be tried. -/
  | ready
  /-- The tread is being fetched (R47, R271). -/
  | fetch (tread : Nat)
  /-- Snoops are out for it (R100, R106). -/
  | snoop
  /-- An earlier write to the line is not durable, or an earlier request to it waits (R55, R99). -/
  | line
  /-- A committed flight holds the line (R347). -/
  | flight
  /-- The dirty set is at the ceiling (R77). -/
  | stall
  /-- The home moves, or a promotion runs (R223, R235). -/
  | xfer
  /-- RSY_DATA of the tread is not acknowledged (R231). -/
  | rsy
  /-- It has gone to the partner and waits for the answer (R212, R216). -/
  | partner
  /-- It is placed and waits for the mirror ACK (R45). -/
  | ack
  /-- Its completion waits for the throttle delay (R76). -/
  | throttle
  deriving DecidableEq, Repr

/-- One request in the tracker (R109). -/
structure Req where
  id : Nat
  src : Source
  ini : Nat
  op : ReqOp
  dpa : Nat
  haddr : Nat
  data : Line
  poison : Bool
  wait : Wait
  /-- The write has been placed in the coalescing buffer. -/
  placed : Bool
  /-- The line was warmed for this request (R106). -/
  warmed : Bool
  /-- The partner refused or cannot supply a correction (R116). -/
  tried : Bool
  /-- The write dirtied a clean riser while a throttle delay was in force (R76). -/
  delay : Bool
  /-- How the line it reads decodes (R138). -/
  ecc : EccRes
  /-- Times refused with STALE in succession (R211). -/
  refused : Nat
  deriving DecidableEq, Repr

/-- How far a release of a hall has come (R96). -/
inductive RelPhase where
  | waiting | snooping | partner
  deriving DecidableEq, Repr

/-- A release in progress (R96): who asked for it, by command or by the partner's HALL_RELEASE. -/
structure Release where
  hall : Nat
  here : Bool
  ld : Nat
  phase : RelPhase
  reply : Option Nat
  rsp : Option (Nat × Tag)
  deriving DecidableEq, Repr

/-- A tenancy operation (R92 to R96, R522): an add or a release of a hall for an LD of this device or of the partner. -/
structure TenOp where
  add : Bool
  ini : Nat
  here : Bool
  ld : Nat
  hall : Nat
  shared : Bool
  tag : Nat
  deriving DecidableEq, Repr

/-! ## What leaves the device -/

/-- MetaField of read data (R82): the device stores no host metadata. -/
inductive MetaField where
  | noOp
  deriving DecidableEq, Repr

/-- Something the device sends or drives (log entry 7). -/
inductive Out where
  /-- Read data with its MetaField and DevLoad (R82, R110). -/
  | cxlData (head ld tag : Nat) (data : Line) (poison : Bool) (metaField : MetaField) (devLoad : BitVec 2)
  | cxlCmp (head ld tag : Nat) (devLoad : BitVec 2)
  /-- The device's answer to a BIConflict (R100). -/
  | biConflictAck (head ld line : Nat)
  | snoop (head ld : Nat) (kind : SnpKind) (line : Nat)
  | gpf (head : Nat)
  | msix (ld vector : Nat)
  | mbox (ini opcode code : Nat) (payload : List Byte)
  | fmApi (opcode code : Nat) (payload : List Byte)
  /-- An SPDM measurement of a head: its index and value (R491). -/
  | spdm (head index : Nat) (payload : List Byte)
  | mctp (payload : List Byte)
  | i3cIbi
  | cxlIoUr (ini off : Nat)
  | cxlIoData (ini off : Nat) (data : Word)
  /-- A DATA flit: FSEQ, FACK, REPLAY, its credit returns and the message in it (R176). -/
  | fehel (link fseq fack : Nat) (again : Bool) (credits : List (Nat × Nat)) (m : Msg)
  | ctrl (link : Nat) (c : Ctrl)
  | link (k : Nat) (idle : Bool)
  | headLink (n : Nat) (up : Bool)
  | rail (mask : BitVec 16)
  | pmbus (addr cmd len : Nat) (data : BitVec 16)
  | pin (name : String) (level : Bool)
  deriving DecidableEq, Repr

/-! ## The whole machine -/

/-- Parameters of the image in force that no other part of the state holds (R480, R538). -/
structure Img where
  dozeIdle : Nat
  bootStable : Nat
  bootLimit : Nat
  startMax : Nat
  xspiMhz : Nat
  marginPeriod : Nat
  dramRate : Nat
  ceLimit : Nat
  scrubPeriod : Nat
  vaultRate : Nat
  vaultAdopt : Bool
  tlcTprog : Nat
  trimInit : Int
  /-- The SERVICE, START and SAVE frames, 256 slots of 4 bits each (R147). -/
  frames : List (List Nat)
  /-- RETRY section: level offset sets (R298, R479). -/
  retryTable : List (BitVec 32)
  /-- The entries of the PARAM section in force: ID, INDEX, VALUE (R480). -/
  params : List (Nat × Nat × Nat)
  deriving DecidableEq, Repr

/-- Hall capacity and DIMMs found at the last start (R17 to R19). -/
structure Dimm where
  capGib : Nat
  rb : Nat
  perGal : Nat
  rate : Nat
  deriving DecidableEq, Repr

/-- Everything but memory contents. -/
structure Ctl where
  glb : Glb
  img : Img
  dimm : Dimm
  fcu : Fcu
  rtc : Rtc
  alc : Alc
  clk : Clk
  rst : Rst
  boot : Boot
  seq : Seq
  pwrImg : PwrImg
  pf : Pf
  hold : Hold
  sns : Vector Sns 17
  budget : Budget
  mgmt : Mgmt
  heads : Vector Head 16
  lds : Vector Ld 64
  halls : Tbl Hall
  snoops : List Snoop
  releases : List Release
  /-- Tenancy operations waiting for their turn (R522). -/
  tenants : List TenOp
  gals : Vector Gal 8
  dchs : Vector Dch 32
  reqs : List Req
  nextReq : Nat
  twin : Twin
  pair : Pair
  svr : Svr
  vlt : Vlt
  rings : Tbl Ring
  flights : List Flight
  /-- FGEN of each own flight slot, and the commit sequence (R345, R346). -/
  fgen : Tbl Nat
  commitSeq : Nat
  flightCount : Tbl Nat
  flightAbandoned : Tbl Nat
  partnerApplied : Tbl Nat
  /-- The time since which the device has more than 4,096 ranges to list (R117). -/
  poisonOver : Option Word
  /-- A junction reading has started throttling (R534). -/
  throttling : Bool
  /-- What left the device, newest first: the model's own (log entry 7). -/
  out : List Out
  /-- Counter of free values used: the model's own (log entry 8). -/
  free : Nat
  deriving DecidableEq, Repr

/-- Memory contents: cells in canonical form (R5, R88, R270, R470). -/
structure Store where
  /-- Host data by HADDR and, above the halls, the galleries' metadata regions with the Label Storage Areas (R88, log entry 31); an unlisted byte
  reads 0 (R270). -/
  dram : List Host.Cell
  /-- Poisoned lines, by HADDR / 64, rising (R115). -/
  poison : List Nat
  /-- Configuration flash; an unlisted byte reads 0xFF (log entry 5). -/
  flash : List Host.Cell
  deriving DecidableEq, Repr

/-- The device. -/
structure Dev where
  ctl : Ctl
  mem : Store
  deriving DecidableEq, Repr

/-- The block: its waiting commands, first in first out, and the device. -/
structure State where
  pending : List Instr
  dev : Dev
  deriving DecidableEq, Repr

/-- Why the machine stops with a fault. -/
inductive Fault where
  /-- Raised by no meaning: every event of the spec is a next state. Safe. -/
  | never
  deriving DecidableEq, Repr

/-- Why a command is refused. -/
inductive Refusal where
  /-- Raised by a refused arm of exec alone, for a command with no meaning yet. Safe: the machine stops. -/
  | notModelled (mnemonic : String)
  deriving DecidableEq, Repr

/-! ## Reset values

Each value is the Reset column of the register's field table unless the log entry named says otherwise. -/

def Glb.reset : Glb :=
  { mode := .off, restoring := false, fatal := false, promoting := false, ltFrom := 0, ltTo := 0, ltCode := 0,
    ltCount := 0, ltTime := 0, inputGood100 := false, minOff := false, resetHeld := none, lossDue := false }

def Fcu.reset : Fcu :=
  { src := [], cls := [], unit := [], waiting := [], log := [], next := 0, entries := 0, unlogged := 0,
    frozen := false, freezeTime := 0, captured := none, captureMore := false, captureMin := 1, rejected := 0,
    logCe := false, self := false, selfCause := 0, armed := false, windows := [], alcDue := [] }

def Viol.reset : Viol := { violations := 0, ignored := 0, next := 0, log := [] }

def Rtc.reset : Rtc :=
  { seconds := 0, frac := 0, edge := 0, halt := false, halted := false, adjusted := false, oscStopped := true,
    heldSec := none, heldFrac := none, wrote := false, alarm := 0, armed := false, wake := false, fired := false,
    firedByAdjust := false, causeAlarm := false, causeRestore := false, ignored := 0, steals := 0,
    vbatLow := false, freezes := [], trim := 0, trimNow := 0, trimSrc := 0, firstService := true, measCount := 0,
    measRes := .none, measTrim := 0, measTime := 0, refLost := false, timeRef := 0, periodH := 0x18, windowS := 0 }

def Journal.reset : Journal := { blank := true, state := 0, whole := false, commitSeq := 0, extents := [] }

def Alc.reset : Alc :=
  { ready := false, busy := false, faulted := false, recs := [], rings := [], ringQ := [], buf := [], urgent := [],
    journal := Journal.reset, commits := 0, lastRecovery := 0, bp := 0, locked := false, winPage := 0,
    winWord := 0, winLoaded := false, loading := false, pageBuf := [], recoveries := 0, marginWords := 0,
    refused := 0, ce := 0, marginTime := 0, marginRun := false, marginPage := 0, marginHits := 0, wear := [], cells := [], lost := [] }

def ClkDom.reset : ClkDom := { ppm := 0, stops := 0, offFreq := false }

def Clk.reset : Clk :=
  { aonCal := false, holdover := false, ref100 := false, ref100Settled := false, ref156 := false, xspiOn := false, overrun := 0,
    overrunLast := 0, drop := 0, dropLast := 0, timeout := 0, timeoutIni := 0, timeoutAddr := 0, doms := [] }

def Rst.reset : Rst := { warmResets := 0, coldStarts := 0, lastKind := 0, time := 0 }

def SlotSt.reset : SlotSt :=
  { result := 0, keySlot := 0, sections := 0, lenKib := 0, version := 0, rejected := false, rejectVersion := 0 }

def Boot.reset : Boot :=
  { locked := false, cause := 0, page0 := .blank, stage := .idle, phase := .none, runSlot := 0, lastSlot := 0,
    failedSlot := 0, failedVersion := 0, fallback := false, lastFailed := false, slotA := SlotSt.reset,
    slotB := SlotSt.reset, vaonMv := 0, xEntry := 0xFF, xDummy := 8, xDdr := false, xMhz := 0x19, flashAddr := 0,
    flashOp := none, flashOps := 0, flashResult := 0, failTime := 0, buf := [], verifying := none, warm := false,
    pairWaitOver := false, fbProg := none, cause0 := 0 }

def Rail.reset : Rail :=
  { en := false, running := false, armed := false, fail := false, stuck := false, driven := false, lost := false }

def Seq.reset : Seq :=
  { prog := none, source := 0, running := .none, pc := 0, wait := .none, mark := 0, user := 0, upRuns := 0,
    wdog := false, evTimeout := false, pmbusFail := false, warm := false, offPending := false,
    rails := Vector.replicate 16 Rail.reset, downCode := 0, downIni := 0xFF, tripCode := 0, tripProg := 0,
    tripPc := 0, tripRail := 0, tripCause := 0, tripTime := 0, tripN := true, alerts := 0, pecErr := 0, nack := 0,
    lastAddr := 0 }

def PwrImg.reset : PwrImg :=
  { pfTrip := 0x320, pfHyst := 0x28, pfFilter := 4, pfNEn := true, minOff := 0x1F4, wdog := 0x2710,
    pmbRate := 400, pmbPec := true, vmin := 0, iTest := 0, droop := 0, periodH := 0x18, scale := 0,
    chargeWait := 0x1E }

def Pf.reset : Pf :=
  { senseLow := false, filtering := false, senseArmed := true, pfN := false, pfNArmed := true, inputGood := false, senseGood := false, lastGlitch := none,
    triggers := 0, glitches := 0, lastSource := 0, time := 0 }

def Hold.reset : Hold :=
  { inForce := none, result := 0, phase := .idle, deferred := false, byCommand := false, v0 := 0, v1 := 0, v2 := 0,
    dt := 0, loadEn := false, vBank := 0, vStart := 0, eUsable := 0, dbHold := 0, settled := false }

def Sns.reset : Sns := { code := 0, hist := [], min := 0xFFF, max := 0 }

def Budget.reset : Budget :=
  { dbCfg := 0, eFixed := 0, pSave := 0, rSave := 0, throttleMax := 0, soloFactor := 0, ramp := none,
    wearPaced := false }

def Mgmt.reset : Mgmt :=
  { dropped := 0, eid := 0, dynAddr := 0, held := 0, viol := Viol.reset, background := none, respLimit := 12 }

def IdeStr.reset : IdeStr := { st := .none, next := false }

def Head.reset : Head :=
  { ldCount := 1, mgmtLd := 0, biTimeout := 0x7D0, maxRate := 4, linkUp := false, rate := 0, width := 0,
    flit256 := false, ideMem := IdeStr.reset, ideIo := IdeStr.reset, perst := false, memActive := 0, replays := 0, peak := 0, biTimeouts := 0,
    viol := Viol.reset, gpf := [], qosControl := 0 }

def EvQ.reset : EvQ := { recs := [], nextHandle := 1, overflow := 0, firstOverflow := 0, lastOverflow := 0 }

def Decoder.reset : Decoder := { committed := false, error := false, ways := 1, base := 0, size := 0 }

def Ld.reset : Ld :=
  { biFenced := false, shutdown := 0, dirtyCount := 0, decoders := [Decoder.reset, Decoder.reset],
    info := EvQ.reset, warning := EvQ.reset, failure := EvQ.reset, fatal := EvQ.reset, dcd := EvQ.reset,
    background := none, qosAlloc := 0, qosLimit := 0, poisonPos := (0, 0, 0), msixMask := 0, msixPend := 0 }

def TreadSet.empty : TreadSet := { all := false, xs := [] }
def TreadSet.full : TreadSet := { all := true, xs := [] }

def Dch.reset : Dch :=
  { result := 0, failStep := 0, rate := 0, die := 0, stack := 0, ranks := 0, cap := 0, rdMargin := 0,
    wrMargin := 0, ce := 0, ue := 0, failed := [], lastRank := 0, lastSub := 0, lastDev := 0, devCe := [],
    ueTimes := [], hot := false, serial := 0 }

def Gal.reset : Gal :=
  { fenced := false, fenceCause := 0, dchFenced := [], resetting := false, frame := 3, doze := false,
    dozeEntries := 0, dirty := [], cache := [], inFlight := [], bursts := [0, 0, 0, 0], lent := [0, 0, 0, 0], dir := [], evictions := 0,
    scrubPasses := 0, scrubPos := 0, scrubTime := 0 }

def Lane.reset : Lane := { ser := 0, errs := 0, failed := false, overRow := 0 }

def TLink.reset : TLink :=
  { enabled := false, media := 0, state := .disabled, downCause := 0, peerTl := 0, peerSide := 0, txLanes := 0,
    rxLanes := 0, laneMap := 0, txWidth := 0, rxWidth := 0, time := 0, cwCorrected := 0, cwUncorr := 0,
    lanes := [Lane.reset, Lane.reset, Lane.reset, Lane.reset], replays := 0, retrains := 0, losses := 0,
    nextSend := 0, nextExp := 0, replayBuf := [], txq := [], drrTurn := 0, drrLeft := [0, 0, 0], awaiting := false, retryReqs := 0, contSlots := 0, rxCont := [],
    credit := [0, 0, 0, 0], rxDue := [0, 0, 0, 0], txSlots := [0, 0, 0, 0], rxSlots := [0, 0, 0, 0], hbTx := 0,
    hbRx := 0, hbTime := 0, initSent := false, initRcvd := false, initAcked := false, fast := false,
    staleWin := [], uncorrWin := [], departed := false, replayWin := [] }

def Twin.reset : Twin :=
  { links := Vector.replicate 4 TLink.reset, side := 0, pairId := 0, steered := [], steerEpoch := 0, sendSeq := [],
    expSeq := [], sent := [], prxWait := [], answered := [], barriers := [], held := [], wMir := 0, wReq := 0, wBlk := 0,
    serLimit := 0, departing := false, departDue := false, holding := false, ackSaid := (0, false), ackHeld := [] }

def Pair.reset : Pair :=
  { paired := false, homeReturn := false, pairWait := 0, prefMap := none, prefCrc := 0, epoch := 0, role := 0,
    outcome := 0, sepCause := 0, sepTime := 0, yielding := false, helloSent := false, refused := false,
    partner := none, rejoin := .none, full := false, changed := none, stale := TreadSet.empty, staleGot := [],
    treadsDone := 0, rsyOut := [], promHalls := 0, promCold := 0, promDur := 0, promCount := 0, promTime := 0,
    xfers := [], xferRetry := [], diverged := false, soloOps := [] }

def Svr.reset : Svr :=
  { saves := [], run := none, token := none, warmGals := [], failGals := [], tokenState := 0, savePhase := 0,
    restorePhase := 0, lastCause := 0, lastSeq := 0, lastTime := 0, cutoffNs := 0, durationMs := 0, lastUnits := 0,
    lastIncomplete := [], live := [], unrestored := TreadSet.empty, fetches := [], fetchWait := [], dfCount := 0,
    dfMax := 0, unrecovered := 0, toServiceMs := 0, startTime := 0, missing := [], reserve := 0, landStripe := none, nextUnit := 0,
    landSaves := 0, lostRisers := [], pulls := [], unsettled := [], unsettledOvf := false, reportDue := [], reported := [], skipParts := [], flightCut := none }

def Ring.reset : Ring :=
  { owner := none, sqBase := 0, cqBase := 0, logSize := 6, vector := 2, intCount := 0, intDelay := 0, st := .disabled, code := 0,
    sqHead := 0, sqTail := 0, cqHead := 0, cqTail := 0, phase := true, descs := [], completed := 0, errors := 0, signalled := 0,
    delayRun := false, enable := false, got := [], doorbells := [], released := [] }

def Vch.reset : Vch := { rate := 0, fenced := false, ue := 0, progFail := 0, eraseFail := 0, stalls := 0 }

def Lun.reset : Lun := { fenced := false, op := none, spares := 0, bad := 0, openBlock := none, openWl := 0 }

def Vlt.reset : Vlt :=
  { mount := 0, failCause := 0, targets := 0, lunsPer := 0, planes := 0, blocksPer := 0, wordlines := 0,
    lunGb := 0, nPe := 0, tSlc := 0, tTlc := 0, initTime := 0, vaultId := 0, badFactory := [], badGrown := 0, chans := Vector.replicate 16 Vch.reset,
    luns := [], blocks := [], roles := [], recArea := [], recCurA := false, recCurB := false, log := [], bases := [], nextAsn := 0, nextSlab := 0, nextLun := 0, openSlab := [], closed := [],
    appends := [], compacts := [], ckptBytes := 0, ckptSeq := 0, ckptTime := 0, summaries := [], buckets := List.replicate 96 0, esn := 0,
    batch := [], eraseQ := [], redone := 0, soft := 0, retried := 0, tLife := 0, fComp := 0, tlcPe := 0, slcPe := 0, retrySteps := 0,
    refreshSteps := 0, patrolDays := 0, logMax := 0 }

/-- Before an image is loaded the model holds the parameters at their defaults (R480, R538). -/
def Img.reset : Img :=
  { dozeIdle := 100, bootStable := 10, bootLimit := 3, startMax := 300, xspiMhz := 200, marginPeriod := 24,
    dramRate := 6400, ceLimit := 64, scrubPeriod := 0, vaultRate := 3600, vaultAdopt := false, tlcTprog := 0,
    trimInit := 0, frames := [], retryTable := [], params := [] }

def Dimm.reset : Dimm := { capGib := 0, rb := 0, perGal := 0, rate := 0 }

def Ctl.reset : Ctl :=
  { glb := Glb.reset, img := Img.reset, dimm := Dimm.reset, fcu := Fcu.reset, rtc := Rtc.reset, alc := Alc.reset,
    clk := Clk.reset, rst := Rst.reset, boot := Boot.reset, seq := Seq.reset, pwrImg := PwrImg.reset,
    pf := Pf.reset, hold := Hold.reset, sns := Vector.replicate 17 Sns.reset, budget := Budget.reset,
    mgmt := Mgmt.reset, heads := Vector.replicate 16 Head.reset, lds := Vector.replicate 64 Ld.reset, halls := [],
    snoops := [], releases := [], tenants := [], gals := Vector.replicate 8 Gal.reset,
    dchs := Vector.replicate 32 Dch.reset, reqs := [], nextReq := 1, twin := Twin.reset,
    pair := Pair.reset, svr := Svr.reset, vlt := Vlt.reset, rings := [], flights := [], fgen := [], commitSeq := 0,
    flightCount := [], flightAbandoned := [], partnerApplied := [], poisonOver := none, throttling := false, out := [], free := 0 }

def Store.reset : Store := { dram := [], poison := [], flash := [] }

/-- The block right after a backup-domain power-on reset with the always-on supply absent: OFF (R26, R439; log
entries 1 to 8). -/
def State.reset : State := { pending := [], dev := { ctl := Ctl.reset, mem := Store.reset } }

end Sys2Proof.Machine
end

