-- ==== Sys2Proof/Machine/Flags.lean ====
section
/-! DEFINITION. Machine/Flags.lean: the fault sources with their classes and units, and the codes that status fields report. -/
namespace Sys2Proof.Machine

/-- STATE of R31. OFF is 0x7. -/
def modeCode : Mode → Nat
  | .standby => 0 | .start => 1 | .save => 2 | .hold => 3 | .vestibule => 4 | .off => 7 | .paired => 8 | .solo => 9

/-- SERVICE.PAIRED or SERVICE.SOLO. -/
def Mode.service : Mode → Bool
  | .paired | .solo => true
  | _ => false

def FClass.code : FClass → Nat
  | .s0 => 0 | .s1 => 1 | .s2 => 2 | .s3 => 3

def classOfCode : Nat → FClass
  | 0 => .s0 | 1 => .s1 | 2 => .s2 | _ => .s3

/-! Source IDs (R128, R165, R205, R323, R387 to R390). -/

def srcHead (h k : Nat) : Nat := 16 * h + k
def srcGal (g k : Nat) : Nat := 0x100 + 32 * g + k
/-- A source of channel `ch` (0 to 31) with number `i` within the channel (R165). -/
def srcDch (ch i : Nat) : Nat := srcGal (ch / 4) (6 * (ch % 4) + i)
def srcLink (k i : Nat) : Nat := 0x200 + 16 * k + i
def srcVch (c i : Nat) : Nat := 0x240 + 8 * c + i
/-- Pair sources: 0 PARTNER_LOST, 1 PAIR_DIVERGED, 2 PAIR_MISMATCH, 3 TWIN_REFCLK (R205). -/
def srcPair : Nat → Nat
  | 0 => 0x20E | 1 => 0x20F | 2 => 0x21E | _ => 0x21F

/-- The default class of a source (R128, R165, R205, R323, R387 to R390). -/
def defaultClass (s : Nat) : FClass :=
  if s < 0x100 then if (s % 16 == 3 || s % 16 == 5 || s % 16 == 12 || s % 16 == 13 || s % 16 == 15) then .s1 else .s0
  else if s < 0x200 then
    let k := (s - 0x100) % 32
    if k < 24 then if (k % 6 == 0 || k % 6 == 4 || k % 6 == 5) then .s1 else .s0
    else if (k == 28 || k == 29 || k == 30) then .s1 else .s0
  else if s < 0x240 then
    let i := s % 16
    if (i == 3 || i == 7 || i == 8 || i == 9) then .s1 else .s0
  else if s < 0x2C0 then if (s % 8 == 4 || s % 8 == 5) then .s1 else .s0
  else if [0x2C0, 0x2C1, 0x2D7, 0x2DC, 0x2FB].contains s then .s3
  else if [0x2C2, 0x2C9, 0x2CA, 0x2CD, 0x2D1, 0x2D6, 0x2D8, 0x2DA, 0x2DB, 0x2DF, 0x2E2, 0x2E8, 0x2EC, 0x2FC].contains s then .s2
  else .s0

/-- The sources whose class the image cannot change (R387, R390). -/
def fixedClass (s : Nat) : Bool := [0x2C0, 0x2C1, 0x2D7, 0x2DC, 0x2DF, 0x2FB].contains s

/-- A source ID that a list assigns; any other is reserved and never raised (R386). -/
def srcDefined (s : Nat) : Bool :=
  if s < 0x200 then true
  else if s < 0x240 then (s % 16 ≤ 12 || [0x20E, 0x20F, 0x21E, 0x21F].contains s)
  else if s < 0x2C0 then (s % 8 ≤ 6 || (s < 0x27F && s % 8 == 7))
  else if s < 0x2E0 then true
  else if s < 0x2F0 then s ≤ 0x2EC
  else if s < 0x2F8 then s ≤ 0x2F6
  else s ≤ 0x2FD

/-- The LUN index that a VADDR names (R289, R297), with `t` targets per channel. -/
def lunOfVaddr (t addr : Nat) : Nat :=
  (addr / 2 ^ 36) % 16 + 16 * ((addr / 2 ^ 34) % 4 + t * ((addr / 2 ^ 31) % 8))

/-- The VADDR bits 39:0 of a block on LUN index `i` (R289, R297). -/
def vaddrOf (t i block : Nat) : Nat :=
  (i % 16) * 2 ^ 36 + ((i / 16) % t) * 2 ^ 34 + ((i / 16) / t) * 2 ^ 31 + block * 2 ^ 15

/-- The unit of a source (R395). A vault source other than CHANNEL_FAULT belongs to the LUN its ADDRESS names; with
ADDRESS 0 it names none and belongs to its channel. -/
def unitOf (t s addr : Nat) : Nat :=
  if s < 0x100 then s / 16
  else if s < 0x200 then if (s - 0x100) % 32 == 30 then 0x18 + (s - 0x100) / 32 else 0x10 + (s - 0x100) / 32
  else if s < 0x240 then if s % 16 ≥ 14 then 0x24 else 0x20 + (s - 0x200) / 16
  else if s < 0x2C0 then
    if s % 8 == 7 then 0x25
    else if s % 8 == 5 || addr == 0 then 0x28 + (s - 0x240) / 8
    else 0x40 + lunOfVaddr t addr
  else 0x25

/-- Units that can be fenced (R395, R400). -/
def fenceable (u : Nat) : Bool := u < 0x24 || (0x28 ≤ u && u < 0x38) || (0x40 ≤ u && u < 0x240)

/-- Unit numbers that R395 lists. -/
def unitDefined (u : Nat) : Bool := u ≤ 0x25 || (0x28 ≤ u && u < 0x38) || (0x40 ≤ u && u < 0x240)

/-- The sources that report a condition which holds over time; every other source reports an event (R393; DEDUCED,
log entry 9). -/
def isCondition (s : Nat) : Bool :=
  (s < 0x100 && s % 16 == 1)
  || [0x21F, 0x257, 0x25F, 0x267, 0x2C2, 0x2C9, 0x2CA, 0x2D1, 0x2D5, 0x2F0, 0x2F1, 0x2F2, 0x2FC, 0x2FD].contains s

/-- Whether a source is a dependent of a window's event, with the message's ADDRESS (R401). -/
def dependent (t : Nat) (ev : WinEv) (s addr : Nat) : Bool :=
  match ev with
  | .galFence n =>
    (0x100 ≤ s && s < 0x200 && (s - 0x100) / 32 == n) || (s < 0x100 && (s % 16 == 11 || s % 16 == 5))
    || (0x200 ≤ s && s < 0x240 && s % 16 == 10) || s == 0x2F8 || s == 0x2D3 || s == 0x2D0
  | .galReset n => s < 0x100 && (s / 16) / 2 == n
  | .ringFence n => s == srcGal n 30
  | .headFence n => (s < 0x100 && s / 16 == n) || s == 0x2F8
  | .linkFence k =>
    0x200 ≤ s && s < 0x240 && s % 16 < 14 && ((s - 0x200) / 16 == k || s % 16 == 12 || s % 16 == 10)
  | .vchFence ch =>
    (0x240 ≤ s && s < 0x2C0 && s % 8 != 7 && (s - 0x240) / 8 == ch)
    || s == 0x2D0 || s == 0x2D2 || s == 0x2D3 || s == 0x267
  | .lunFence l =>
    (0x240 ≤ s && s < 0x2C0 && s % 8 != 7 && addr != 0 && lunOfVaddr t addr == l)
    || s == 0x2D0 || s == 0x2D2 || s == 0x2D3 || s == 0x267

/-- The unit whose fence an event is; a gallery reset is no fence of a unit. -/
def winUnit : WinEv → Option Nat
  | .galFence n => some (0x10 + n)
  | .galReset _ => none
  | .ringFence n => some (0x18 + n)
  | .headFence n => some n
  | .linkFence k => some (0x20 + k)
  | .vchFence ch => some (0x28 + ch)
  | .lunFence l => some (0x40 + l)

/-- FENCE_CAUSE of GAL_STATUS for the source that fenced a gallery's memory: 1 TRAIN_FAIL, 2 UE_BURST, 3 LINK_FAULT,
4 SCHED_PARITY, 5 CLEANER_LANE, 6 a forced fault (R394). -/
def galFenceCause (s : Nat) (forced : Bool) : Nat :=
  let k := (s - 0x100) % 32
  if forced then 6
  else if k < 24 then if k % 6 == 0 then 1 else if k % 6 == 4 then 2 else if k % 6 == 5 then 3 else 6
  else if k == 28 then 4 else if k == 29 then 5 else 6

end Sys2Proof.Machine
end

