-- ==== Sys2Proof/Machine/Ops.lean ====
section
/-! DEFINITION. Machine/Ops.lean: the named operations over tables, memory cells, bytes and checksums that every meaning uses. -/
namespace Sys2Proof.Machine

/-! ## Tables -/

/-- The entry of a table at key k. -/
def tget {α : Type} : Tbl α → Nat → Option α
  | [], _ => none
  | (k, a) :: t, n => if k == n then some a else tget t n

/-- The entry at key k, or d where none is listed. -/
def tgetD {α : Type} (t : Tbl α) (n : Nat) (d : α) : α := (tget t n).getD d

/-- The table with entry a at key k, keys kept rising. -/
def tset {α : Type} : Tbl α → Nat → α → Tbl α
  | [], n, a => [(n, a)]
  | (k, b) :: t, n, a => if n < k then (n, a) :: (k, b) :: t else if n == k then (k, a) :: t else (k, b) :: tset t n a

/-- The table without key k. -/
def tdel {α : Type} : Tbl α → Nat → Tbl α
  | [], _ => []
  | (k, b) :: t, n => if k == n then t else (k, b) :: tdel t n

/-- The table with f applied to the entry at key k, which is d where none is listed. -/
def tmod {α : Type} (t : Tbl α) (n : Nat) (d : α) (f : α → α) : Tbl α := tset t n (f (tgetD t n d))

/-- A rising list of numbers with n in it. -/
def sins : List Nat → Nat → List Nat
  | [], n => [n]
  | k :: t, n => if n < k then n :: k :: t else if n == k then k :: t else k :: sins t n

/-- A list of numbers without n. -/
def sdel (l : List Nat) (n : Nat) : List Nat := l.filter (fun k => k != n)

/-- l with n at its end, where n is not yet in it. -/
def addNew {α : Type} [DecidableEq α] (l : List α) (n : α) : List α := if l.contains n then l else l ++ [n]

/-- The list with its first element that meets p replaced by f of it. -/
def modFirst {α : Type} (p : α → Bool) (f : α → α) : List α → List α
  | [] => []
  | a :: l => if p a then f a :: l else a :: modFirst p f l

/-- The list without its first element that meets p. -/
def delFirst {α : Type} (p : α → Bool) : List α → List α
  | [] => []
  | a :: l => if p a then l else a :: delFirst p l

/-- n plus one, held at its maximum m. -/
def satInc (n m : Nat) : Nat := if n < m then n + 1 else m

/-- n plus k, held at m. -/
def satAdd (n k m : Nat) : Nat := Nat.min (n + k) m

/-- The entry of a vector of length n at an index that may lie outside it. -/
def vget {α : Type} {n : Nat} (v : Vector α n) (i : Nat) (d : α) : α := if h : i < n then v[i] else d

/-- The vector with f applied at index i; unchanged where i lies outside it. -/
def vmod {α : Type} {n : Nat} (v : Vector α n) (i : Nat) (f : α → α) : Vector α n :=
  if h : i < n then v.set i (f v[i]) h else v

/-- A list with f applied at index i. -/
def lmod {α : Type} (l : List α) (i : Nat) (f : α → α) : List α := l.modify i f

/-- Bit i of a number. -/
def bitOf (n i : Nat) : Bool := (n / 2 ^ i) % 2 == 1

/-- A truth value as a number. -/
def b2n (b : Bool) : Nat := if b then 1 else 0

/-- Bits hi downto lo of a number. -/
def fieldOf (n hi lo : Nat) : Nat := (n / 2 ^ lo) % 2 ^ (hi + 1 - lo)

/-- The set bits, below k, of a mask. -/
def maskList (k m : Nat) : List Nat := (List.range k).filter (bitOf m)

/-- The mask of a list of bit numbers. -/
def listMask (k : Nat) (l : List Nat) : Nat :=
  (List.range k).foldl (fun a i => if l.contains i then a + 2 ^ i else a) 0

/-! ## Memory cells -/

/-- The byte at address a; an unlisted address reads d. -/
def cget (d : Byte) : List Host.Cell → Nat → Byte
  | [], _ => d
  | (k, b) :: t, a => if k == a then b else if a < k then d else cget d t a

/-- The cells with byte v at address a, in canonical form: addresses rising, no entry equal to d. -/
def cset (d : Byte) : List Host.Cell → Nat → Byte → List Host.Cell
  | [], a, v => if v == d then [] else [(a, v)]
  | (k, b) :: t, a, v =>
    if a < k then (if v == d then (k, b) :: t else (a, v) :: (k, b) :: t)
    else if a == k then (if v == d then t else (k, v) :: t)
    else (k, b) :: cset d t a v

/-- The canonical form above a lower bound: addresses at least lo and strictly rising, no entry equal to d. -/
def cwfFrom (d : Byte) : Nat → List Host.Cell → Bool
  | _, [] => true
  | lo, (k, b) :: t => decide (lo ≤ k) && b != d && cwfFrom d (k + 1) t

/-- The canonical form of cells. -/
def cwf (d : Byte) (m : List Host.Cell) : Bool := cwfFrom d 0 m

/-- n bytes from address a. -/
def cread (d : Byte) (m : List Host.Cell) (a n : Nat) : List Byte := (List.range n).map (fun i => cget d m (a + i))

/-- The bytes l written from address a. -/
def cwrite (d : Byte) (m : List Host.Cell) (a : Nat) : List Byte → List Host.Cell
  | [] => m
  | b :: l => cwrite d (cset d m a b) (a + 1) l

/-- The bytes l written from address a where the mask enables them: bit k of the mask for the byte at a + k. -/
def cwriteMask (d : Byte) (m : List Host.Cell) (a : Nat) (mask : Nat) : List Byte → List Host.Cell
  | [] => m
  | b :: l => cwriteMask d (if mask % 2 == 1 then cset d m a b else m) (a + 1) (mask / 2) l

/-- A rising list of numbers, all at least lo. -/
def risingFrom : Nat → List Nat → Bool
  | _, [] => true
  | lo, k :: t => decide (lo ≤ k) && risingFrom (k + 1) t

/-! ## Bytes, little-endian -/

/-- The n low bytes of a number, least significant first. -/
def bytesOf : Nat → Nat → List Byte
  | 0, _ => []
  | n + 1, v => BitVec.ofNat 8 v :: bytesOf n (v / 256)

/-- The number that bytes spell, least significant first. -/
def ofBytes : List Byte → Nat
  | [] => 0
  | b :: l => b.toNat + 256 * ofBytes l

/-- The line that 64 bytes spell. -/
def lineOf (l : List Byte) : Line := BitVec.ofNat 512 (ofBytes l)

/-- The bytes of a line. -/
def lineBytes (v : Line) : List Byte := bytesOf 64 v.toNat

/-- The bytes of a riser. -/
def riserBytes (v : Riser) : List Byte := bytesOf 256 v.toNat

/-- Line i of a riser, i = 0 to 3. -/
def riserLine (v : Riser) (i : Nat) : Line := v.extractLsb' (512 * i) 512

/-! ## Checksums -/

/-- One step of a reflected CRC of the given polynomial. -/
def crcBit (poly : Nat) (r : Nat) : Nat := if r % 2 == 1 then (r / 2) ^^^ poly else r / 2

/-- One byte into a reflected CRC register. -/
def crcByte (poly : Nat) (r : Nat) (b : Byte) : Nat :=
  crcBit poly (crcBit poly (crcBit poly (crcBit poly (crcBit poly (crcBit poly (crcBit poly (crcBit poly (r ^^^ b.toNat))))))))

/-- CRC-32C (Castagnoli) of bytes, with all-ones start and final inversion. -/
def crc32c (l : List Byte) : Nat := l.foldl (crcByte 0x82F63B78) 0xFFFFFFFF ^^^ 0xFFFFFFFF

/-! ## The parts of the state -/

def onHead (c : Ctl) (h : Nat) (f : Head → Head) : Ctl := { c with heads := vmod c.heads h f }
def onLd (c : Ctl) (d : Nat) (f : Ld → Ld) : Ctl := { c with lds := vmod c.lds d f }
def onGal (c : Ctl) (g : Nat) (f : Gal → Gal) : Ctl := { c with gals := vmod c.gals g f }
def onLink (c : Ctl) (k : Nat) (f : TLink → TLink) : Ctl :=
  { c with twin := { c.twin with links := vmod c.twin.links k f } }
def onRail (c : Ctl) (r : Nat) (f : Rail → Rail) : Ctl :=
  { c with seq := { c.seq with rails := vmod c.seq.rails r f } }
def onHall (c : Ctl) (k : Nat) (f : Hall → Hall) : Ctl :=
  match tget c.halls k with
  | some h => { c with halls := tset c.halls k (f h) }
  | none => c

def headAt (c : Ctl) (h : Nat) : Head := vget c.heads h Head.reset
def ldAt (c : Ctl) (d : Nat) : Ld := vget c.lds d Ld.reset
def galAt (c : Ctl) (g : Nat) : Gal := vget c.gals g Gal.reset
def linkAt (c : Ctl) (k : Nat) : TLink := vget c.twin.links k TLink.reset
def railAt (c : Ctl) (r : Nat) : Rail := vget c.seq.rails r Rail.reset

/-- Records that o left the device (log entry 7). -/
def emit (c : Ctl) (o : Out) : Ctl := { c with out := o :: c.out }

/-- The next free word and the state after it (log entry 8). -/
def freeWord (c : Ctl) : Word := Config.freeWord c.free
def freeNat (c : Ctl) : Nat := Config.freeNat c.free
def useFree (c : Ctl) : Ctl := { c with free := c.free + 1 }

/-- A meaning that changes registers alone. -/
def onCtl (s : State) (f : Ctl → Ctl) : Host.Outcome State Fault Refusal :=
  .next { s with dev := { s.dev with ctl := f s.dev.ctl } }

/-- A meaning that changes registers and memory. -/
def onDev (s : State) (f : Dev → Dev) : Host.Outcome State Fault Refusal := .next { s with dev := f s.dev }

/-- The steps of a list applied in order. -/
def seqOps {σ : Type} (c : σ) (fs : List (σ → σ)) : σ := fs.foldl (fun c f => f c) c

/-- f where b holds; otherwise no change. -/
def whenB {σ : Type} (b : Bool) (f : σ → σ) (c : σ) : σ := if b then f c else c

end Sys2Proof.Machine
end

