-- ==== Sys2Proof/Machine/Base.lean ====
section
/-! DEFINITION. Machine/Base.lean: the operations every block shares: time-stamps, raising faults, the fault log, violations, event records, transitions, counter rings, records of the Alcove and the rights of register accesses. -/
namespace Sys2Proof.Machine

/-! ## Time -/

/-- The TS64 time-stamp of the live counter (R9, R442). -/
def now (c : Ctl) : Word :=
  BitVec.ofNat 64 (c.rtc.seconds.toNat * 2 ^ 24 + (c.rtc.frac.toNat / 256) * 256
    + (if c.rtc.adjusted then 4 else 0) + (if c.rtc.halted then 2 else 0) + (if c.rtc.oscStopped then 1 else 0))

/-- Time of a TS64 time-stamp in units of 2^-16 s. -/
def tsUnits (t : Word) : Nat := t.toNat / 256

/-- Whether time-stamp t lies at most n units of 2^-16 s before u. -/
def within (t u : Word) (n : Nat) : Bool := tsUnits u - tsUnits t ≤ n

/-- A sliding window of events: those of the last n units, with the new ones. -/
def winAdd (l : List (Word × Nat)) (t : Word) (k n : Nat) : List (Word × Nat) :=
  l.filter (fun x => within x.1 t n) ++ (if k == 0 then [] else [(t, k)])

def winSum (l : List (Word × Nat)) : Nat := l.foldl (fun n x => n + x.2) 0

/-- Milliseconds between two time-stamps, rounded down. -/
def msBetween (t u : Word) : Nat := (tsUnits u - tsUnits t) * 1000 / 65536

/-! ## Fault sources and units -/

def SrcSt.quiet : SrcSt := { active := false, latched := false, count := 0, lastKind := 0, condition := false }
def UnitSt.fresh : UnitSt := { fenced := false, rgen := 0, fences := 0, fenceSrc := 0x3FF, recent := false, held := 0 }

def srcAt (c : Ctl) (s : Nat) : SrcSt := tgetD c.fcu.src s SrcSt.quiet
def unitAt (c : Ctl) (u : Nat) : UnitSt := tgetD c.fcu.unit u UnitSt.fresh
def onSrc (c : Ctl) (s : Nat) (f : SrcSt → SrcSt) : Ctl :=
  { c with fcu := { c.fcu with src := tmod c.fcu.src s SrcSt.quiet f } }
def onUnit (c : Ctl) (u : Nat) (f : UnitSt → UnitSt) : Ctl :=
  { c with fcu := { c.fcu with unit := tmod c.fcu.unit u UnitSt.fresh f } }

/-- The class in force of a source (R391, R392). -/
def classOf (c : Ctl) (s : Nat) : FClass := tgetD c.fcu.cls s (defaultClass s)

def unitFenced (c : Ctl) (u : Nat) : Bool := (unitAt c u).fenced
def headFenced (c : Ctl) (h : Nat) : Bool := unitFenced c h
def galFenced (c : Ctl) (g : Nat) : Bool := (galAt c g).fenced
def ringEngFenced (c : Ctl) (g : Nat) : Bool := unitFenced c (0x18 + g)

/-- The always-on domain runs: every state but OFF (R23), and RESET_N is high (R494). -/
def aonOn (c : Ctl) : Bool := c.glb.mode != .off && c.glb.resetHeld.isNone

/-- A message waiting at the root: a repeat of a waiting source merges into it (R385). -/
def enqueueMsg (w : List FMsg) (m : FMsg) : List FMsg :=
  if w.any (fun x => x.source == m.source) then
    modFirst (fun x => x.source == m.source) (fun x => { x with rep := satInc x.rep 0xFF }) w
  else w ++ [m]

/-- A source raises a fault (R381, R385, R393): its message carries its unit's current RGEN. The collector is unpowered in OFF. -/
def raiseMsg (c : Ctl) (s kind addr ini access : Nat) (forced : Bool) : Ctl :=
  if aonOn c && srcDefined s then
    let u := unitOf c.vlt.targets s addr
    let m : FMsg := { source := s, kind := kind, addr := addr, ini := ini, access := access,
                      rgen := (unitAt c u).rgen, rep := 0, forced := forced }
    let c := onSrc c s (fun x => { x with active := true, count := satInc x.count 0xFFFF, lastKind := kind })
    { c with fcu := { c.fcu with waiting := enqueueMsg c.fcu.waiting m } }
  else c

/-- A source raises an event (R393). -/
def raiseAt (c : Ctl) (s kind addr ini access : Nat) : Ctl := raiseMsg c s kind addr ini access false

/-- A source raises an event with no address, initiator or access. -/
def raiseF (c : Ctl) (s kind : Nat) : Ctl := raiseAt c s kind 0 0xFF 0

/-- The condition of a source begins: it raises once while the condition holds (R393). -/
def beginCond (c : Ctl) (s kind addr : Nat) : Ctl :=
  if (srcAt c s).condition then c
  else raiseAt (onSrc c s (fun x => { x with condition := true })) s kind addr 0xFF 0

/-- The condition of a source ends (R393). -/
def endCond (c : Ctl) (s : Nat) : Ctl := onSrc c s (fun x => { x with condition := false, active := false })

/-- The condition of a source begins or ends. -/
def setCond (c : Ctl) (s kind addr : Nat) (b : Bool) : Ctl := if b then beginCond c s kind addr else endCond c s

/-- An advance of a unit's role generation; a second one within 20 µs is held (R396). -/
def advGen (c : Ctl) (u : Nat) : Ctl :=
  onUnit c u (fun x => if x.recent then { x with held := x.held + 1 } else { x with rgen := (x.rgen + 1) % 16, recent := true })

/-- The LUN indexes of a vault channel (R289). -/
def lunsOf (c : Ctl) (ch : Nat) : List Nat := (List.range 512).filter (fun l => l % 16 == ch && l < 16 * c.vlt.targets * c.vlt.lunsPer)

/-- The unit's state shows its fence by source s; a unit fenced before keeps its own. -/
def unitFence (c : Ctl) (u s : Nat) : Ctl :=
  onUnit c u (fun x => if x.fenced then x else { x with fenced := true, fences := satInc x.fences 0xFFFF, fenceSrc := s })

/-- A unit is fenced: its state, its generation and, for an event of its own, a consequential window (R396, R401, R403). A fence of a
vault channel fences its LUNs with it (R316). -/
def fenceUnit (c : Ctl) (u s : Nat) (ev : WinEv) : Ctl :=
  let c := onUnit c u (fun x => { x with fenced := true, fences := satInc x.fences 0xFFFF, fenceSrc := s })
  let c := advGen c u
  let c := if 0x28 ≤ u && u < 0x38 then (lunsOf c (u - 0x28)).foldl (fun c l => advGen (unitFence c (0x40 + l) s) (0x40 + l)) c else c
  { c with fcu := { c.fcu with windows := c.fcu.windows ++ [{ ev := ev, cause := s }] } }

/-- A unit's fence is lifted: the window of the fence closes and, where R396 says so, the generation advances. -/
def liftFence (c : Ctl) (u : Nat) (adv : Bool) : Ctl :=
  if unitFenced c u then
    let c := onUnit c u (fun x => { x with fenced := false })
    let c := if adv then advGen c u else c
    { c with fcu := { c.fcu with windows := c.fcu.windows.filter (fun w => winUnit w.ev != some u) } }
  else c

/-! ## The fault log (R407 to R411) -/

def LogEntry.blank : LogEntry :=
  { time := 0, rgen := 0, access := 0, addr := 0, seq := 0, rep := 0, ini := 0, kind := 0, source := 0, cause := 0x3FF,
    reaction := 0, fromAlcove := false, forced := false, fenced := false, conseq := false, stale := false, cls := 0 }

def countUnlogged (c : Ctl) : Ctl := { c with fcu := { c.fcu with unlogged := satInc c.fcu.unlogged 0xFFFF } }

/-- An entry of class S2 or S3 waits for the Alcove fault ring: behind the SAVE_ATTEMPT commit while a save runs whose attempt is
not committed, otherwise for its slot write (R410, R430). -/
def alcoveEntry (c : Ctl) (e : LogEntry) (behind : Bool) : Ctl :=
  if behind then { c with fcu := { c.fcu with alcDue := c.fcu.alcDue ++ [e] } }
  else { c with alc := { c.alc with ringQ := c.alc.ringQ ++ [(5, .fault e)] } }

/-- The log takes an entry, written whole over the oldest (R407). Frozen logs, and a log with an uncorrectable word, count it
instead (R411, R413). -/
def logAdd (c : Ctl) (e : LogEntry) (behind : Bool) : Ctl :=
  if c.fcu.frozen || (c.fcu.self && c.fcu.selfCause == 2) then countUnlogged c
  else
    let e := { e with seq := c.fcu.entries }
    let c := { c with fcu := { c.fcu with log := tset c.fcu.log c.fcu.next e, next := (c.fcu.next + 1) % 64,
                                          entries := (c.fcu.entries + 1) % 2 ^ 32 } }
    if e.cls ≥ 2 then alcoveEntry c e behind else c

/-- GLB_LAST_TRANSITION bits 15:0 (R41). -/
def ltLow (g : Glb) : Nat := g.ltFrom + 16 * g.ltTo + 256 * g.ltCode

/-- A transition of R32 is recorded in GLB_LAST_TRANSITION and, with a code of 0x30 or above, in the log (R41, R409). -/
def recordTransition (c : Ctl) (frm dst code ini : Nat) : Ctl :=
  let t := now c
  let c := { c with glb := { c.glb with ltFrom := frm, ltTo := dst, ltCode := code, ltCount := (c.glb.ltCount + 1) % 2 ^ 16, ltTime := t } }
  if code ≥ 0x30 then
    logAdd c { LogEntry.blank with time := t, addr := ltLow c.glb, ini := ini, source := 0x3FF } false
  else c

/-- The device changes state with the code of R32. -/
def transition (c : Ctl) (dst : Mode) (code ini : Nat) : Ctl :=
  let f := modeCode c.glb.mode
  recordTransition { c with glb := { c.glb with mode := dst } } f (modeCode dst) code ini

/-! ## Rights (R502, R503) and violations (R118, R119, R512, R513) -/

/-- The LD is one its head presents (R84). -/
def ldPresented (c : Ctl) (d : Nat) : Bool := d % 4 < (headAt c (d / 4)).ldCount

/-- CXL.io of the LD reaches the device. -/
def ldReach (c : Ctl) (d : Nat) : Bool := (headAt c (d / 4)).linkUp && ldPresented c d

/-- Commands of the LD's mailbox and its register accesses reach the device: after an integrity failure the CXL.io stream's flits are discarded (R121). -/
def ioReach (c : Ctl) (d : Nat) : Bool := ldReach c d && (headAt c (d / 4)).ideIo.st != .failed

/-- Management rights of an initiator (R502). -/
def mgmtRight (c : Ctl) (ini : Nat) : Bool :=
  if ini < 0x40 then ioReach c ini && bitOf (headAt c (ini / 4)).mgmtLd (ini % 4)
  else ini == 0x60 || ini == 0x40 || ini == 0x41

/-- The initiator can make register accesses and send commands now (R502). -/
def canReach (c : Ctl) (ini : Nat) : Bool :=
  aonOn c && (if ini < 0x40 then ioReach c ini else ini == 0x60 || ini == 0x40 || ini == 0x41)

/-- A violation log of 16 entries counts a violation and, while logs are not frozen, takes its entry. -/
def Viol.add (v : Viol) (e : ViolEntry) (frozen : Bool) : Viol :=
  let v := { v with violations := satInc v.violations 0xFFFFFF }
  if frozen then v else { v with log := tset v.log v.next e, next := (v.next + 1) % 16 }

/-- The head source that reports a violation kind (R118). -/
def violSource (kind : Nat) : Nat := if kind ≤ 4 then 6 else if kind == 5 || kind == 8 then 7 else if kind == 6 then 8 else 9

/-- A violation is recorded on a head and raised (R118). -/
def violateOn (c : Ctl) (h ini addr access kind hall : Nat) : Ctl :=
  let e : ViolEntry := { time := now c, addr := addr, access := access, kind := kind, ini := ini, hall := hall }
  let c := onHead c h (fun x => { x with viol := x.viol.add e c.fcu.frozen })
  raiseAt c (srcHead h (violSource kind)) (0x20 + kind) addr ini access

/-- A violation is recorded where it arrives (R118, R512). -/
def violate (c : Ctl) (ini addr access kind hall : Nat) : Ctl :=
  let e : ViolEntry := { time := now c, addr := addr, access := access, kind := kind, ini := ini, hall := hall }
  if ini < 0x40 then violateOn c (ini / 4) ini addr access kind hall
  else if ini == 0x60 then
    let c := { c with mgmt := { c.mgmt with viol := c.mgmt.viol.add e c.fcu.frozen } }
    logAdd c { LogEntry.blank with time := e.time, access := access, addr := addr, ini := ini, kind := 0x20 + kind, source := 0x3FF } false
  else c

/-- An illegal sequence is ignored and counted (R119, R513). -/
def illegal (c : Ctl) (ini : Nat) : Ctl :=
  if ini < 0x40 then
    onHead c (ini / 4) (fun x => { x with viol := { x.viol with ignored := satInc x.viol.ignored 0xFFFFFFFF } })
  else if ini == 0x60 || ini == 0x40 || ini == 0x41 then
    { c with mgmt := { c.mgmt with viol := { c.mgmt.viol with ignored := satInc c.mgmt.viol.ignored 0xFFFFFFFF } } }
  else c

/-! ## Event records (R122, R123) -/

def evqOf (d : Ld) : EvLog → EvQ
  | .info => d.info | .warning => d.warning | .failure => d.failure | .fatal => d.fatal | .dcd => d.dcd

def setEvq (d : Ld) (l : EvLog) (q : EvQ) : Ld :=
  match l with
  | .info => { d with info := q }
  | .warning => { d with warning := q }
  | .failure => { d with failure := q }
  | .fatal => { d with fatal := q }
  | .dcd => { d with dcd := q }

/-- A log of 64 records takes a record; a full log counts an overflow and its times (R122). -/
def EvQ.add (q : EvQ) (r : EvRec) (t : Word) : EvQ :=
  if q.recs.length < 64 then
    { q with recs := q.recs ++ [(q.nextHandle, r)], nextHandle := if q.nextHandle == 0xFFFF then 1 else q.nextHandle + 1 }
  else { q with overflow := satInc q.overflow 0xFFFF, lastOverflow := t, firstOverflow := if q.overflow == 0 then t else q.firstOverflow }

/-- An MSI-X interrupt of an LD (R87): one that is masked stays pending (R340). An LD that is not reached has none. -/
def msixSend (c : Ctl) (d v : Nat) : Ctl :=
  if !ldReach c d then c
  else if (ldAt c d).msixMask.getLsbD v then onLd c d (fun x => { x with msixPend := x.msixPend ||| BitVec.twoPow 32 v })
  else emit c (.msix d v)

/-- An event record for an LD, signalled on vector 1 (R87); an overflow raises EVENT_OVERFLOW (R122, R128). -/
def addEvent (c : Ctl) (d : Nat) (l : EvLog) (r : EvRec) : Ctl :=
  let full := (evqOf (ldAt c d) l).recs.length ≥ 64
  let c := onLd c d (fun x => setEvq x l ((evqOf x l).add r (now c)))
  let c := if full then raiseAt c (srcHead (d / 4) 14) 0x06 0 d 0 else c
  msixSend c d 1

/-- A vendor event record (R122, R123). -/
def vendorEvent (c : Ctl) (d kind ini access hall dpa : Nat) : Ctl :=
  let l : EvLog := if kind == 3 || kind == 4 || kind == 6 then .info else if kind == 7 then .failure else .warning
  addEvent c d l (.vendor kind ini access hall dpa (now c))

/-! ## Halls -/

def Hall.fresh : Hall :=
  { mode := .unassigned, home := false, gen := 0, cold := false, sharers := [], count := 0, tag := 0, sanitize := false, fill := none, warm := [], swept := 0 }

def hallAt (c : Ctl) (k : Nat) : Hall := tgetD c.halls k Hall.fresh

/-- Halls of this device (R19). -/
def hallCount (c : Ctl) : Nat := 8 * c.dimm.perGal

/-- The gallery that holds a hall (R19). -/
def galOfHall (c : Ctl) (k : Nat) : Nat := if c.dimm.perGal == 0 then 0 else k / c.dimm.perGal

/-- A vendor event to every LD of this device to which the hall is assigned (R123). -/
def hallEvent (c : Ctl) (k kind : Nat) : Ctl :=
  (hallAt c k).sharers.foldl (fun c s => if s.here then vendorEvent c s.ld kind 0xFF 0 k 0 else c) c

/-! ## Counter rings (R433 to R435) -/

/-- Slots of a ring (R433). -/
def ringSlots (r : Nat) : Nat := if r == 5 then 32 else 64

def ARing.blank : ARing := { slots := [], newest := 0, torn := 0 }
def aringAt (c : Ctl) (r : Nat) : ARing := tgetD c.alc.rings r ARing.blank

/-- The value the newest valid slot of a counter ring holds (R435). -/
def ringStored (c : Ctl) (r : Nat) : Nat :=
  let a := aringAt c r
  match tget a.slots (a.newest % ringSlots r) with
  | some (.valid _ (.count n)) => n
  | _ => 0

/-- The value of a counter with its waiting updates. -/
def ringValue (c : Ctl) (r : Nat) : Nat :=
  c.alc.ringQ.foldl (fun n x => match x with
    | (k, .count m) => if k == r then m else n
    | _ => n) (ringStored c r)

/-- An update of a counter ring waits for its slot write (R435). -/
def ringPut (c : Ctl) (r n : Nat) : Ctl := { c with alc := { c.alc with ringQ := c.alc.ringQ ++ [(r, .count n)] } }

/-- A counter ring advances by one. -/
def ringBump (c : Ctl) (r : Nat) : Ctl := ringPut c r (ringValue c r + 1)

/-- The entry that beats all others of a list by a measure, the first on a tie. -/
def bestBy {α : Type} (better : α → α → Bool) : List α → Option α
  | [] => none
  | a :: l => match bestBy better l with
    | some b => some (if better b a then b else a)
    | none => some a

/-- GLB_STATE.BOOT_COUNT (R35). -/
def bootCount (c : Ctl) : Nat := ringValue c 0

/-! ## Register blocks (R510) and their domains (R23, R459, R468) -/

inductive Blk where
  | glb | glbMgmt | hst (n : Nat) | gal (n : Nat) | twn (k : Nat) | twnCommon | vlt | vch (ch : Nat) | svr | pwr | fcu | alc
  | rtc | clk | rst | boot | ring (r : Nat) | none
  deriving DecidableEq, Repr

/-- The block that covers a BAR2 offset (R510). -/
def blkOf (off : Nat) : Blk :=
  if off < 0x100 then .glb
  else if off < 0x100000 then .glbMgmt
  else if off < 0x200000 then .hst ((off - 0x100000) / 0x10000)
  else if off < 0x300000 then .gal ((off - 0x200000) / 0x20000)
  else if off < 0x340000 then .twn ((off - 0x300000) / 0x10000)
  else if off < 0x400000 then .twnCommon
  else if off < 0x410000 then .vlt
  else if off < 0x420000 then .vch ((off - 0x410000) / 0x1000)
  else if off < 0x5F0000 then .none
  else if off < 0x600000 then .svr
  else if off < 0x700000 then .pwr
  else if off < 0x780000 then .fcu
  else if off < 0x7C0000 then .alc
  else if off < 0x7E0000 then .rtc
  else if off < 0x7E1000 then .clk
  else if off < 0x7E2000 then .rst
  else if off < 0x7E3000 then .boot
  else if off < 0x1000000 then .none
  else if off < 0x1400000 then .ring ((off - 0x1000000) / 0x1000)
  else .none

/-- Offsets of SVR_RESTORE and SVR_DEMAND, which run with the restore engine (R459). -/
def svrOnCore (off : Nat) : Bool := (0x5F0020 ≤ off && off < 0x5F0030)

/-- The block's domain runs and its slice is out of reset (R23, R459). -/
def blkAnswers (c : Ctl) (b : Blk) (off : Nat) : Bool :=
  let m := c.glb.mode
  let island := m == .start || m.service || m == .save || m == .hold
  match b with
  | .hst _ | .gal _ | .ring _ => island
  | .twn _ | .twnCommon => m == .start || m.service || (m == .save && (c.svr.run.map (fun r => !r.cut)).getD false)
  | .vlt | .vch _ => m == .start || m.service || m == .save
  | .svr => aonOn c && (!svrOnCore off || m == .start || m.service)
  | _ => aonOn c

/-! ## Clock domains (R459, R463) -/

/-- The Steward runs, and CORE with it (R23, R459). -/
def coreRuns (c : Ctl) : Bool :=
  c.glb.mode == .start || c.glb.mode.service || c.glb.mode == .save || c.glb.mode == .hold || c.glb.mode == .vestibule

/-- The clock of a domain runs, by its code (R459, R463). The I3C domain runs during transfers only, which no state shows. -/
def domRunning (c : Ctl) (d : Nat) : Bool :=
  let m := c.glb.mode
  let dram := m == .start || m.service || m == .save
  if d == 0 then true
  else if d == 1 then aonOn c
  else if d == 2 then c.clk.xspiOn
  else if d ≤ 4 then coreRuns c
  else if 0x08 ≤ d && d < 0x10 then (dram || m == .hold) && !(galAt c (d - 0x08)).doze
  else if 0x10 ≤ d && d < 0x18 then
    let g := galAt c (d - 0x10)
    dram && !g.doze && !g.fenced && !g.resetting
  else if d == 0x18 then blkAnswers c .vlt 0
  else if 0x20 ≤ d && d < 0x30 then (headAt c (d - 0x20)).linkUp
  else if 0x30 ≤ d && d < 0x34 then dram && (linkAt c (d - 0x30)).state != .disabled
  else if d == 0x35 then c.rtc.timeRef != 0
  else false

/-- Domains of a list stop or are reset: each that runs is counted (CLK_DOMAIN.STOPS). -/
def domStop (c : Ctl) (ds : List Nat) : Ctl :=
  { c with clk := { c.clk with
    doms := (ds.filter (domRunning c)).foldl (fun t d => tmod t d ClkDom.reset (fun x => { x with stops := (x.stops + 1) % 65536 })) c.clk.doms } }

/-- The domains above the always-on domain beside CORE and CORR. -/
def unitDoms : List Nat := (List.range 0x11).map (· + 8) ++ (List.range 20).map (· + 0x20)

/-- An access to the flash starts the XSPI domain (R463). -/
def xspiWake (c : Ctl) : Ctl := { c with clk := { c.clk with xspiOn := true } }

/-- The ring belongs to this LD (R324). -/
def ringOwnedBy (c : Ctl) (r ini : Nat) : Bool :=
  match tget c.rings r with
  | some x => x.owner == some ini && ldPresented c ini
  | none => false

/-- The right of an initiator to an access (R503, R325). -/
def accessRight (c : Ctl) (b : Blk) (ini : Nat) (wr : Bool) : Bool :=
  match b with
  | .ring r => ringOwnedBy c r ini || (!wr && mgmtRight c ini)
  | .none => true
  | _ =>
    if mgmtRight c ini then true
    else if wr then false
    else match b with
      | .glb | .rtc => true
      | .hst n => ini / 4 == n
      | _ => false

/-- An access into a stopped or reset domain ends with an error, is counted and raises CDC_TIMEOUT (R468). -/
def cdcTimeout (c : Ctl) (ini addr : Nat) : Ctl :=
  let c := { c with clk := { c.clk with timeout := satInc c.clk.timeout 0xFFFF, timeoutIni := ini, timeoutAddr := addr % 2 ^ 32 } }
  raiseAt c 0x2F8 0x04 addr ini 0x6

/-- The answer to a register access that is checked before it reaches its register: UR to an LD, STATUS to the endpoint (R118, R468,
R509). -/
inductive GateRes where
  | ok | badSize | noRight | stopped | silent
  deriving DecidableEq, Repr

/-- The checks of a register access: size and alignment (R11), right (R503) and domain (R468). -/
def gateOf (c : Ctl) (ini off size : Nat) (wr : Bool) : GateRes :=
  if !canReach c ini then .silent
  else if !((size == 8 || size == 4) && off % size == 0) then .badSize
  else if !accessRight c (blkOf off) ini wr then .noRight
  else if !blkAnswers c (blkOf off) off then .stopped
  else .ok

/-- The violation kind of an access without the right (R118). -/
def rightKind (off : Nat) : Nat := match blkOf off with | .ring _ => 6 | _ => 5

/-- UR leaves to an LD. -/
def emitUr (c : Ctl) (ini off : Nat) : Ctl := if ini < 0x40 then emit c (.cxlIoUr ini off) else c

/-- What a failed check leaves behind (R11, R118, R468, R503). -/
def gateFail (c : Ctl) (g : GateRes) (ini off : Nat) (wr : Bool) : Ctl :=
  match g with
  | .ok | .silent => c
  | .badSize => emitUr (violate c ini off 0x6 8 0xFFFFFFFF) ini off
  | .noRight => emitUr (violate c ini off 0x6 (rightKind off) 0xFFFFFFFF) ini off
  | .stopped => if wr && ini < 0x40 then cdcTimeout c ini off else emitUr (cdcTimeout c ini off) ini off

/-- A write of a register by an initiator: where the checks pass it has the effect f. -/
def regWrite (c : Ctl) (ini off size : Nat) (f : Ctl → Ctl) : Ctl :=
  match gateOf c ini off size true with
  | .ok => f c
  | g => gateFail c g ini off true

/-- A read of a register by an initiator: where the checks pass it has the effect f. -/
def regRead (c : Ctl) (ini off size : Nat) (f : Ctl → Ctl) : Ctl :=
  match gateOf c ini off size false with
  | .ok => f c
  | g => gateFail c g ini off false

end Sys2Proof.Machine
end

