-- ==== Sys2Proof/Machine/Rtc.lean ====
section
/-! DEFINITION. Machine/Rtc.lean: the real-time clock, its alarm, read shadows and trim (R439 to R458). -/
namespace Sys2Proof.Machine

def onRtc (c : Ctl) (f : Rtc → Rtc) : Ctl := { c with rtc := f c.rtc }

/-! ## Alarm and PWR_ON_REQ -/

/-- The alarm fires (R453); in OFF or STANDBY with WAKE set it sets the alarm cause (R454). -/
def alarmFire (c : Ctl) (byWrite : Bool) : Ctl :=
  let wake := c.rtc.wake && (c.glb.mode == .off || c.glb.mode == .standby)
  let c := onRtc c (fun r => { r with armed := false, fired := true, firedByAdjust := r.firedByAdjust || byWrite,
                                      causeAlarm := r.causeAlarm || wake })
  if byWrite then raiseF c 0x2F4 0 else c

/-- The armed alarm is compared with the counter (R453). -/
def alarmCheck (c : Ctl) (byWrite : Bool) : Ctl :=
  if c.rtc.armed && decide (c.rtc.alarm.toNat ≤ c.rtc.seconds.toNat) then alarmFire c byWrite else c

/-- The level of PWR_ON_REQ (R455, R456). -/
def pwrOnReq (c : Ctl) : Bool := !c.glb.fatal && (c.rtc.causeAlarm || (c.rtc.causeRestore && c.glb.mode != .off))

/-- A write of RTC_ALARM (R453). An arming write whose value is due fires at once, but not while HALTED is 1, when only a time write can
fire the alarm. -/
def alarmWrite (c : Ctl) (val : Nat) : Ctl :=
  let armed := bitOf val 40
  let c := onRtc c (fun r => { r with alarm := BitVec.ofNat 40 val, armed := armed, wake := bitOf val 41 })
  if armed && !c.rtc.halted then alarmCheck c false else c

/-! ## The counter -/

/-- The increment of an edge: 512, and on |TRIM| edges of every 32,768, spread evenly, one more or one less (R441). -/
def edgeIncrement (trim : Int) (edge : Nat) : Nat :=
  let n := trim.natAbs
  if (edge + 1) * n / 32768 == edge * n / 32768 then 512 else if trim < 0 then 511 else 513

/-- The counter advances by n units of 2^-24 s; a carry advances SECONDS and compares the alarm (R441, R453). -/
def rtcAdvance (c : Ctl) (n : Nat) : Ctl :=
  let f := c.rtc.frac.toNat + n
  let c := onRtc c (fun r => { r with frac := BitVec.ofNat 24 f })
  if f < 2 ^ 24 then c else alarmCheck (onRtc c (fun r => { r with seconds := r.seconds + 1 })) false

/-- Held time writes apply (R446) and are checked against the alarm (R453, R454). -/
def applyHeld (c : Ctl) : Ctl :=
  if c.rtc.heldSec.isSome || c.rtc.heldFrac.isSome then
    let c := onRtc c (fun r => { r with seconds := r.heldSec.getD r.seconds, frac := r.heldFrac.getD r.frac,
                                        heldSec := none, heldFrac := none })
    alarmCheck c true
  else c

/-- One oscillator edge (R441, R445, R449): a new period takes the trim, HALT sets or clears HALTED, and otherwise the counter advances. -/
def rtcEdge (c : Ctl) : Ctl :=
  let j := c.rtc.edge
  let c := onRtc c (fun r => { r with trimNow := if j == 0 then r.trim else r.trimNow, edge := (j + 1) % 32768 })
  if c.rtc.halt then
    if c.rtc.halted then c else applyHeld (onRtc c (fun r => { r with halted := true }))
  else if c.rtc.halted then onRtc c (fun r => { r with halted := false })
  else rtcAdvance c (edgeIncrement c.rtc.trimNow j)

/-- Edges until SECONDS changes, at most n of them. -/
def rtcToCarry : Nat → Ctl → Ctl
  | 0, c => c
  | n + 1, c =>
    let d := rtcEdge c
    if d.rtc.seconds == c.rtc.seconds then rtcToCarry n d else d

/-! ## Setting the time -/

/-- HALT is set (R445). -/
def rtcSetHalt (c : Ctl) : Ctl :=
  if c.rtc.halt then c else onRtc c (fun r => { r with halt := true, wrote := false })

/-- An accepted write of SECONDS or FRACTION (R446): applied while halted, held until the edge that sets HALTED otherwise. -/
def rtcAcceptTime (c : Ctl) (sec : Option (BitVec 40)) (frac : Option (BitVec 24)) : Ctl :=
  let c := onRtc c (fun r => { r with wrote := true, adjusted := true, heldSec := sec.or r.heldSec, heldFrac := frac.or r.heldFrac })
  if c.rtc.halted then applyHeld c else c

/-- The oscillator-stopped flag is set (R440). -/
def oscStop (c : Ctl) : Ctl := beginCond (onRtc c (fun r => { r with oscStopped := true })) 0x2F0 0x09 0

/-- HALT is cleared (R445): after time writes the resume clears OSC_STOPPED and raises TIME_SET (R447). A HALT that no edge has taken
up yet takes effect first (R469). -/
def rtcClearHalt (c : Ctl) : Ctl :=
  if !c.rtc.halt then c
  else
    let c := if c.rtc.halted then c else rtcEdge c
    let wrote := c.rtc.wrote
    let c := onRtc c (fun r => { r with halt := false, wrote := false })
    if wrote then raiseF (endCond (onRtc c (fun r => { r with oscStopped := false })) 0x2F0) 0x2F5 0 else c

/-- The four steps of the procedure for setting the time: the target plus the 61 µs resume delay, 1023 units of 2^-24 s (R517). -/
def setTimeSteps (c : Ctl) (sec frac24 : Nat) : Ctl :=
  let f := frac24 + 1023
  let c := rtcEdge (rtcSetHalt c)
  let c := rtcAcceptTime c (some (BitVec.ofNat 40 (sec + f / 2 ^ 24))) (some (BitVec.ofNat 24 f))
  rtcEdge (rtcClearHalt c)

/-! ## Reading the time -/

/-- Year, month and day of a day number counted from 2000-01-01 (R452). -/
def civilOf (days : Nat) : Nat × Nat × Nat :=
  let z := days + 730425
  let era := z / 146097
  let doe := z % 146097
  let yoe := (doe - doe / 1460 + doe / 36524 - doe / 146096) / 365
  let doy := doe - (365 * yoe + yoe / 4 - yoe / 100)
  let mp := (5 * doy + 2) / 153
  let d := doy - (153 * mp + 2) / 5 + 1
  let m := if mp < 10 then mp + 3 else mp - 9
  (yoe + era * 400 + (if m ≤ 2 then 1 else 0), m, d)

/-- RTC_CAL for a count of seconds (R452). -/
def rtcCal (sec : Nat) : Word :=
  if sec ≥ 9467107200 then 0
  else
    let days := sec / 86400
    let t := sec % 86400
    let (y, m, d) := civilOf days
    BitVec.ofNat 64 (2 ^ 63 + y * 2 ^ 48 + m * 2 ^ 40 + d * 2 ^ 32 + ((6 + days) % 7) * 2 ^ 24
      + (t / 3600) * 2 ^ 16 + ((t / 60) % 60) * 2 ^ 8 + t % 60)

/-- RTC_TIME_LO (R442, R446). -/
def rtcTimeLo (r : Rtc) : Word :=
  BitVec.ofNat 64 (r.frac.toNat * 256 + 4 * b2n r.adjusted + 2 * b2n r.halted + b2n r.oscStopped)

/-- The shadow set copied at this moment (R443). -/
def shadowOf (c : Ctl) (ini : Nat) : Freeze :=
  { ini := ini, lo := rtcTimeLo c.rtc, cal := rtcCal c.rtc.seconds.toNat, hi := BitVec.ofNat 64 c.rtc.seconds.toNat }

/-- The freeze of an initiator: its own, or a new one that takes the earliest set when eight are held (R443, R444). -/
def freezeFor (c : Ctl) (ini : Nat) : Freeze × Ctl :=
  match c.rtc.freezes.find? (fun f => f.ini == ini) with
  | some f => (f, c)
  | none =>
    let f := shadowOf c ini
    if c.rtc.freezes.length < 8 then (f, onRtc c (fun r => { r with freezes := r.freezes ++ [f] }))
    else (f, onRtc c (fun r => { r with freezes := r.freezes.tail ++ [f], steals := satInc r.steals 0xFFFF }))

/-- The freeze of an initiator ends. -/
def freezeEnd (c : Ctl) (ini : Nat) : Ctl :=
  onRtc c (fun r => { r with freezes := r.freezes.filter (fun f => f.ini != ini) })

/-- The register of a shadow set at an offset of the RTC block. -/
def shadowReg (f : Freeze) (off : Nat) : Word := if off == 0x08 then f.lo else if off == 0x10 then f.cal else f.hi

/-- A read of RTC_TIME_LO, RTC_CAL or RTC_TIME_HI through the shadows, at an offset within the block; the closing read ends the freeze
(R443). -/
def rtcShadowRead (c : Ctl) (ini off size : Nat) : Word × Ctl :=
  let (f, c) := freezeFor c ini
  let w := shadowReg f (off / 8 * 8)
  let w := if size == 4 then (if off % 8 == 4 then w >>> 32 else w &&& 0xFFFFFFFF) else w
  (w, if (off == 0x18 && size == 8) || off == 0x1C then freezeEnd c ini else c)

/-! ## Trim -/

/-- round(a / b), half away from zero, for b positive. -/
def roundDiv (a : Int) (b : Nat) : Int :=
  let q := ((2 * a.natAbs + b) / (2 * b) : Nat)
  if a < 0 then -(q : Int) else q

/-- A value limited to ±m. -/
def clampInt (x : Int) (m : Nat) : Int := if x > m then (m : Int) else if x < -(m : Int) then -(m : Int) else x

/-- The trim a measurement computes before saturation (R451). A count of 0 edges leaves it open: a free value. -/
def trimOf (c : Ctl) (count : Nat) : Int :=
  let w : Nat := c.rtc.windowS
  if c.rtc.timeRef == 1 then
    if count == 0 then (freeNat c : Int) else roundDiv ((32768 * (w : Int) - count) * 16777216) count
  else if w == 0 then (freeNat c : Int) else roundDiv (((count : Int) - 10000000 * w) * 16777216) (10000000 * w)

/-- A measurement starts (R450). -/
def trimBegin (c : Ctl) : Ctl :=
  if c.rtc.timeRef != 0 && c.rtc.measRes != .running then onRtc c (fun r => { r with measRes := .running }) else c

/-- A running measurement is abandoned with this result (R451). -/
def trimAbandon (c : Ctl) (res : TrimRes) : Ctl :=
  if c.rtc.measRes == .running then onRtc c (fun r => { r with measRes := res }) else c

/-- A measurement ends and replaces the trim (R451). -/
def trimFinish (c : Ctl) (count : Nat) : Ctl :=
  let x := trimOf c count
  let sat := decide (x.natAbs > 8192)
  let c := useFree c
  let c := onRtc c (fun r => { r with trim := clampInt x 8192, trimSrc := 2, measCount := count, measTrim := if x > 32767 then 32767 else if x < -32768 then -32768 else x,
                                      measRes := if sat then .saturated else .accepted, measTime := now c, refLost := false })
  let c := endCond c 0x2F2
  if sat then raiseF c 0x2F3 0x06 else c

/-! ## The commands -/

/-- VBAT_SWITCHOVER (R439): no oscillator cycle is lost and no register changes. -/
def execVbatSwitchover (_toVbat : Bool) (s : State) : Host.Outcome State Fault Refusal := onCtl s id

/-- RTC_SECONDS_CARRY (R441): oscillator edges until the fraction carries. -/
def execRtcSecondsCarry (s : State) : Host.Outcome State Fault Refusal := onCtl s (rtcToCarry 32900)

/-- BACKUP_DOMAIN_WRITE_EFFECTIVE (R445, R446, R449): the next oscillator edge. -/
def execBackupDomainWriteEffective (s : State) : Host.Outcome State Fault Refusal := onCtl s rtcEdge

/-- OSC_STOP_DETECTED (R440). -/
def execOscStopDetected (s : State) : Host.Outcome State Fault Refusal := onCtl s oscStop

/-- The effect of RTC_TIME_READ, with the answer that leaves to an LD. -/
def rtcTimeReadOp (c : Ctl) (ini off size : Nat) : Ctl :=
  let r := off - 0x7C0000
  if 0x7C0008 ≤ off && off < 0x7C0020 then
    regRead c ini off size (fun c =>
      let (w, c) := rtcShadowRead c ini r size
      emit c (.cxlIoData ini off w))
  else c

/-- RTC_TIME_READ (R443, R444). -/
def execRtcTimeRead (ini : Byte) (off : BitVec 32) (size : Nat) (s : State) : Host.Outcome State Fault Refusal :=
  onCtl s (fun c => rtcTimeReadOp c ini.toNat off.toNat size)

/-- FREEZE_EXPIRY (R443). -/
def execFreezeExpiry (ini : Byte) (s : State) : Host.Outcome State Fault Refusal := onCtl s (fun c => freezeEnd c ini.toNat)

/-- HALT (R445). -/
def execRtcHalt (ini : Byte) (s : State) : Host.Outcome State Fault Refusal :=
  onCtl s (fun c => regWrite c ini.toNat 0x7C0030 8 rtcSetHalt)

/-- RESUME (R445, R447). -/
def execRtcResume (ini : Byte) (s : State) : Host.Outcome State Fault Refusal :=
  onCtl s (fun c => regWrite c ini.toNat 0x7C0030 8 rtcClearHalt)

/-- The SECONDS and FRACTION that a write of a time register covers: bytes of the register not covered keep their value (R11, R446). -/
def timeWriteFields (r : Rtc) (off size val : Nat) : Option (BitVec 40) × Option (BitVec 24) :=
  let sec := (r.heldSec.getD r.seconds).toNat
  if off == 0x08 then (none, some (BitVec.ofNat 24 (val / 256)))
  else if off == 0x18 && size == 8 then (some (BitVec.ofNat 40 val), none)
  else if off == 0x18 then (some (BitVec.ofNat 40 (sec / 2 ^ 32 * 2 ^ 32 + val % 2 ^ 32)), none)
  else if off == 0x1C then (some (BitVec.ofNat 40 (val % 256 * 2 ^ 32 + sec % 2 ^ 32)), none)
  else (none, none)

/-- A write of a time register at an offset within the block (R446). -/
def timeWriteOp (c : Ctl) (ini off size val : Nat) : Ctl :=
  let (sec, frac) := timeWriteFields c.rtc off size val
  if sec.isNone && frac.isNone then c
  else if c.rtc.halt then rtcAcceptTime c sec frac
  else illegal (onRtc c (fun r => { r with ignored := satInc r.ignored 0xFFFF })) ini

/-- TIME_WRITE (R446). -/
def execTimeWrite (ini : Byte) (off : BitVec 32) (size : Nat) (val : Word) (s : State) : Host.Outcome State Fault Refusal :=
  onCtl s (fun c =>
    if blkOf off.toNat == .rtc then
      regWrite c ini.toNat off.toNat size (fun c => timeWriteOp c ini.toNat (off.toNat - 0x7C0000) size val.toNat)
    else c)

/-- ALARM_ARM (R453). -/
def execAlarmArm (ini : Byte) (val : Word) (s : State) : Host.Outcome State Fault Refusal :=
  onCtl s (fun c => regWrite c ini.toNat 0x7C0020 8 (fun c => alarmWrite c (val ||| 0x10000000000).toNat))

/-- ALARM_DISARM (R453). -/
def execAlarmDisarm (ini : Byte) (val : Word) (s : State) : Host.Outcome State Fault Refusal :=
  onCtl s (fun c => regWrite c ini.toNat 0x7C0020 8 (fun c => alarmWrite c (val &&& 0xFFFFFEFFFFFFFFFF).toNat))

/-- A write of RTC_TRIM.TRIM (R449, R451). -/
def trimWrite (c : Ctl) (ini : Nat) (v : Int) : Ctl :=
  if v.natAbs > 8192 then illegal c ini
  else trimAbandon (onRtc c (fun r => { r with trim := v, trimSrc := 3 })) .written

/-- TRIM (R449). -/
def execRtcTrim (ini : Byte) (trim : BitVec 16) (s : State) : Host.Outcome State Fault Refusal :=
  onCtl s (fun c => regWrite c ini.toNat 0x7C0038 8 (fun c => trimWrite c ini.toNat trim.toInt))

/-- A write of RTC_CTRL.TRIM_START (R450). -/
def trimStartOp (c : Ctl) (ini : Nat) : Ctl :=
  if c.rtc.measRes == .running || c.rtc.timeRef == 0 then illegal c ini else trimBegin c

/-- TRIM_START (R450). -/
def execTrimStart (ini : Byte) (s : State) : Host.Outcome State Fault Refusal :=
  onCtl s (fun c => regWrite c ini.toNat 0x7C0030 8 (fun c => trimStartOp c ini.toNat))

/-- TRIM_PERIOD_EXPIRY (R450). -/
def execTrimPeriodExpiry (s : State) : Host.Outcome State Fault Refusal := onCtl s (fun c => if aonOn c then trimBegin c else c)

/-- TRIM_MEASUREMENT_END (R451). -/
def execTrimMeasurementEnd (count : Nat) (s : State) : Host.Outcome State Fault Refusal :=
  onCtl s (fun c => if aonOn c && c.rtc.measRes == .running then trimFinish c count else c)

/-- The configured reference is absent for 3 s (R389, R451). -/
def timeRefLostOp (c : Ctl) : Ctl :=
  trimAbandon (beginCond (onRtc c (fun r => { r with refLost := true })) 0x2F2 0x09 0) .refLost

/-- TIME_REF_LOST (R451). -/
def execTimeRefLost (s : State) : Host.Outcome State Fault Refusal :=
  onCtl s (fun c => if aonOn c && c.rtc.timeRef != 0 then timeRefLostOp c else c)

/-- Both causes of PWR_ON_REQ clear (R456). -/
def cancelReqOp (c : Ctl) : Ctl := onRtc c (fun r => { r with causeAlarm := false, causeRestore := false })

/-- CANCEL_REQ (R456). -/
def execCancelReq (ini : Byte) (s : State) : Host.Outcome State Fault Refusal :=
  onCtl s (fun c => regWrite c ini.toNat 0x7C0030 8 cancelReqOp)

/-- VBAT crosses 2.0 V while the always-on supply is present (R389). -/
def vbatLowOp (c : Ctl) (low : Bool) : Ctl :=
  setCond (onRtc c (fun r => { r with vbatLow := low })) 0x2F1 0x0E 0 low

/-- VBAT_LOW (R389). -/
def execVbatLow (low : Bool) (s : State) : Host.Outcome State Fault Refusal :=
  onCtl s (fun c => if aonOn c then vbatLowOp c low else c)

end Sys2Proof.Machine
end

