-- ==== Sys2Proof/Machine/Alcove.lean ====
section
/-! DEFINITION. Machine/Alcove.lean: the Alcove controller: records, write buffer, journal, rings, window, lock and margin scan (R415 to R438). -/
namespace Sys2Proof.Machine

def onAlc (c : Ctl) (f : Alc → Alc) : Ctl := { c with alc := f c.alc }

/-! ## Record slots (R424 to R427) -/

def RecSlot.blank : RecSlot := { a := .blank, b := .blank }

def slotAt (c : Ctl) (id : Nat) : RecSlot := tgetD c.alc.recs id RecSlot.blank

/-- The copy in use: the valid one, of two valid ones the one with the higher SEQ, copy A on equal SEQ (R425). -/
def RecSlot.pick (s : RecSlot) : Option (Nat × RecVal) :=
  match s.a, s.b with
  | .valid i v, .valid j w => if j > i then some (j, w) else some (i, v)
  | .valid i v, _ => some (i, v)
  | _, .valid j w => some (j, w)
  | _, _ => none

/-- Neither copy is valid and one of them is not blank (R427). -/
def RecSlot.isDamaged (s : RecSlot) : Bool := s.pick.isNone && (s.a != .blank || s.b != .blank)

/-- Whether the copy not in use differs from the one in use (R425). -/
def RecSlot.differs (s : RecSlot) : Bool :=
  match s.pick with
  | some (i, v) => s.a != .valid i v || s.b != .valid i v
  | none => false

/-- Offset of a record's slot within each copy area, and the slot's size (R426). -/
def recPlace (id : Nat) : Nat × Nat :=
  match id with
  | 0x01 => (0x0000, 1024) | 0x02 => (0x0400, 256) | 0x03 => (0x0500, 256) | 0x04 => (0x0600, 1536)
  | 0x05 => (0x0C00, 256) | 0x06 => (0x0D00, 256) | 0x07 => (0x0E00, 256) | 0x08 => (0x0F00, 1280)
  | 0x09 => (0x1400, 256) | 0x0A => (0x1500, 768) | 0x0B => (0x1800, 2048)
  | n => (0x2000 + 0x200 * (n - 0x20), 512)

/-- Payload length of a record (R426, R318): the size the spec gives, otherwise all the slot leaves (log entry 20). -/
def recLen (id : Nat) (v : RecVal) : Nat :=
  match v with
  | .pair _ => 5
  | .erase _ bs => 16 + 4 * bs.length
  | .wear _ => 1024
  | _ => (recPlace id).2 - 0x14

/-- Bytes a buffered write occupies (R428). -/
def bufSize : BufW → Nat
  | .record id v => (20 + recLen id v + 7) / 8 * 8
  | .win _ _ => 8

/-- ALC_STATUS.BUF_BYTES (R428). -/
def bufBytes (c : Ctl) : Nat := c.alc.buf.foldl (fun n w => n + bufSize w) 0

/-- A later write replaces an earlier one to the same bytes (R428). -/
def sameBytes : BufW → BufW → Bool
  | .record i _, .record j _ => i == j
  | .win a _, .win b _ => a == b
  | _, _ => false

def bufInsert (l : List BufW) (w : BufW) : List BufW :=
  if l.any (sameBytes w) then modFirst (sameBytes w) (fun _ => w) l else l ++ [w]

/-- The newest value of a record that waits to be committed. -/
def recWaiting (c : Ctl) (id : Nat) : Option RecVal :=
  match c.alc.urgent.findRev? (fun x => x.1 == id) with
  | some (_, v) => some v
  | none =>
    match c.alc.buf.findRev? (fun w => match w with | .record i _ => i == id | _ => false) with
    | some (.record _ v) => some v
    | _ => none

/-- The value of a record that every reader sees: one waiting to be committed before the stored one (R428). -/
def recOf (c : Ctl) (id : Nat) : Option RecVal :=
  match recWaiting c id with
  | some v => some v
  | none => (slotAt c id).pick.map (fun x => x.2)

/-! ## Wear (R437) -/

/-- Accesses to a page are counted; passing 9 × 10^13 raises ALC_ENDURANCE. -/
def touchPage (c : Ctl) (page n : Nat) : Ctl :=
  let old := tgetD c.alc.wear page 0
  let c := if n == 0 then c else onAlc c (fun a => { a with wear := tset a.wear page (old + n) })
  if old ≤ 90000000000000 && old + n > 90000000000000 then raiseAt c 0x2EB 0 (page * 4096) 0xFF 0 else c

/-- Accesses to n words from an offset, which lie in one page or two. -/
def touchWords (c : Ctl) (off n : Nat) : Ctl :=
  let room := 512 - (off % 4096) / 8
  let c := touchPage c (off / 4096) (Nat.min n room)
  if n ≤ room then c else touchPage c (off / 4096 + 1) (n - room)

/-! ## Reading words -/

/-- A block as the ERASE_INTENT record names it (R318): bits 24:21 channel, 20:19 target, 18:16 LUN, 15:0 block. -/
def intentBlock (targets k : Nat) : Nat :=
  let l := k / 65536
  (l % 16) * 2 ^ 21 + (l / 16 % targets) * 2 ^ 19 + (l / 16 / targets) * 2 ^ 16 + k % 65536

/-- The content of a record as numbers. -/
def recFields : RecVal → List Nat
  | .vault v => v.id.toNat :: v.geom.length :: v.geom ++ v.recArea.length :: v.recArea ++ v.dimms
  | .landing v => [v.newest, b2n v.newestRetired, v.pred, b2n v.predRetired, v.next, v.reserve, v.saves]
  | .attempt v => [v.seq, v.cause, v.time.toNat]
  | .erase n bs => n :: bs
  | .pair v => [v.lastEpoch, v.proposed, b2n v.pending]
  | .hold v => [v.cMf, v.esr, v.v0, v.time.toNat, v.iTest, v.scale]
  | .protect n => [n]
  | .wear t => t.flatMap (fun x => [x.1, x.2])
  | .margin n w => [n, w.toNat]
  | .marks l => l
  | .seq p => [p.up, p.down, p.shed, p.trip, p.rails.length] ++ p.rails.flatMap (fun r => [r.cfg.toNat, r.pmb.toNat])
      ++ p.words.length :: p.words.map BitVec.toNat ++ p.data.map BitVec.toNat
  | .train v => [v.serial, v.rate, v.params.toNat]

/-- The payload of a record (R426): as R318 lays out ERASE_INTENT, one count of 8 B per page in WEAR, the fields of PAIR in the order
R426 names them (log entry 20); of the others the bytes are free. -/
def recPayload (targets id seq : Nat) (v : RecVal) : List Byte :=
  match v with
  | .erase n bs => bytesOf 8 n ++ bytesOf 2 bs.length ++ bytesOf 6 0 ++ bs.flatMap (fun k => bytesOf 4 (intentBlock targets k))
  | .wear t => (List.range 128).flatMap (fun i => bytesOf 8 (tgetD t i 0))
  | .pair r => bytesOf 2 r.lastEpoch ++ bytesOf 2 r.proposed ++ bytesOf 1 (b2n r.pending)
  | _ => (List.range (recLen id v)).map (Config.recordByte id seq (recFields v))

/-- A record copy (R424): header, payload and CRC-32C. -/
def copyBytes (targets id seq : Nat) (v : RecVal) : List Byte :=
  let l := bytesOf 2 id ++ bytesOf 2 (recLen id v) ++ [1] ++ bytesOf 3 0 ++ bytesOf 8 seq ++ recPayload targets id seq v
  l ++ bytesOf 4 (crc32c l)

/-- Word i of bytes, with zeros after their end. -/
def wordIn (l : List Byte) (i : Nat) : Word := BitVec.ofNat 64 (ofBytes ((l.drop (8 * i)).take 8))

/-- A word of a record copy (R424). -/
def copyWord (targets id off : Nat) (x : Copy) (i : Nat) : Word :=
  match x with
  | .blank => 0
  | .damaged => Config.alcoveWord off 0
  | .valid s v => wordIn (copyBytes targets id s v) i

/-- The offset and the bytes that an extent writes (R429). -/
def extentData (targets : Nat) : Extent → Nat × List Byte
  | .copyA id s v => (0x8000 + (recPlace id).1, copyBytes targets id s v)
  | .copyB id s v => (0x24000 + (recPlace id).1, copyBytes targets id s v)
  | .word off w => (off, bytesOf 8 w.toNat)

/-- Bytes padded to whole words. -/
def padWords (l : List Byte) : List Byte := l ++ List.replicate ((8 - l.length % 8) % 8) 0

/-- Extents that follow one another in the array are one extent of the journal (log entry 20). -/
def joinExtents : List (Nat × List Byte) → List (Nat × List Byte)
  | [] => []
  | (o, l) :: xs =>
    match joinExtents xs with
    | (p, m) :: ys => if p == o + l.length then (o, l ++ m) :: ys else (o, l) :: (p, m) :: ys
    | [] => [(o, l)]

/-- The extents of a journal as its table lists them (R429). -/
def tableOf (targets : Nat) (es : List Extent) : List (Nat × List Byte) :=
  joinExtents (es.map (fun e => ((extentData targets e).1, padWords (extentData targets e).2)))

/-- The journal body (R429): the table, 8 B an extent, then the data in table order. -/
def journalBody (targets : Nat) (es : List Extent) : List Byte :=
  let t := tableOf targets es
  t.flatMap (fun x => bytesOf 8 (x.1 + x.2.length * 2 ^ 32)) ++ t.flatMap (fun x => x.2)

/-- The first 16 bytes of the journal header (R429). -/
def journalHead (targets : Nat) (j : Journal) : List Byte :=
  let body := journalBody targets j.extents
  bytesOf 8 j.commitSeq ++ bytesOf 2 (tableOf targets j.extents).length ++ bytesOf 2 body.length ++ bytesOf 4 (crc32c body)

/-- A word of the journal area (R429). Header and body that are not whole, and what lies after the body, are free. -/
def journalWord (targets : Nat) (j : Journal) (off : Nat) : Word :=
  if j.blank then 0
  else if off == 0x1038 then BitVec.ofNat 64 j.state
  else if j.commitSeq == 0 then 0
  else if !j.whole then Config.alcoveWord off j.commitSeq
  else if off < 0x1010 then wordIn (journalHead targets j) ((off - 0x1000) / 8)
  else if off == 0x1010 then BitVec.ofNat 64 (crc32c (journalHead targets j))
  else if off < 0x1038 then 0
  else if off - 0x1040 < (journalBody targets j.extents).length then wordIn (journalBody targets j.extents) ((off - 0x1040) / 8)
  else Config.alcoveWord off j.commitSeq

/-- The four words of a log entry (FCU_LOG). -/
def logWord (e : LogEntry) (i : Nat) : Word :=
  match i with
  | 0 => e.time
  | 1 => BitVec.ofNat 64 (e.addr % 2 ^ 52 + e.access * 2 ^ 52 + e.rgen * 2 ^ 56)
  | 2 => BitVec.ofNat 64 (e.source + e.kind * 2 ^ 10 + e.ini * 2 ^ 16 + e.rep * 2 ^ 24 + e.seq * 2 ^ 32)
  | _ => BitVec.ofNat 64 (e.cls + 8 * b2n e.stale + 16 * b2n e.conseq + 32 * b2n e.fenced + 64 * b2n e.forced
      + 128 * b2n e.fromAlcove + e.reaction * 2 ^ 12 + e.cause * 2 ^ 32)

/-- The bytes of a ring slot with its CRC-32C (R434). -/
def slotBytes (seq : Nat) (v : RingVal) : List Byte :=
  match v with
  | .count n =>
    let l := bytesOf 8 n ++ bytesOf 8 seq ++ bytesOf 12 0
    l ++ bytesOf 4 (crc32c l)
  | .fault e =>
    let l := bytesOf 8 (logWord e 0).toNat ++ bytesOf 8 (logWord e 1).toNat ++ bytesOf 8 (logWord e 2).toNat
      ++ bytesOf 8 (logWord e 3).toNat ++ bytesOf 8 seq ++ bytesOf 20 0
    l ++ bytesOf 4 (crc32c l)

/-- Bytes of a slot of a ring (R433). -/
def ringSlotSize (r : Nat) : Nat := if r == 5 then 64 else 32

/-- A word of a ring area. -/
def ringWord (c : Ctl) (off : Nat) : Word :=
  let r := (off - 0x3000) / 0x800
  let p := (off % 0x800) / ringSlotSize r
  match tget (aringAt c r).slots p with
  | none => 0
  | some .torn => Config.alcoveWord off 0
  | some (.valid s v) => BitVec.ofNat 64 (ofBytes ((slotBytes s v).drop (off % ringSlotSize r) |>.take 8))

/-- The record whose slot covers an offset of a copy area. -/
def recAt (off : Nat) : Option Nat :=
  (List.range 0x40).find? (fun id => ((0x01 ≤ id && id ≤ 0x0B) || 0x20 ≤ id) && (recPlace id).1 ≤ off && off < (recPlace id).1 + (recPlace id).2)

/-- A word of the array as stored, by byte offset (R418); what a read of an uncorrectable word gives is free. -/
def arrayWord (c : Ctl) (off : Nat) : Word :=
  if c.alc.lost.contains off then Config.alcoveWord off 0
  else if off < 0x1000 || off ≥ 0x40000 then BitVec.ofNat 64 (ofBytes (cread 0 c.alc.cells off 8))
  else if off < 0x3000 then journalWord c.vlt.targets c.alc.journal off
  else if off < 0x7000 then ringWord c off
  else if off < 0x8000 then 0
  else
    let o := if off < 0x24000 then off - 0x8000 else off - 0x24000
    match recAt o with
    | none => 0
    | some id => copyWord c.vlt.targets id off (if off < 0x24000 then (slotAt c id).a else (slotAt c id).b) ((o - (recPlace id).1) / 8)

/-- The SEQ that a record's next update takes (R424). -/
def nextSeq (c : Ctl) (id : Nat) : Nat := ((slotAt c id).pick.map (fun x => x.1)).getD 0 + 1

/-- A word with newer data of the write buffer merged (R423). -/
def mergedWord (c : Ctl) (off : Nat) : Word :=
  let o := if off < 0x24000 then off - 0x8000 else off - 0x24000
  let rec? := if off < 0x8000 || off ≥ 0x40000 then none else (recAt o).bind (fun id => (recWaiting c id).map (fun v => (id, v)))
  match c.alc.buf.findRev? (fun w => match w with | .win o _ => o == off | _ => false), rec? with
  | some (.win _ w), _ => w
  | _, some (id, v) => copyWord c.vlt.targets id off (.valid (nextSeq c id) v) ((o - (recPlace id).1) / 8)
  | _, _ => arrayWord c off

/-- The words of a page for the page buffer, the zero words left out. -/
def renderPage (c : Ctl) (page : Nat) : Tbl Word :=
  (List.range 512).filterMap (fun i => let w := mergedWord c (page * 4096 + 8 * i); if w == 0 then none else some (i, w))

/-- The identity page (R420, R482); with an uncorrectable word it is not valid. -/
def page0Bytes (c : Ctl) : List Byte := cread 0 c.alc.cells 0 4096
def page0Valid (c : Ctl) : Bool :=
  let l := page0Bytes c
  c.alc.lost.all (fun o => 0x1000 ≤ o) && ofBytes (l.take 8) == 0x544E44494E4C564E && ofBytes ((l.drop 8).take 2) == 1
    && ofBytes (l.drop 0xFFC) == crc32c (l.take 0xFFC)
def page0Class (c : Ctl) : Page0 :=
  if page0Valid c then (if c.alc.locked then .locked else .written)
  else if c.alc.lost.all (fun o => 0x1000 ≤ o) && (page0Bytes c).all (fun b => b == 0) then .blank else .damaged

/-! ## Commits (R428 to R430) -/

/-- The extents a list of buffered writes commits to (R429): each record to both copies under its next SEQ. -/
def extentsOf (c : Ctl) : List BufW → List Extent
  | [] => []
  | .record id v :: l =>
    .copyA id (nextSeq c id) v :: .copyB id (nextSeq c id) v :: extentsOf c l
  | .win off w :: l => .word off w :: extentsOf c l

/-- One extent is written to its home location. The macro refuses writes to a locked page 0 (R421). -/
def applyExtent (c : Ctl) (e : Extent) : Ctl :=
  match e with
  | .copyA id s v =>
    let c := onAlc c (fun a => { a with recs := tmod a.recs id RecSlot.blank (fun x => { x with a := .valid s v }) })
    touchWords c (0x8000 + (recPlace id).1) ((20 + recLen id v + 7) / 8)
  | .copyB id s v =>
    let c := onAlc c (fun a => { a with recs := tmod a.recs id RecSlot.blank (fun x => { x with b := .valid s v }) })
    touchWords c (0x24000 + (recPlace id).1) ((20 + recLen id v + 7) / 8)
  | .word off w =>
    if off < 0x1000 && c.alc.locked then c
    else touchWords (onAlc c (fun a => { a with cells := cwrite 0 a.cells off (bytesOf 8 w.toNat), lost := a.lost.filter (fun o => o != off) })) off 1

/-- The other copy of each record is rewritten where it differs from the one in use (R425). -/
def mendCopies (c : Ctl) : Ctl :=
  (c.alc.recs.filter (fun x => x.2.differs)).foldl (fun c x => match x.2.pick with
    | some (s, v) =>
      let base := if x.2.a == .valid s v then 0x24000 else 0x8000
      touchWords (onAlc c (fun a => { a with recs := tset a.recs x.1 { a := .valid s v, b := .valid s v } }))
        (base + (recPlace x.1).1) ((20 + recLen x.1 v + 7) / 8)
    | none => c) c

/-- The loaded page receives the words that a commit or ring write wrote (R423). -/
def refreshPage (c : Ctl) (touched : Nat → Bool) : Ctl :=
  if c.alc.winLoaded then onAlc c (fun a => { a with pageBuf := (List.range 512).filterMap (fun i =>
    let off := a.winPage * 4096 + 8 * i
    let w := if touched off then arrayWord c off else tgetD a.pageBuf i 0
    if w == 0 then none else some (i, w)) })
  else c

/-- The offset and the length of what an extent writes: a record copy fills its slot (R424). -/
def extentSpan : Extent → Nat × Nat
  | .copyA id _ _ => (0x8000 + (recPlace id).1, (recPlace id).2)
  | .copyB id _ _ => (0x24000 + (recPlace id).1, (recPlace id).2)
  | .word off _ => (off, 8)

/-- What a commit writes: the journal and its extents, and the copies rewritten with it (R425, R429). -/
def commitTouches (c : Ctl) (es : List Extent) (off : Nat) : Bool :=
  (0x1000 ≤ off && off < 0x3000) || es.any (fun e => (extentSpan e).1 ≤ off && off < (extentSpan e).1 + (extentSpan e).2)
    || c.alc.recs.any (fun x => x.2.differs && (
        [0x8000, 0x24000].any (fun b => b + (recPlace x.1).1 ≤ off && off < b + (recPlace x.1).1 + (recPlace x.1).2)))

/-- Entries of the journal's table: window words that follow one another share one (R429, log entry 20). -/
def tableCount (es : List Extent) : Nat :=
  (es.foldl (fun (p : Nat × Nat) e => match e with
    | .word o _ => (o + 8, if p.1 == o then p.2 else p.2 + 1)
    | _ => (1, p.2 + 1)) (1, 0)).2

/-- Words of the journal body: 8 B of table for each extent and its data (R429). -/
def bodyWords (es : List Extent) : Nat := (es.foldl (fun n e => n + (match e with
    | .copyA id _ v | .copyB id _ v => (20 + recLen id v + 7) / 8
    | .word _ _ => 1)) 0) + tableCount es

/-- A whole commit through the journal (R429, steps 1 to 6). -/
def commitExtents (c : Ctl) (es : List Extent) : Ctl :=
  let c := touchWords c 0x1000 10
  let c := touchWords c 0x1040 (bodyWords es)
  let c := es.foldl applyExtent c
  let touched := commitTouches c es
  let c := onAlc (mendCopies c) (fun a => { a with
    journal := { blank := false, state := 2, whole := true, commitSeq := a.journal.commitSeq + 1, extents := es },
    commits := (a.commits + 1) % 2 ^ 32 })
  refreshPage c touched

/-- The write buffer is committed (R428). -/
def commitBuf (c : Ctl) : Ctl :=
  let c := if c.alc.buf.isEmpty then c
    else onAlc (commitExtents c (extentsOf c c.alc.buf)) (fun a => { a with buf := [] })
  onAlc c (fun a => { a with busy := false })

/-- A write enters the buffer; a full buffer is committed first (R428). -/
def bufPut (c : Ctl) (w : BufW) : Ctl :=
  let fits := c.alc.buf.any (sameBytes w) || bufBytes c + bufSize w ≤ 4096
  let c := if fits then c else commitBuf c
  onAlc c (fun a => { a with buf := bufInsert a.buf w })

/-- A gathered record write (R428). -/
def recGather (c : Ctl) (id : Nat) (v : RecVal) : Ctl := bufPut c (.record id v)

/-- A sync record write commits the buffer at once (R428). -/
def recSync (c : Ctl) (id : Nat) (v : RecVal) : Ctl := commitBuf (bufPut c (.record id v))

/-- An urgent record write waits for its own commit (R430). -/
def recUrgent (c : Ctl) (id : Nat) (v : RecVal) : Ctl := onAlc c (fun a => { a with urgent := a.urgent ++ [(id, v)] })

/-- The urgent commit (R430): its records alone, taken out of the buffer; the fault entries that wait for it follow at once, and the
rest of the buffer is committed after it. -/
def commitUrgent (c : Ctl) : Ctl :=
  if c.alc.urgent.isEmpty then c
  else
    let ws := c.alc.urgent.map (fun x => BufW.record x.1 x.2)
    let ids := c.alc.urgent.map (fun x => x.1)
    let c := commitExtents c (extentsOf c (ws.foldl bufInsert []))
    let c := onAlc c (fun a => { a with
      urgent := [], ringQ := c.fcu.alcDue.map (fun e => (5, RingVal.fault e)) ++ a.ringQ,
      buf := a.buf.filter (fun w => match w with | .record i _ => !ids.contains i | _ => true) })
    let c := { c with fcu := { c.fcu with alcDue := [] } }
    onAlc c (fun a => { a with busy := a.busy || !a.buf.isEmpty })

/-! ## Rings (R434, R435) -/

/-- The slot after the newest is written (R435). -/
def ringWrite (c : Ctl) (r : Nat) (v : RingVal) : Ctl :=
  let a := aringAt c r
  let s := a.newest + 1
  let p := s % ringSlots r
  let c := onAlc c (fun x => { x with rings := tset x.rings r { a with slots := tset a.slots p (.valid s v), newest := s } })
  let off := 0x3000 + 0x800 * r + p * ringSlotSize r
  refreshPage (touchWords c off (ringSlotSize r / 8)) (fun o => off ≤ o && o < off + ringSlotSize r)

/-- The front ring update is written. -/
def ringWriteFront (c : Ctl) : Ctl :=
  match c.alc.ringQ with
  | [] => c
  | (r, v) :: q => ringWrite (onAlc c (fun a => { a with ringQ := q })) r v

/-- Every waiting ring update is written. -/
def ringDrain (c : Ctl) : Ctl := c.alc.ringQ.foldl (fun c _ => ringWriteFront c) c

/-- A slot is valid at its position when its SEQ is not 0 and fits it (R434). -/
def slotValid (r p : Nat) : RSlot → Bool
  | .torn => false
  | .valid s _ => s != 0 && s % ringSlots r == p

/-- The scan of a ring (R435): the newest valid slot, and the torn ones. -/
def scanRing (c : Ctl) (r : Nat) : Ctl :=
  let a := aringAt c r
  let newest := a.slots.foldl (fun n x => match x.2 with
    | .valid s _ => if slotValid r x.1 x.2 && s > n then s else n
    | .torn => n) 0
  let torn := a.slots.filter (fun x => !slotValid r x.1 x.2)
  let c := touchWords c (0x3000 + 0x800 * r) 256
  let c := onAlc c (fun x => { x with rings := tset x.rings r { a with newest := newest, torn := torn.length } })
  match torn with
  | [] => c
  | x :: _ => raiseAt c 0x2E4 0 (0x3000 + 0x800 * r + x.1 * ringSlotSize r) 0xFF 0

/-! ## Power-up recovery (R431) -/

/-- Records rebuilt in the recovery: their empty content, or none for those that then count as absent (R427). -/
def rebuiltAs (id : Nat) : Option RecVal :=
  match id with
  | 0x05 => some (.pair { lastEpoch := 0, proposed := 0, pending := false })
  | 0x07 => some (.protect 3)
  | 0x08 => some (.wear [])
  | 0x09 => some (.margin 0 0)
  | 0x0A => some (.marks [])
  | _ => none

/-- The copy of one record is selected (R425, R427); both slots are read. -/
def selectRec (c : Ctl) (id : Nat) : Ctl :=
  let s := slotAt c id
  let n := (recPlace id).2 / 8
  let c := touchWords (touchWords c (0x8000 + (recPlace id).1) n) (0x24000 + (recPlace id).1) n
  let off := 0x8000 + (recPlace id).1
  let late := id == 0x02 || id == 0x03 || id == 0x04
  match s.a, s.b with
  | .valid i v, .valid j w =>
    if i == j then (if v == w then c else raiseAt c 0x2E0 0x10 off 0xFF 0)
    else raiseAt c 0x2E1 0 off 0xFF 0
  | .valid _ _, _ | _, .valid _ _ => raiseAt c 0x2E1 0 off 0xFF 0
  | _, _ =>
    if !s.isDamaged || late then c
    else if id == 0x01 then raiseAt c 0x2E2 0 off 0xFF 0
    else
      let n : RecSlot := match rebuiltAs id with
        | some v => { a := .valid 1 v, b := .valid 1 v }
        | none => RecSlot.blank
      raiseAt (onAlc c (fun a => { a with recs := tset a.recs id n })) 0x2E3 0 off 0xFF 0

/-- What the journal calls for (R431, steps 1 to 4). -/
def recoverJournal (c : Ctl) : Ctl :=
  let j := c.alc.journal
  if j.blank || j.state == 2 then onAlc c (fun a => { a with lastRecovery := 0 })
  else if j.whole then
    let c := mendCopies (j.extents.foldl applyExtent c)
    raiseAt (onAlc c (fun a => { a with lastRecovery := 1, recoveries := satInc a.recoveries 0xFFFF })) 0x2E5 0 0x1000 0xFF 0
  else if j.state == 1 then raiseAt (onAlc c (fun a => { a with lastRecovery := 3 })) 0x2E8 0x02 0x1000 0xFF 0
  else raiseAt (onAlc c (fun a => { a with lastRecovery := 2, recoveries := satInc a.recoveries 0xFFFF })) 0x2E5 0 0x1000 0xFF 0

/-- The recovery of R431. Its own accesses count beside those that WEAR records (R437). -/
def alcRecover (c : Ctl) : Ctl :=
  let c := recoverJournal (touchWords (onAlc c (fun a => { a with wear := [] })) 0x1000 8)
  let c := onAlc c (fun a => { a with journal := { a.journal with blank := false, state := 2 } })
  let c := (List.range 6).foldl scanRing c
  let c := (List.range 0x40).foldl (fun c id => if (0x01 ≤ id && id ≤ 0x0B) || 0x20 ≤ id then selectRec c id else c) c
  let bp := match recOf c 0x07 with | some (.protect n) => n | _ => 0
  let wear := match recOf c 0x08 with | some (.wear t) => t | _ => []
  let (mp, mt) := match recOf c 0x09 with | some (.margin p t) => (p, t) | _ => (0, 0)
  onAlc c (fun a => { a with bp := bp, wear := a.wear.foldl (fun t x => tmod t x.1 0 (fun n => n + x.2)) wear, marginPage := mp, marginTime := mt, ready := true, faulted := false })

/-- What the array keeps over a loss of the always-on supply (R501); everything else of the controller returns to its reset value. -/
def alcKeep (a : Alc) : Alc :=
  { Alc.reset with recs := a.recs, rings := a.rings, journal := a.journal, locked := a.locked, cells := a.cells, lost := a.lost }

/-- A commit cut short by the loss of supply after n of the steps of R429. -/
def cutCommit (c : Ctl) (es : List Extent) (n : Nat) : Ctl :=
  let seq := c.alc.journal.commitSeq + 1
  let setJ (c : Ctl) (st : Nat) (whole : Bool) : Ctl :=
    onAlc c (fun a => { a with journal := { blank := false, state := st, whole := whole, commitSeq := seq, extents := es } })
  match n with
  | 0 => c
  | 1 => onAlc c (fun a => { a with journal := { a.journal with blank := a.journal.commitSeq == 0, state := 0 } })
  | 2 => setJ c 0 false
  | 3 => setJ c 0 true
  | 4 => setJ c 1 true
  | 5 => setJ (mendCopies (es.foldl applyExtent c)) 1 true
  | _ => setJ (mendCopies (es.foldl applyExtent c)) 2 true

/-- The extents of the commit that runs: an urgent one, or that of a busy buffer. -/
def runningExtents (c : Ctl) : List Extent :=
  if !c.alc.urgent.isEmpty then extentsOf c (c.alc.urgent.map (fun x => BufW.record x.1 x.2))
  else if c.alc.busy then extentsOf c c.alc.buf else []

/-! ## Words that cannot be read (R416) -/

/-- A copy that lies at an offset has an uncorrectable word and is not valid; `both` says that the other copy is not valid either. -/
def copyLost (c : Ctl) (off : Nat) (both : Bool) : Ctl :=
  if off < 0x8000 || 0x40000 ≤ off then c
  else match recAt (if off < 0x24000 then off - 0x8000 else off - 0x24000) with
    | some id => onAlc c (fun a => { a with recs := tmod a.recs id RecSlot.blank (fun x =>
        { a := if both || off < 0x24000 then .damaged else x.a, b := if both || 0x24000 ≤ off then .damaged else x.b }) })
    | none => c

/-- A record whose copies are both lost is rebuilt as R427 says, but for those that wait for the mount. -/
def recRebuild (c : Ctl) (off : Nat) : Ctl :=
  match if off < 0x8000 || 0x40000 ≤ off then none else recAt (if off < 0x24000 then off - 0x8000 else off - 0x24000) with
  | some id =>
    if id ≤ 0x04 then copyLost c off true
    else
      let n : RecSlot := match rebuiltAs id with
        | some v => { a := .valid 1 v, b := .valid 1 v }
        | none => RecSlot.blank
      onAlc c (fun a => { a with recs := tset a.recs id n })
  | none => c

/-- A ring slot at an offset is torn (R416). -/
def slotTear (c : Ctl) (off : Nat) : Ctl :=
  if off < 0x3000 || 0x6000 ≤ off then c
  else
    let r := (off - 0x3000) / 0x800
    let a := aringAt c r
    onAlc c (fun x => { x with rings := tset x.rings r { a with slots := tset a.slots ((off % 0x800) / ringSlotSize r) .torn } })

/-- An uncorrectable word of an area held in a single copy (R416): the journal is no longer whole, a word of page 0 or the OEM area is lost. -/
def wordLost (c : Ctl) (off : Nat) : Ctl :=
  if 0x1000 ≤ off && off < 0x3000 then onAlc c (fun a => { a with journal := { a.journal with whole := false } })
  else if off < 0x1000 || (0x40000 ≤ off && off < 0x80000) then onAlc c (fun a => { a with lost := addNew a.lost (off / 8 * 8) })
  else c

/-- The loss of the always-on supply during a commit, cut after n steps, and during the front ring write, left torn (R417, R431). -/
def alcLoss (c : Ctl) (cut : Option Nat) (torn : Bool) : Ctl :=
  let c := match cut with
    | some n => if (runningExtents c).isEmpty then c else cutCommit c (runningExtents c) n
    | none => c
  match torn, c.alc.ringQ with
  | true, (r, _) :: _ =>
    let a := aringAt c r
    onAlc c (fun x => { x with rings := tset x.rings r { a with slots := tset a.slots ((a.newest + 1) % ringSlots r) .torn } })
  | _, _ => c

/-! ## The window (R423) -/

/-- A write of ALC_WIN_ADDR. -/
def winAddrOp (c : Ctl) (val : Nat) : Ctl :=
  let page := fieldOf val 18 12
  let word := fieldOf val 11 3
  if page == c.alc.winPage && c.alc.winLoaded then onAlc c (fun a => { a with winWord := word })
  else onAlc c (fun a => { a with winPage := page, winWord := word, winLoaded := false, loading := true })

/-- The page load ends. -/
def pageLoadOp (c : Ctl) : Ctl :=
  if c.alc.loading then
    let c := onAlc c (fun a => { a with pageBuf := renderPage c a.winPage, winLoaded := true, loading := false })
    touchPage c c.alc.winPage 512
  else c

/-- A read of ALC_WIN_DATA. -/
def winReadOp (c : Ctl) (ini : Nat) : Word × Ctl :=
  if c.alc.winLoaded then (tgetD c.alc.pageBuf c.alc.winWord 0, onAlc c (fun a => { a with winWord := (a.winWord + 1) % 512 }))
  else (0, illegal c ini)

/-- Window writes the page accepts: the OEM area and the unlocked page 0, where BP allows it (R422, R423). -/
def winWritable (c : Ctl) (page : Nat) : Bool :=
  (64 ≤ page || (page == 0 && !c.alc.locked))
    && (match c.alc.bp with | 0 => true | 1 => page < 96 | 2 => page < 64 | _ => false)

/-- A write of ALC_WIN_DATA. -/
def winWriteOp (c : Ctl) (ini : Nat) (w : Word) : Ctl :=
  let off := c.alc.winPage * 4096 + 8 * c.alc.winWord
  if winWritable c c.alc.winPage then
    let c := bufPut c (.win off w)
    onAlc c (fun a => { a with pageBuf := if a.winLoaded then tset a.pageBuf a.winWord w else a.pageBuf, winWord := (a.winWord + 1) % 512 })
  else raiseAt (onAlc c (fun a => { a with refused := satInc a.refused 0xFFFF })) 0x2E9 0x07 off ini 0x6

/-! ## Lock, protection and margin scan -/

/-- A write of ALC_LOCK.KEY (R421). -/
def keyOp (c : Ctl) (ini key : Nat) : Ctl :=
  if key == 0x4C4F434B && !c.alc.locked then
    let ok := page0Valid c
    let c := touchPage c 0 512
    if ok then onAlc c (fun a => { a with locked := true }) else illegal c ini
  else illegal c ini

/-- A write of ALC_PROTECT.BP (R422). -/
def bpOp (c : Ctl) (ini bp : Nat) : Ctl :=
  if bp < c.alc.bp && c.boot.locked then illegal c ini
  else if bp == c.alc.bp then c
  else recSync (onAlc c (fun a => { a with bp := bp })) 0x07 (.protect bp)

/-- One page of the margin scan (R436). -/
def marginPageOp (c : Ctl) (weak : Nat) : Ctl :=
  let weak := Nat.min weak 512
  let p := c.alc.marginPage
  let c := touchPage c p (512 + weak)
  let hits := (if c.alc.marginRun then c.alc.marginHits else 0) + weak
  if p ≥ 127 then
    let c := onAlc c (fun a => { a with marginRun := false, marginPage := 0, marginHits := 0, marginWords := Nat.min hits 0xFFFF, marginTime := now c })
    let c := recGather c 0x09 (.margin 0 c.alc.marginTime)
    if hits > 0 then raiseF c 0x2E6 0 else c
  else
    let c := onAlc c (fun a => { a with marginRun := true, marginPage := p + 1, marginHits := hits })
    recGather c 0x09 (.margin (p + 1) c.alc.marginTime)

/-! ## The commands -/

/-- FLUSH (R428): the commit of the buffer starts. -/
def flushOp (c : Ctl) : Ctl := onAlc c (fun a => { a with busy := a.busy || !a.buf.isEmpty })

/-- FLUSH (R428). -/
def execAlcFlush (ini : Byte) (s : State) : Host.Outcome State Fault Refusal :=
  onCtl s (fun c => regWrite c ini.toNat 0x780008 8 flushOp)

/-- ALCOVE_COMMIT (R429): the commit that has started ends. -/
def execAlcoveCommit (s : State) : Host.Outcome State Fault Refusal :=
  onCtl s (fun c => if aonOn c && c.alc.ready && c.alc.busy then commitBuf c else c)

/-- GATHERED_WRITE_EXPIRY (R428). -/
def execGatheredWriteExpiry (s : State) : Host.Outcome State Fault Refusal :=
  onCtl s (fun c => if aonOn c && c.alc.ready then flushOp c else c)

/-- URGENT_COMMIT (R430). -/
def execUrgentCommit (s : State) : Host.Outcome State Fault Refusal :=
  onCtl s (fun c => if aonOn c && c.alc.ready then commitUrgent c else c)

/-- RING_SLOT_WRITE (R435). -/
def execRingSlotWrite (s : State) : Host.Outcome State Fault Refusal :=
  onCtl s (fun c => if aonOn c && c.alc.ready then ringWriteFront c else c)

/-- KEY (R421). -/
def execAlcKey (ini : Byte) (key : BitVec 32) (s : State) : Host.Outcome State Fault Refusal :=
  onCtl s (fun c => regWrite c ini.toNat 0x780010 8 (fun c => keyOp c ini.toNat key.toNat))

/-- BP (R422). -/
def execAlcBp (ini : Byte) (bp : Fin 4) (s : State) : Host.Outcome State Fault Refusal :=
  onCtl s (fun c => regWrite c ini.toNat 0x780018 8 (fun c => bpOp c ini.toNat bp.val))

/-- WIN_ADDR_WRITE (R423). -/
def execWinAddrWrite (ini : Byte) (val : Word) (s : State) : Host.Outcome State Fault Refusal :=
  onCtl s (fun c => regWrite c ini.toNat 0x780020 8 (fun c => winAddrOp c val.toNat))

/-- PAGE_LOAD_DONE (R423). -/
def execPageLoadDone (s : State) : Host.Outcome State Fault Refusal :=
  onCtl s (fun c => if aonOn c && c.alc.ready then pageLoadOp c else c)

/-- WIN_DATA_READ (R423). -/
def execWinDataRead (ini : Byte) (s : State) : Host.Outcome State Fault Refusal :=
  onCtl s (fun c => regRead c ini.toNat 0x780028 8 (fun c =>
    let (w, c) := winReadOp c ini.toNat
    emit c (.cxlIoData ini.toNat 0x780028 w)))

/-- WIN_DATA_WRITE (R423). -/
def execWinDataWrite (ini : Byte) (val : Word) (s : State) : Host.Outcome State Fault Refusal :=
  onCtl s (fun c => regWrite c ini.toNat 0x780028 8 (fun c => winWriteOp c ini.toNat val))

/-- MARGIN_SCAN_PAGE (R436). -/
def execMarginScanPage (weak : Nat) (s : State) : Host.Outcome State Fault Refusal :=
  onCtl s (fun c => if aonOn c && c.alc.ready then marginPageOp c weak else c)

/-- WEAR_HOURLY_WRITE (R437). -/
def execWearHourlyWrite (s : State) : Host.Outcome State Fault Refusal :=
  onCtl s (fun c => if aonOn c && c.alc.ready then recGather c 0x08 (.wear c.alc.wear) else c)

end Sys2Proof.Machine
end

