-- ==== Sys2Proof/Machine/Power.lean ====
section
/-! DEFINITION. Machine/Power.lean: what the rail sequencer, the trip, the power-fail detector, the hold-up meter and the dirty budget share (R69 to R79, R241 to R244, R351 to R380). -/
namespace Sys2Proof.Machine

def onSeq (c : Ctl) (f : Seq → Seq) : Ctl := { c with seq := f c.seq }
def onHold (c : Ctl) (f : Hold → Hold) : Ctl := { c with hold := f c.hold }
def onSvr (c : Ctl) (f : Svr → Svr) : Ctl := { c with svr := f c.svr }
def onPf (c : Ctl) (f : Pf → Pf) : Ctl := { c with pf := f c.pf }
def onGlb (c : Ctl) (f : Glb → Glb) : Ctl := { c with glb := f c.glb }

/-! ## Rail table and program (R354, R356, R358) -/

def railOv (r : RailCfg) : Nat := fieldOf r.cfg.toNat 63 52
def railUv (r : RailCfg) : Nat := fieldOf r.cfg.toNat 51 40
def railDisch (r : RailCfg) : Nat := fieldOf r.cfg.toNat 39 28
def railOcEn (r : RailCfg) : Bool := bitOf r.cfg.toNat 8
def railISns (r : RailCfg) : Nat := fieldOf r.cfg.toNat 7 4
def railVSns (r : RailCfg) : Nat := fieldOf r.cfg.toNat 3 0
def railGals (r : RailCfg) : Nat := fieldOf r.pmb.toNat 31 24
def railCore (r : RailCfg) : Bool := bitOf r.pmb.toNat 17
def railPmbValid (r : RailCfg) : Bool := bitOf r.pmb.toNat 16
def railPmbPage (r : RailCfg) : Nat := fieldOf r.pmb.toNat 15 8
def railPmbAddr (r : RailCfg) : Nat := fieldOf r.pmb.toNat 6 0

def RailCfg.blank : RailCfg := { cfg := 0, pmb := 0 }

/-- The rail table entry in force for a rail. -/
def railCfg (c : Ctl) (r : Nat) : RailCfg := (c.seq.prog.map (fun p => p.rails.getD r RailCfg.blank)).getD RailCfg.blank

/-- An instruction of the sequencer (R358). -/
inductive SeqIns where
  | fin
  | enable (level : Bool) (mask : BitVec 16)
  | wait (ms : Bool) (count : Nat)
  | check (rail : Nat) (discharge : Bool) (timeout : Nat)
  | jumpIf (cond : Nat) (neg : Bool) (target : Nat)
  | pmbus (addr cmd len data : Nat)
  | mark (set clr : BitVec 4) (value : Nat)
  | waitev (event timeout : Nat)
  deriving DecidableEq, Repr

/-- COND values that R360 lists. -/
def condListed (n : Nat) : Bool := n ≤ 0x25 || (0x28 ≤ n && n ≤ 0x2B) || n == 0x3F

/-- An instruction word: a listed opcode with zero in every unnamed bit and a listed COND (R356, R358). -/
def seqDecode (w : BitVec 32) : Option SeqIns :=
  let n := w.toNat
  match fieldOf n 31 27 with
  | 0 => if n == 0 then some .fin else none
  | 1 => if fieldOf n 26 17 == 0 then some (.enable (bitOf n 16) (BitVec.ofNat 16 n)) else none
  | 2 => if fieldOf n 26 21 == 0 then some (.wait (bitOf n 20) (fieldOf n 19 0)) else none
  | 3 => if fieldOf n 26 25 == 0 && fieldOf n 19 16 == 0 then some (.check (fieldOf n 24 21) (bitOf n 20) (fieldOf n 15 0)) else none
  | 4 =>
    if fieldOf n 26 22 == 0 && fieldOf n 15 9 == 0 && condListed (fieldOf n 21 16) then
      some (.jumpIf (fieldOf n 21 16) (bitOf n 8) (fieldOf n 7 0))
    else none
  | 5 => if fieldOf n 9 6 == 0 then some (.pmbus (fieldOf n 26 20) (fieldOf n 19 12) (fieldOf n 11 10) (fieldOf n 5 0)) else none
  | 6 =>
    if fieldOf n 26 20 == 0 && fieldOf n 11 8 == 0 then
      some (.mark (BitVec.ofNat 4 (fieldOf n 19 16)) (BitVec.ofNat 4 (fieldOf n 15 12)) (fieldOf n 7 0))
    else none
  | 7 => if fieldOf n 26 18 == 0 then some (.waitev (fieldOf n 17 16) (fieldOf n 15 0)) else none
  | _ => none

/-- The rails a program uses: those an ENABLE drives high or a CHECK names (log entry 21). -/
def railsUsed (p : SeqProg) : List Nat :=
  (List.range 16).filter (fun r => p.words.any (fun w => match seqDecode w with
    | some (.enable true m) => m.getLsbD r
    | some (.check k _ _) => k == r
    | _ => false))

/-- No two equal numbers. -/
def noRepeat : List Nat → Bool
  | [] => true
  | a :: l => !l.contains a && noRepeat l

/-- The rail table meets R354: UV_CODE at most OV_CODE, and a channel serves one rail only. -/
def railTableOk (p : SeqProg) : Bool :=
  let used := railsUsed p
  let at' := fun r => p.rails.getD r RailCfg.blank
  p.rails.length == 16 && p.rails.all (fun r => railUv r ≤ railOv r)
    && noRepeat (used.map (fun r => railVSns (at' r)) ++ (used.filter (fun r => railOcEn (at' r))).map (fun r => railISns (at' r)))

/-- The checks of R356. -/
def progOk (p : SeqProg) : Bool :=
  p.words.length == 256 && p.words.all (fun w => (seqDecode w).isSome) && p.up < 256 && p.down < 256 && p.shed < 256 && p.trip < 256
    && p.data.length == 64 && railTableOk p

/-- The instruction at the program counter, while a program runs and waits for nothing. -/
def seqFetch (c : Ctl) : Option SeqIns :=
  if c.seq.running == .none || c.seq.wait != .none then none
  else match c.seq.prog with
    | some p => (p.words[c.seq.pc]?).bind seqDecode
    | none => none

/-- The program goes on at the next address. -/
def seqNext (c : Ctl) : Ctl := onSeq c (fun s => { s with pc := (s.pc + 1) % 256, wait := .none })

def progCode : Prog → Nat
  | .none => 0 | .up => 1 | .down => 2 | .shed => 3 | .trip => 4

def progEntry (p : SeqProg) : Prog → Nat
  | .up => p.up | .down => p.down | .shed => p.shed | .trip => p.trip | .none => 0

/-- A program starts at its entry point (R357). -/
def seqStart (c : Ctl) (which : Prog) : Ctl :=
  match c.seq.prog with
  | some p => onSeq c (fun s => { s with running := which, pc := progEntry p which, wait := .none, wdog := false, warm := false })
  | none => onSeq c (fun s => { s with running := .none, wait := .none, warm := false })

/-- The running program stops. -/
def seqStop (c : Ctl) : Ctl := onSeq c (fun s => { s with running := .none, wait := .none, warm := false })

/-- Every rail is driven low and no longer supervised (R355). -/
def railsLow (s : Seq) : Seq :=
  { s with rails := s.rails.map (fun r => { r with en := false, running := false, armed := false, lost := r.lost || r.en }) }

/-- The rails of a mask are driven to a level (R355, R358, R359). -/
def railsDrive (c : Ctl) (level : Bool) (mask : BitVec 16) : Ctl :=
  let drive (i : Nat) (r : Rail) : Rail :=
    if !mask.getLsbD i then r
    else if level then (if r.en then r else { r with en := true, running := false, armed := false, driven := true })
    else { r with en := false, running := false, armed := false, lost := true }
  let c := onSeq c (fun s => { s with rails := Vector.ofFn (fun i : Fin 16 => drive i.val (s.rails.get i)) })
  let live := listMask 16 ((List.range 16).filter (fun i => (railAt c i).en))
  let c := emit c (.rail (BitVec.ofNat 16 live))
  if (List.range 16).all (fun i => !(railAt c i).armed) then endCond c 0x2C2 else c

/-- UP starts (R357, R360, R363): from STANDBY every flag clears. -/
def upStart (c : Ctl) (warm : Bool) : Ctl :=
  let c := seqStart c .up
  let c := onSeq c (fun s => { s with upRuns := (s.upRuns + 1) % 2 ^ 16, warm := warm })
  if warm then c
  else onSeq c (fun s => { s with user := 0, evTimeout := false, pmbusFail := false,
                                  rails := s.rails.map (fun r => { r with fail := false, stuck := false, driven := false }) })

/-- The flag a COND selects (R360). -/
def seqCond (c : Ctl) (n : Nat) : Bool :=
  if n < 0x10 then (railAt c n).fail
  else if n < 0x20 then (railAt c (n - 0x10)).stuck
  else match n with
    | 0x20 => (List.range 16).any (fun r => (railAt c r).fail)
    | 0x21 => (List.range 16).any (fun r => (railAt c r).stuck)
    | 0x22 => c.seq.pmbusFail
    | 0x23 => c.seq.warm
    | 0x24 => c.pf.inputGood
    | 0x25 => c.seq.evTimeout
    | 0x28 => c.seq.user.getLsbD 0
    | 0x29 => c.seq.user.getLsbD 1
    | 0x2A => c.seq.user.getLsbD 2
    | 0x2B => c.seq.user.getLsbD 3
    | 0x3F => true
    | _ => false

/-! ## Samples (R353) -/

/-- A sample of a sense channel. -/
def Sns.sample (x : Sns) (code : Nat) : Sns :=
  { code := code, hist := (code :: x.hist).take 16, min := Nat.min x.min code, max := Nat.max x.max code }

def snsSample (c : Ctl) (ch code : Nat) : Ctl := { c with sns := vmod c.sns ch (fun x => x.sample code) }

/-- Bank voltage in mV of a HOLD_SENSE code (R353). -/
def codeMv (c : Ctl) (code : Nat) : Nat := code * 1250 * c.pwrImg.scale / (4096 * 16)

/-! ## Dirty budget (R68 to R79) -/

/-- Risers in one GiB. -/
def risersPerGib : Nat := 4194304

/-- Journal bytes of a flight (R68, R346). -/
def flightBytes (f : Flight) : Nat :=
  if f.own then f.segs.foldl (fun n s => n + 16 + (if s.fill then 16 else (s.len + 15) / 16 * 16)) 0
  else Nat.max f.journal.length (f.segs.foldl (fun n s => n + 16 + (if s.fill then 16 else (s.len + 15) / 16 * 16)) 0)

/-- The dirty set in risers: dirty risers and journals not yet fully applied (R68). -/
def dirtySet (c : Ctl) : Nat :=
  c.gals.foldl (fun n g => n + g.dirty.length) 0 + (c.flights.foldl (fun n f => if f.own && f.st == .journal then n else n + flightBytes f) 0 + 255) / 256

/-- min(db_cfg, db_hold) (R69). -/
def dbBase (c : Ctl) : Nat := Nat.min c.budget.dbCfg c.hold.dbHold

/-- SOLO_FACTOR in eighths; 0 encodes 8/8 (R75). -/
def soloEighths (c : Ctl) : Nat := if c.budget.soloFactor == 0 then 8 else c.budget.soloFactor

/-- DB in force in GiB, never less than 1 (R69). -/
def dbInForce (c : Ctl) : Nat :=
  Nat.max 1 (if c.glb.mode == .solo then dbBase c * soloEighths c / 8 else dbBase c)

/-- SERVICE.SOLO, or a save from it: where the SOLO ceiling of R74 is in force. -/
def soloNow (c : Ctl) : Bool :=
  c.glb.mode == .solo || (c.glb.mode == .save && (c.svr.run.map (fun r => r.saved.fromSt == 9)).getD false)

/-- The ceiling in risers: DB, or the SOLO ceiling of R74 while it lies above it. -/
def ceiling (c : Ctl) : Nat :=
  match c.budget.ramp with
  | some x => if soloNow c then Nat.max (x / 2) (dbInForce c * risersPerGib) else dbInForce c * risersPerGib
  | none => dbInForce c * risersPerGib

/-- DB_EFF in GiB: the DB, or the SOLO ceiling in force rounded up (R75). -/
def dbEffGib (c : Ctl) : Nat := (ceiling c + risersPerGib - 1) / risersPerGib

/-- The ceiling lowers with the dirty set until it reaches the solo DB (R74): in half risers, it stays at most one riser above it. -/
def rampDown (c : Ctl) : Ctl :=
  match c.budget.ramp with
  | some x =>
    let y := Nat.min x (2 * dirtySet c + 2)
    { c with budget := { c.budget with ramp := if y / 2 ≤ dbInForce c * risersPerGib || !soloNow c then none else some y } }
  | none => c

/-- A riser is cleaned (R74): the ceiling lowers by half a riser, so that every second one makes room for a write that dirties a clean riser (DESIGN
CHOICE, log entry 121). -/
def rampClean (c : Ctl) : Ctl := rampDown { c with budget := { c.budget with ramp := c.budget.ramp.map (fun x => x - 1) } }

/-- On entry to SERVICE.SOLO a larger dirty set becomes the ceiling (R74). -/
def rampStart (c : Ctl) : Ctl :=
  let d := dirtySet c
  { c with budget := { c.budget with ramp := if d > dbInForce c * risersPerGib then some (2 * d) else none } }

/-- The cleaner runs at its peak, regardless of pacing (R73, R74). -/
def peakRun (c : Ctl) : Bool := decide (dirtySet c > dbInForce c * risersPerGib) || (soloNow c && c.budget.ramp.isSome)

/-- The throttle delay of a write that dirties a clean riser, in ns (R76). -/
def throttleNs (c : Ctl) : Nat :=
  let d := dirtySet c
  let l := ceiling c
  let g := 2 * risersPerGib
  if g ≤ l - d then 0 else c.budget.throttleMax * 1000 * (g - (l - d) + (d - l)) / g

/-- The dirty set is at the ceiling (R77). -/
def atCeiling (c : Ctl) : Bool := ceiling c ≤ dirtySet c

/-! ## Hold-up meter (R372 to R379) -/

/-- HOLD_CHG_EN (R372): high whenever INPUT_GOOD is 1, no measurement holds it low and FATAL is 0. -/
def chgEn (c : Ctl) : Bool := aonOn c && c.pf.inputGood && c.hold.phase == .idle && !c.glb.fatal

/-- Numerator and denominator of e_usable in J for a start voltage in mV (R375). -/
def energyFrac (c : Ctl) (m : HoldRec) (vs : Nat) : Nat × Nat :=
  let d := c.pwrImg.vmin
  let n := d * d + 100 * m.esr * c.budget.pSave
  if d == 0 || vs * d ≤ n then (0, 1) else (m.cMf * (vs * vs * d * d - n * n), 2 * d * d * 1000000000)

/-- The bank voltage the energy is counted from (R375): the lowest of the last second, or the lowest a running measurement can reach. -/
def startMv (c : Ctl) (low : Nat) : Nat :=
  match c.hold.phase with
  | .idle => low
  | .settle => low - c.pwrImg.droop
  | _ => c.hold.v0 - c.pwrImg.droop

/-- db_hold in GiB for an energy (R70); r_save is in MB/s. -/
def dbOf (c : Ctl) (e : Nat × Nat) : Nat :=
  let p := c.budget.pSave
  if p == 0 then 0 else (4 * e.1 - 5 * c.budget.eFixed * e.2) * c.budget.rSave * 1000000 / (5 * e.2 * p * 2 ^ 30)

/-- The measurement in force that the HOLDUP record holds (R374, R501). -/
def holdRec (c : Ctl) : Option HoldRec :=
  match recOf c 0x06 with
  | some (.hold m) => some m
  | _ => none

/-- A measurement is in force while its HOLDUP record is valid and was taken with I_TEST_MA and HOLD_SCALE as they are (R71, R374); without one
VAULT.START has to measure. -/
def holdCheck (c : Ctl) : Ctl :=
  let m := (holdRec c).filter (fun m => m.iTest == c.pwrImg.iTest && m.scale == c.pwrImg.scale)
  let due := c.glb.mode == .start && m.isNone && c.hold.phase == .idle
  onHold c (fun h => { h with inForce := m, deferred := h.deferred || due })

/-- db_hold for a start voltage, 0 with no measurement in force (R71). -/
def dbHoldAt (c : Ctl) (vs : Nat) : Nat :=
  match c.hold.inForce with
  | some m => dbOf c (energyFrac c m vs)
  | none => 0

/-- In VAULT.START no measurement is in force, and one is in progress or waiting (R72, R376). -/
def holdAwaited (c : Ctl) : Bool := c.glb.mode == .start && c.hold.inForce.isNone && (c.hold.phase != .idle || c.hold.deferred)

/-- HOLDUP_SHORT (R72): db_hold below 1 GiB, but in VAULT.START not while the first measurement is in progress or waiting. Until the mount gives
r_save (R70), db_hold is known only where no measurement is in force: it is 0 (DEDUCED, log entry 122). -/
def holdShort (c : Ctl) : Ctl :=
  if c.budget.rSave == 0 && !(c.glb.mode == .start && c.hold.inForce.isNone) then c
  else if c.hold.dbHold ≥ 1 then endCond c 0x2CA
  else if holdAwaited c then c else beginCond c 0x2CA 0 0

/-- e_usable and db_hold for the lowest voltage of the last second (R375). -/
def recomputeEnergy (c : Ctl) (low : Nat) : Ctl :=
  let vs := startMv c low
  let e := match c.hold.inForce with | some m => energyFrac c m vs | none => (0, 1)
  let c := onHold c (fun h => { h with vStart := vs, eUsable := e.1 / e.2, dbHold := dbHoldAt c vs })
  holdShort (rampDown c)

/-- The conditions under which a measurement starts (R376). -/
def holdReady (c : Ctl) : Bool :=
  c.hold.settled && chgEn c
    && (c.glb.mode == .start
      || (c.glb.mode.service && !c.glb.promoting
          && dirtySet c ≤ dbHoldAt c (c.hold.vBank - c.pwrImg.droop) * risersPerGib))

/-- A measurement starts (R373, step 1). -/
def holdBegin (c : Ctl) : Ctl := onHold c (fun h => { h with phase := .settle, result := 2, deferred := false })

/-- A measurement is asked for: it starts or is deferred (R376). -/
def holdRequest (c : Ctl) : Ctl :=
  if c.hold.phase != .idle then c
  else if holdReady c then holdBegin c else onHold c (fun h => { h with deferred := true })

/-- A measurement asked for by HOLDUP_MEASURE reports its completion (R518). -/
def holdReport (c : Ctl) : Ctl :=
  if c.hold.byCommand then
    let told (c : Ctl) (d : Nat) : Ctl :=
      if (ldAt c d).background == some 0xC012 then msixSend (onLd c d (fun x => { x with background := none })) d 0 else c
    let c := { c with mgmt := { c.mgmt with background := if c.mgmt.background == some 0xC012 then none else c.mgmt.background } }
    onHold ((List.range 64).foldl told c) (fun h => { h with byCommand := false })
  else c

/-- A measurement ends without an accepted result (R374, R377). -/
def holdFail (c : Ctl) (result : Nat) : Ctl :=
  let c := onHold c (fun h => { h with phase := .idle, loadEn := false, result := result })
  holdShort (raiseF (holdReport c) 0x2CB 0)

/-- A measurement in progress ends early (R377). -/
def holdAbort (c : Ctl) (result : Nat) : Ctl := if c.hold.phase == .idle then c else holdFail c result

/-- The result of a measurement (R374): the code of the rejection, or the accepted values. -/
def holdResult (c : Ctl) (v3 : Nat) : Sum Nat HoldRec :=
  let h := c.hold
  let i := c.pwrImg.iTest
  let dv := h.v0 - h.v1
  let rec3 := if v3 ≥ h.v2 then v3 - h.v2 else 0
  let diff := if rec3 ≥ dv then rec3 - dv else dv - rec3
  let cMf := if h.v1 ≤ h.v2 then 0 else i * h.dt / (h.v1 - h.v2) / 1000
  if dv * 4096 * 16 < 2 * 1250 * c.pwrImg.scale || i == 0 then .inl 8
  else if diff * 4 > dv || dv > i then .inl 7
  else if cMf < 100 || cMf > 1000000 then .inl 6
  else .inr { cMf := cMf, esr := dv * 10000 / i, v0 := h.v0, time := now c, iTest := i, scale := c.pwrImg.scale }

/-- The measurement ends and is accepted or rejected (R373 step 6, R374). -/
def holdFinish (c : Ctl) (v3 : Nat) : Ctl :=
  match holdResult c v3 with
  | .inl n => holdFail c n
  | .inr m =>
    let worse := match c.hold.inForce with
      | some p => 10 * m.cMf < 8 * p.cMf || m.esr > 2 * p.esr
      | none => false
    let c := onHold c (fun h => { h with phase := .idle, loadEn := false, result := 1, inForce := some m })
    let c := recSync (holdReport c) 0x06 (.hold m)
    let c := recomputeEnergy c c.hold.vBank
    if worse then raiseF c 0x2CC 0 else c

/-! ## Loss of power to the core -/

/-- The warm token is invalidated (R279). -/
def tokenDrop (c : Ctl) : Ctl :=
  if c.svr.token.isSome then onSvr c (fun s => { s with token := none, tokenState := 5 }) else c

/-- An LD whose head has lost power keeps what the vault restores (R501). -/
def Ld.off (d : Ld) : Ld := { Ld.reset with shutdown := d.shutdown, dirtyCount := d.dirtyCount, qosAlloc := d.qosAlloc, qosLimit := d.qosLimit }

/-- An entry of the hall map that the Steward keeps while DRAM is kept (R501). -/
def Hall.off (h : Hall) : Hall := { h with cold := false, fill := none, warm := [], swept := 0 }

/-- What the vault's media keep when their registers lose power (R501). -/
def Vlt.off (v : Vlt) : Vlt :=
  { v with mount := 0, failCause := 0, openSlab := [], closed := [], appends := [], compacts := [], chans := v.chans.map (fun x => { Vch.reset with fenced := x.fenced }), redone := 0, soft := 0, retried := 0,
           luns := v.luns.map (fun x => (x.1, if x.2.op.isSome then { x.2 with op := none, openBlock := none, openWl := 0 } else x.2)),
           blocks := v.luns.foldl (fun t x => match x.2.op with
             | some (.wordline b _) => tmod t (x.1 * 65536 + b) { use := 1, pe := 1, esn := 0, bad := false, refresh := false, level := false, closed := true, headerOk := true, time := 0, erased := v.initTime }
                 (fun y => { y with closed := true })
             | none => t) v.blocks }

/-- The switched rails are off: every block of R23 above the always-on domain loses its state. -/
def coreOff (c : Ctl) : Ctl :=
  { c with
    budget := Budget.reset
    heads := Vector.replicate 16 Head.reset
    lds := c.lds.map Ld.off
    halls := [], snoops := [], releases := [], tenants := [], reqs := [], rings := [], flights := [], fgen := []
    gals := Vector.replicate 8 Gal.reset
    dchs := Vector.replicate 32 Dch.reset
    twin := Twin.reset
    mgmt := { c.mgmt with background := none }
    hold := { c.hold with byCommand := false }
    pair := { Pair.reset with epoch := c.pair.epoch }
    svr := { c.svr with run := none, fetches := [], fetchWait := [], pulls := [], restorePhase := 0, dfCount := 0, dfMax := 0, unrecovered := 0, toServiceMs := 0,
                        unrestored := TreadSet.empty }
    vlt := c.vlt.off
    throttling := false
    glb := { c.glb with restoring := false, promoting := false } }

/-- The domains of the core stop with their rails (R462). -/
def coreStop (c : Ctl) : Ctl := coreOff (domStop c ([3, 4] ++ unitDoms))

/-- The LDs of this device with an assigned hall. -/
def assignedLds (c : Ctl) : List Nat :=
  (c.halls.flatMap (fun x => (x.2.sharers.filter (fun s => s.here)).map (fun s => s.ld))).foldl sins []

/-- The device stops without a save: where R62 loses writes, their reports are owed at the next start (R63, R280). -/
def lossReport (c : Ctl) : Ctl :=
  let solo := c.glb.mode == .solo || (c.glb.mode == .save && (c.svr.run.map (fun r => r.saved.fromSt == 9)).getD false)
    || ((c.glb.mode == .paired || c.glb.mode == .save) && c.pair.rejoin == .sending)
  if solo then onSvr c (fun s => { s with reportDue := (assignedLds c).foldl sins s.reportDue }) else c

/-- Waiting fault entries of the Alcove no longer wait for an attempt record. -/
def alcDueFlush (c : Ctl) : Ctl :=
  let c := onAlc c (fun a => { a with ringQ := a.ringQ ++ c.fcu.alcDue.map (fun e => (5, RingVal.fault e)) })
  { c with fcu := { c.fcu with alcDue := [] } }

/-- What entering STANDBY brings: the write buffer is committed (R428), and the default classes and FCU_CFG apply (R392, R498, R501). -/
def standbySettle (c : Ctl) : Ctl :=
  let c := alcDueFlush (commitBuf (commitUrgent c))
  { c with fcu := { c.fcu with cls := [], captureMin := Fcu.reset.captureMin, rejected := 0 }, boot := { c.boot with stage := .idle, phase := .none } }

/-! ## DOWN and trips -/

/-- DOWN ends: STANDBY, and the minimum off time starts (R33, R357). A save that ended in DOWN sets restore-pending (R455). -/
def downEnd (c : Ctl) : Ctl :=
  let code := c.seq.downCode
  let c := seqStop (domStop c ([3, 4] ++ unitDoms))
  let c := if code == 0 then c else transition c .standby code c.seq.downIni
  let c := onSeq c (fun s => { s with downCode := 0, downIni := 0xFF })
  let c := onGlb c (fun g => { g with minOff := true })
  let c := if code == 0x38 then onRtc c (fun r => { r with causeRestore := true }) else c
  standbySettle (coreOff c)

/-- DOWN begins; the transition to STANDBY is recorded when it ends (R357; DEDUCED, log entry 14). With no program loaded there is nothing to run. -/
def downStart (c : Ctl) (code ini : Nat) : Ctl :=
  let c := tokenDrop (holdAbort c 4)
  let c := onSeq c (fun s => { s with downCode := code, downIni := ini, offPending := false })
  if c.seq.prog.isSome then seqStart c .down else downEnd c

/-- UP is abandoned and DOWN runs in full (R364): code 0x04 from STANDBY, 0x14 in a warm UP of VAULT.START. -/
def upAbandon (c : Ctl) (ini : Nat) : Ctl := downStart c (if c.glb.mode == .start then 0x14 else 0x04) ini

/-- The reaction of R366 to a trip or an S3 FATAL fault. PWR_TRIP keeps the first record. -/
def tripReact (c : Ctl) (cause rail code ini : Nat) : Ctl :=
  let t := now c
  let first := !c.glb.fatal
  let s := c.seq
  let c := holdAbort (domStop (lossReport c) ([3, 4] ++ unitDoms)) 4
  let c := onSeq c railsLow
  let c := onHold c (fun h => { h with loadEn := false })
  let c := if first then
      onSeq c (fun x => { x with tripN := false, tripCode := code, tripProg := progCode s.running, tripPc := s.pc, tripRail := rail,
                                 tripCause := cause, tripTime := t })
    else c
  let c := emit (emit c (.rail 0)) (.pin "TRIP_N" false)
  let c := transition (onGlb c (fun g => { g with fatal := true })) .standby 0x7F ini
  let c := ringBump c 4
  let c := tokenDrop (onSvr c (fun x => { x with run := none }))
  standbySettle (coreOff (seqStart (onSeq (endCond c 0x2C2) (fun x => { x with warm := false, downCode := 0, offPending := false })) .trip))

/-! ## Saves and power fail -/

/-- An empty save record. -/
def SaveRec.blank : SaveRec :=
  { seq := 0, pred := 0, cause := 0, fromSt := 0, pairedSave := false, unsettledOvf := false, warm := false, restoring := false,
    asnCut := 0, tTrigger := 0, tCutoff := 0, tRecord := 0, pairEpoch := 0, incomplete := [], dbEff := 0, halls := 0, dimmGib := 0,
    holdV := 0, data := [], flights := [], map := [], unsettled := [], changed := none, staleMap := none, soloOps := [], units := [], kinds := [], placed := [], copyA := false,
    copyB := false, blkA := 0, blkB := 0 }

/-- The code of R32 with which a save cause enters VAULT.SAVE. -/
def saveCode (cause : Nat) : Nat := if cause < 0x10 then 0x30 else if cause == 0x10 then 0x31 else 0x32

/-- A sanitize fill stops without a report: its hall stays marked (R127). -/
def fillsStop (c : Ctl) : Ctl :=
  let free (b : Option Nat) : Option Nat := if b == some 0xC003 then none else b
  { c with
    halls := c.halls.map (fun x => (x.1, { x.2 with fill := none }))
    reqs := c.reqs.filter (fun r => match r.src with | .sanitize _ => false | _ => true)
    mgmt := { c.mgmt with background := free c.mgmt.background }
    lds := c.lds.map (fun x => { x with background := free x.background }) }

/-- A save begins (R244, R245): VAULT.SAVE is entered; the cut-off follows. A promotion limited to a gallery stops with the halls where they are
(R40, R225). -/
def saveBegin (c : Ctl) (cause ini source kind : Nat) : Ctl :=
  let t := now c
  let c := fillsStop c
  let c := holdAbort c (if cause < 0x10 then 3 else 4)
  let r : SaveRec := { SaveRec.blank with cause := cause, fromSt := modeCode c.glb.mode, pairedSave := c.glb.mode == .paired, tTrigger := t,
                                          holdV := c.hold.vBank / 10 }
  let c := onSvr c (fun s => { s with run := some { saved := r, jobs := [], cut := false, source := source, kind := kind, downAfter := cause < 0x10, ini := ini } })
  let c : Ctl := { c with pair := { c.pair with xfers := [], xferRetry := [] } }
  transition (onGlb c (fun g => { g with promoting := false })) .save (saveCode cause) ini

/-- A power fail, an OFF request included, in a state that runs DOWN without a save (R244, R362). -/
def failDown (c : Ctl) (codeHold codeVest ini : Nat) : Ctl :=
  if c.seq.running == .down then c
  else match c.glb.mode with
    | .start => if c.seq.running == .up then upAbandon c ini else downStart c 0x14 ini
    | .hold => downStart c codeHold ini
    | .vestibule => downStart c codeVest ini
    | .standby => if c.seq.running == .up then upAbandon c ini else c
    | _ => c

/-- A running save ends in DOWN whatever its cause (R39, R246). -/
def saveDownAfter (c : Ctl) : Ctl :=
  onSvr c (fun s => { s with run := s.run.map (fun r => { r with downAfter := true }) })

/-- A power-fail trigger of the detector (R241, R244): source 1 PF_SENSE, 2 PF_N. -/
def pfTrigger (c : Ctl) (src : Nat) : Ctl :=
  let t := now c
  let c := onPf c (fun p => { p with triggers := (p.triggers + 1) % 2 ^ 16, lastSource := src, time := t })
  let c := holdAbort c 3
  if c.glb.mode.service then saveBegin c src 0xFF 0 0
  else if c.glb.mode == .save then saveDownAfter c
  else failDown c 0x41 0x49 0xFF

/-- INPUT_GOOD follows its inputs; at 0 the 100 ms restart (R33). -/
def inputSettle (c : Ctl) : Ctl :=
  let good := c.pf.senseGood && (!c.pwrImg.pfNEn || c.pf.pfN)
  let c := onPf c (fun p => { p with inputGood := good })
  if good then c else onGlb c (fun g => { g with inputGood100 := false })

end Sys2Proof.Machine
end

