-- ==== Sys2Proof/Machine/Life.lean ====
section
/-! DEFINITION. Machine/Life.lean: entry to VAULT.START, a failed start, entry to VAULT.HOLD and the vestibule (R23, R35, R405, R484 to R488, R493 to R501). -/
namespace Sys2Proof.Machine

def onBoot (c : Ctl) (f : Boot → Boot) : Ctl := { c with boot := f c.boot }
def onVlt (c : Ctl) (f : Vlt → Vlt) : Ctl := { c with vlt := f c.vlt }
def onPair (c : Ctl) (f : Pair → Pair) : Ctl := { c with pair := f c.pair }
def onTwin (c : Ctl) (f : Twin → Twin) : Ctl := { c with twin := f c.twin }

/-- Every head's link goes down and its IDE keys are lost (R53, R130, R496). -/
def headsDown (c : Ctl) : Ctl :=
  let c := domStop c ((List.range 16).map (· + 0x20))
  let c := (List.range 16).foldl (fun c h => if (headAt c h).linkUp then emit c (.headLink h false) else c) c
  { c with heads := c.heads.map (fun x => { x with linkUp := false, rate := 0, width := 0, ideMem := IdeStr.reset, ideIo := IdeStr.reset, memActive := 0, gpf := [] }) }

/-- Every twin link falls silent. -/
def twinOff (c : Ctl) : Ctl :=
  let c := domStop c ((List.range 4).map (· + 0x30))
  let c := (List.range 4).foldl (fun c k => if (linkAt c k).state == .active then emit c (.link k true) else c) c
  onTwin c (fun t => { Twin.reset with
    side := t.side, pairId := t.pairId, wMir := t.wMir, wReq := t.wReq, wBlk := t.wBlk, serLimit := t.serLimit
    links := t.links.map (fun x => { TLink.reset with enabled := x.enabled, media := x.media }) })

/-- The directory SRAM and the vault channels are off (R23). -/
def halfOff (c : Ctl) : Ctl :=
  let c := domStop c ((List.range 9).map (· + 0x10))
  { c with
    gals := c.gals.map (fun g => { g with dir := [], inFlight := [], doze := false, frame := 3 })
    halls := c.halls.map (fun x => (x.1, { x.2 with warm := [], swept := 0 }))
    vlt := c.vlt.off
    reqs := [], snoops := [], releases := [] }

/-- VAULT.HOLD is entered: heads, twin links, directory and vault are off and DRAM is in self-refresh (R23). -/
def holdEntry (c : Ctl) (code ini : Nat) : Ctl :=
  let c := holdAbort c 4
  transition (halfOff (twinOff (headsDown (onGlb c (fun g => { g with promoting := false }))))) .hold code ini

/-- Every start lifts the fences of heads, LDs, gallery memories, ring engines and links (R405); a link's generation follows its
steering instead (R396). -/
def startLift (c : Ctl) : Ctl := (List.range 0x24).foldl (fun c u => liftFence c u (u < 0x20)) c

/-- A condition that still holds raises again at a start (R393). -/
def startRaise (c : Ctl) : Ctl :=
  c.fcu.src.foldl (fun c x => if x.2.condition then raiseF c x.1 x.2.lastKind else c) c

/-- A warm reset after a fault in the collector reloads its class table and clears log and capture (R414). -/
def fcuRecover (c : Ctl) : Ctl :=
  if c.fcu.self then
    { c with fcu := { c.fcu with self := false, selfCause := 0, cls := [], log := [], next := 0, captured := none, captureMore := false } }
  else c

/-- What a start keeps of a gallery that may pass the warm checks: its dirty table (R501). -/
def Gal.warmKeep (g : Gal) : Gal := { Gal.reset with dirty := g.dirty }

/-- What a start keeps of a channel that may pass the warm checks: its training and its marks; GAL_DCH_ECC clears (R501). -/
def Dch.warmKeep (x : Dch) : Dch := { x with ce := 0, ue := 0, ueTimes := [], lastRank := 0, lastSub := 0, lastDev := 0 }

/-- The registers at an entry to VAULT.START (R35, R442, R486, R501): a cold start powers everything up anew, a warm reset keeps what a
warm gallery may keep until its token is checked. -/
def startRegs (c : Ctl) (warm : Bool) : Ctl :=
  let old := c
  let c := if warm && c.alc.faulted then alcRecover c else c
  let c := ringBump (ringPut c 0 (Nat.min 7 (ringValue c 0 + 1))) 3
  let c := if warm then coreStop (headsDown c) else coreOff c
  let c := if warm then
      { c with gals := old.gals.map Gal.warmKeep, dchs := old.dchs.map Dch.warmKeep, halls := old.halls.map (fun x => (x.1, x.2.off)),
               pair := { c.pair with changed := old.pair.changed, stale := old.pair.stale, staleGot := old.pair.staleGot, full := old.pair.full, soloOps := old.pair.soloOps } }
    else c
  let t := now c
  let c := { c with rst := if warm then { c.rst with warmResets := (c.rst.warmResets + 1) % 2 ^ 16, lastKind := 3, time := t }
                           else { c.rst with coldStarts := (c.rst.coldStarts + 1) % 2 ^ 16, lastKind := 2, time := t } }
  let c := onRtc c (fun r => { r with adjusted := false })
  let c := onBoot c (fun b => { b with
    locked := false, phase := .none, stage := if warm then .stage0 else .stage1, warm := warm, pairWaitOver := false, fallback := false, fbProg := none
    vaonMv := 0, xEntry := 0xFF, xDummy := 8, xDdr := false, xMhz := 25 })
  let c := onSvr c (fun s => { s with startTime := t, warmGals := [], failGals := [], lostRisers := [], reported := [], skipParts := [], flightCut := none })
  let c := startRaise (startLift (fcuRecover c))
  if c.hold.inForce.isNone && c.hold.phase == .idle then onHold c (fun h => { h with deferred := true }) else c

/-- Entry to VAULT.START. DRAM that lost power holds nothing (R266); a warm reset keeps it until the token is checked (R277). -/
def startEntry (d : Dev) (warm : Bool) : Dev :=
  { ctl := startRegs d.ctl warm, mem := if warm then d.mem else { d.mem with dram := [], poison := [] } }

/-- VAULT.VESTIBULE is entered: only the Steward, the endpoint and the flash controller run above the always-on domain (R23, R488). -/
def vestibuleEntry (c : Ctl) (ini : Nat) : Ctl :=
  let c := headsDown (twinOff (holdAbort c 4))
  let c := coreOff (seqStop (transition (domStop c unitDoms) .vestibule 0x13 ini))
  onBoot c (fun b => { b with stage := .vestibule, phase := .none })

/-- A start fails (R487, R488): its cause is recorded and a warm reset or the vestibule follows. -/
def startFailOp (d : Dev) (cause : Nat) : Dev :=
  let c := d.ctl
  let slot := if c.boot.runSlot == 1 then c.boot.slotA else c.boot.slotB
  let c := onBoot c (fun b => { b with cause := cause, failTime := now c, lastFailed := true, failedSlot := b.runSlot,
                                       failedVersion := if b.runSlot == 0 then 0 else slot.version })
  let c := raiseAt c 0x2DD 0 cause 0xFF 0
  if bootCount c ≥ c.img.bootLimit then { ctl := vestibuleEntry c 0xFF, mem := { d.mem with dram := [], poison := [] } }
  else startEntry { d with ctl := transition (seqStop (tokenDrop (holdAbort c 4))) .start 0x12 0xFF } true

/-- UP ends on its completion instruction (R32, R357, R363, R461): from STANDBY the device enters VAULT.START, in a warm reset the start
goes on; with the 100 MHz reference absent the start fails. -/
def upEnd (d : Dev) : Dev :=
  let c := d.ctl
  let d := if c.glb.mode == .standby then startEntry { d with ctl := transition (seqStop c) .start 0x03 0xFF } false
    else { d with ctl := onBoot (seqStop c) (fun b => { b with stage := .stage1 }) }
  if d.ctl.clk.ref100 then d else startFailOp d 0x31

end Sys2Proof.Machine
end

