-- ==== Sys2Proof/Machine/Send.lean ====
section
/-! DEFINITION. Machine/Send.lean: how the device places Fehel messages: steering, streams, credits, the replay buffer and the transmit queue (R178 to R197). -/
namespace Sys2Proof.Machine

/-- The device works with its partner: SERVICE.PAIRED, or a save from it whose cut-off is still to come. -/
def pairedNow (c : Ctl) : Bool :=
  c.glb.mode == .paired || (c.glb.mode == .save && (c.svr.run.map (fun r => !r.cut && r.saved.pairedSave)).getD false)

/-! ## Messages (R180, R181) -/

def spaceIdx : Space → Nat
  | .mir => 0 | .req => 1 | .blk => 2

/-- The virtual channel of a message: 0 MIR, 1 REQ, 2 RSP, 3 BLK, 4 for a link-local message (R181). -/
def msgVc : Msg → Nat
  | .mirWr64 .. | .mirWr256 .. | .jrnWr .. | .jrnEnd .. | .jrnDone .. => 0
  | .barrier vc _ _ => vc
  | .prxRd .. | .prxWr64 .. | .prxWrPtl .. | .prxCln .. | .biFwd .. | .role .. => 1
  | .prxRdData .. | .prxCmp .. | .biRsp .. | .roleRsp .. => 2
  | .rsyData .. | .rsyDone .. => 3
  | _ => 4

/-- LEN of a ROLE_REQ subtype (R183). -/
def roleLen : Role → Nat
  | .hello _ => 4 | .hallAdd .. => 2 | .hallRelease .. => 1 | .mapChunk .. => 16 | .staleMap .. => 16 | _ => 0

/-- LEN of a message (R180). -/
def msgLen : Msg → Nat
  | .mirWr64 .. | .prxWr64 .. | .prxRdData .. => 4
  | .mirWr256 .. | .rsyData .. => 16
  | .prxWrPtl .. => 5
  | .jrnWr _ _ _ _ _ n _ => n
  | .role _ r => roleLen r
  | .biRsp _ _ _ d _ => if d.isSome then 4 else 0
  | .roleRsp _ _ _ h => if h.isSome then 4 else 0
  | _ => 0

/-- SUBTYPE of a ROLE_REQ (R183). -/
def roleSub : Role → Nat
  | .hello _ => 1 | .hallAdd .. => 2 | .hallRelease .. => 3 | .homeXfer .. => 4 | .promoted => 5 | .resyncBegin => 6 | .diverged => 7
  | .ldFence .. => 8 | .sanitizeMark .. => 9 | .galFence .. => 0xA | .mapChunk .. => 0xB | .staleMap .. => 0xC | .staleMapEnd .. => 0xD

/-! ## Steering (R191, R192) -/

/-- One round of the steering table: the steered links, then again those of transmit width 4. -/
def steerRound (c : Ctl) : List Nat :=
  c.twin.steered ++ c.twin.steered.filter (fun k => (linkAt c k).txWidth == 4)

/-- The steering index of a riser (R191). -/
def steerIdx (ra : Nat) : Nat :=
  (ra ^^^ (ra / 2 ^ 6) ^^^ (ra / 2 ^ 12) ^^^ (ra / 2 ^ 18) ^^^ (ra / 2 ^ 24) ^^^ (ra / 2 ^ 30) ^^^ (ra / 2 ^ 36)) % 64

/-- Entry i of the steering table (R191). -/
def steerEntry (c : Ctl) (i : Nat) : Option Nat :=
  let r := steerRound c
  if r.isEmpty then none else r[i % r.length]?

/-- The link of a message concerning an address (R192). -/
def steerOf (c : Ctl) (haddr : Nat) : Option Nat := steerEntry c (steerIdx (haddr / 256))

/-- The link of ROLE_REQ messages (R192). -/
def roleLink (c : Ctl) : Option Nat := c.twin.steered.head?

/-- The link of a state in which it carries traffic or keeps what it carries. -/
def linkUp (c : Ctl) (k : Nat) : Bool := (linkAt c k).state == .active || (linkAt c k).state == .retrain

/-! ## Transmit queue (R178, R184, R186, R197) -/

/-- R186: DEPART and PFAULT, HEARTBEAT, STALE and ACK, the responses, then the rest in arrival order. -/
def txRank (m : Msg) : Nat :=
  match m with
  | .depart .. | .pfault .. => 0
  | .heartbeat .. => 1
  | .stale .. | .ack .. => 2
  | m => if msgVc m == 2 then 3 else 4

/-- A message queued behind those of its rank. -/
def txInsert : List Msg → Msg → List Msg
  | [], m => [m]
  | x :: l, m => if txRank m < txRank x then m :: x :: l else x :: txInsert l m

/-- An ACK waiting for the same stream is replaced by a newer one (R189). -/
def sameAck : Msg → Msg → Bool
  | .ack s t _ _, .ack s' t' _ _ => s == s' && t.orig == t'.orig
  | _, _ => false

/-- Credits held for a virtual channel; link-local messages and barriers' channels alike need 1 + LEN, link-local ones none (R184). -/
def hasCredit (l : TLink) (m : Msg) : Bool := msgVc m == 4 || l.credit.getD (msgVc m) 0 ≥ 1 + msgLen m

/-- The channels that share by deficit round robin, with their weights: MIR, REQ, BLK (R186). -/
def drrVc (i : Nat) : Nat := if i == 2 then 3 else i
def drrWeight (t : Twin) (i : Nat) : Nat := if i == 0 then t.wMir else if i == 1 then t.wReq else t.wBlk

/-- The first waiting message of a channel, if the credit for it is held (R184): within a channel the order is kept. -/
def vcHead (l : TLink) (vc : Nat) : Option Msg := (l.txq.find? (fun m => msgVc m == vc)).filter (hasCredit l)

/-- The turn goes to the next channel, which may send its weight in messages of the greatest length, 17 slots, more (DESIGN CHOICE, log entry 98). -/
def drrNext (t : Twin) (l : TLink) : TLink :=
  let i := (l.drrTurn + 1) % 3
  { l with drrTurn := i, drrLeft := lmod l.drrLeft i (fun n => n + 17 * drrWeight t i) }

/-- Deficit round robin in slots over MIR, REQ and BLK (R186): a channel sends while its deficit lasts; one with nothing to send passes its share on. -/
def drrPick (t : Twin) : Nat → TLink → Option Msg × TLink
  | 0, l => ((List.range 3).findSome? (fun i => vcHead l (drrVc i)), l)
  | n + 1, l =>
    match vcHead l (drrVc l.drrTurn) with
    | some m =>
      if 1 + msgLen m ≤ l.drrLeft.getD l.drrTurn 0 then (some m, { l with drrLeft := lmod l.drrLeft l.drrTurn (fun k => k - (1 + msgLen m)) })
      else drrPick t n (drrNext t l)
    | none => drrPick t n (drrNext t { l with drrLeft := lmod l.drrLeft l.drrTurn (fun _ => 0) })

/-- The message that starts next (R186): a link-local one, a response, or one of MIR, REQ and BLK. A channel without credit does not hold the
others up. -/
def txPick (t : Twin) (l : TLink) : Option Msg × TLink :=
  match vcHead l 4 with
  | some m => (some m, l)
  | none => match vcHead l 2 with
    | some m => (some m, l)
    | none => drrPick t 8 l

/-- The credit returns of a flit, of two channels and at most 511 slots each (R176), and what stays due. -/
def creditTake : Nat → Nat → List Nat → List (Nat × Nat) × List Nat
  | _, _, [] => ([], [])
  | n, vc, d :: l =>
    if d == 0 || n == 0 then let (x, r) := creditTake n (vc + 1) l; (x, d :: r)
    else let (x, r) := creditTake (n - 1) (vc + 1) l; ((vc, Nat.min d 511) :: x, (d - Nat.min d 511) :: r)

/-- The last FSEQ accepted from the other side. -/
def facked (l : TLink) : Nat := (l.nextExp + 4095) % 4096

/-- One DATA flit leaves with the next message (R176, R197; one message a flit, log entry 30). -/
def txOne (c : Ctl) (k : Nat) : Ctl :=
  let l := linkAt c k
  if l.state == .active && l.replayBuf.length < 256 then
    let pick := txPick c.twin l
    match pick.1 with
    | some m =>
      let (cr, due) := creditTake 2 0 l.rxDue
      let c := onLink c k (fun l => { l with
        txq := delFirst (fun x => x == m) l.txq, drrTurn := pick.2.drrTurn, drrLeft := pick.2.drrLeft, nextSend := (l.nextSend + 1) % 4096,
        replayBuf := l.replayBuf ++ [{ fseq := l.nextSend, fack := facked l, credits := cr, msg := m }],
        credit := if msgVc m == 4 then l.credit else lmod l.credit (msgVc m) (fun n => n - (1 + msgLen m)),
        txSlots := lmod l.txSlots (msgVc m) (fun n => (n + 1 + msgLen m) % 2 ^ 64), rxDue := due })
      emit c (.fehel k l.nextSend (facked l) false cr m)
    | none => c
  else c

/-- The queue is sent as far as credits and the replay buffer allow. -/
def txPump (c : Ctl) (k : Nat) : Ctl := (linkAt c k).txq.foldl (fun c _ => txOne c k) c

/-- A message is queued on a link and sent when it may be. An ACK that it makes stale goes, and the newer one takes its place behind any STALE
(R189, R190). -/
def txPut (c : Ctl) (k : Nat) (m : Msg) : Ctl :=
  txPump (onLink c k (fun l => { l with
    txq := txInsert (delFirst (sameAck m) l.txq) m })) k

/-- Slots of a message leave the receive buffer and are due for return. -/
def rxFree (c : Ctl) (k : Nat) (m : Msg) : Ctl :=
  if msgVc m == 4 then c
  else onLink c k (fun x => { x with rxDue := lmod x.rxDue (msgVc m) (fun n => n + 1 + msgLen m) })

/-- A FACK covers the flits of the replay buffer up to it (R197). -/
def fackIn (c : Ctl) (k fack : Nat) : Ctl :=
  let b := (linkAt c k).replayBuf
  if b.any (fun f => f.fseq == fack) then
    onLink c k (fun x => { x with replayBuf := (b.dropWhile (fun f => f.fseq != fack)).drop 1 })
  else c

/-! ## Streams (R187) -/

def streamKey (orig : Nat) (s : Space) : Nat := 3 * orig + spaceIdx s

/-- The TAG of the next message of a link's stream. -/
def nextTag (c : Ctl) (k : Nat) (s : Space) : Tag := { orig := k, seq := tgetD c.twin.sendSeq (streamKey k s) 0 }

/-- A numbered message leaves on a link and waits for its ACK or answer. -/
def sendOn (c : Ctl) (k : Nat) (s : Space) (cont : Cont) (m : Tag → Msg) : Ctl :=
  let t := nextTag c k s
  let c := onTwin c (fun x => { x with
    sendSeq := tset x.sendSeq (streamKey k s) ((t.seq + 1) % 2 ^ 30),
    sent := x.sent ++ [{ space := s, tag := t, link := k, msg := m t, cont := cont, refused := 0 }] })
  txPut c k (m t)

/-- A numbered message waits for a link to be steered: those that hold their session retrain (R174). With every link lost the partner is out of
reach and nothing is sent (R196). -/
def sendLater (c : Ctl) (s : Space) (cont : Cont) (m : Tag → Msg) : Ctl :=
  let t : Tag := { orig := 4, seq := 0 }
  if (List.range 4).any (linkUp c) then onTwin c (fun x => { x with sent := x.sent ++ [{ space := s, tag := t, link := 4, msg := m t, cont := cont, refused := 0 }] })
  else c

/-- A numbered message concerning an address (R192). -/
def sendAddr (c : Ctl) (haddr : Nat) (s : Space) (cont : Cont) (m : Tag → Msg) : Ctl :=
  match steerOf c haddr with
  | some k => sendOn c k s cont m
  | none => sendLater c s cont m

/-- A PRX message. -/
def isPrx : Msg → Bool
  | .prxRd .. | .prxWr64 .. | .prxWrPtl .. | .prxCln .. => true
  | _ => false

/-- An address of the steering index FLIGHT & 63 (R192). -/
def flightAddr (slot : Nat) : Nat := slot % 64 * 256

/-- The address whose steering decides a message's link: that of its line or riser, or one that stands for its flight slot (R192). -/
def msgAddr : Msg → Option Nat
  | .mirWr64 _ _ _ a .. | .mirWr256 _ _ _ a .. | .prxRd _ _ _ _ a _ | .prxWr64 _ _ _ a .. | .prxWrPtl _ _ _ a .. | .prxCln _ _ a _ | .biFwd _ _ _ a _
  | .rsyData _ _ _ _ a _ | .biRsp _ _ a .. => some a
  | .jrnWr _ _ _ slot .. | .jrnEnd _ _ _ slot _ | .jrnDone _ _ slot => some (flightAddr slot)
  | _ => none

/-- A numbered message with the TAG under which it leaves. -/
def retag (t : Tag) : Msg → Msg
  | .mirWr64 p g _ a i v => .mirWr64 p g t a i v
  | .mirWr256 p g _ a i v => .mirWr256 p g t a i v
  | .jrnWr g _ o s i n v => .jrnWr g t o s i n v
  | .jrnEnd g _ n s k => .jrnEnd g t n s k
  | .jrnDone g _ s => .jrnDone g t s
  | .prxRd s m g _ a i => .prxRd s m g t a i
  | .prxWr64 p g _ a i v => .prxWr64 p g t a i v
  | .prxWrPtl p g _ a i k v => .prxWrPtl p g t a i k v
  | .prxCln g _ a i => .prxCln g t a i
  | .biFwd s g _ a i => .biFwd s g t a i
  | .role _ r => .role t r
  | .rsyData p b g _ a v => .rsyData p b g t a v
  | .rsyDone b _ n => .rsyDone b t n
  | m => m

/-- The link of a numbered message (R192). -/
def msgLink (c : Ctl) (m : Msg) : Option Nat :=
  match msgAddr m with
  | some a => steerOf c a
  | none => roleLink c

/-- Messages that waited for a steered link leave in order, each under the TAG of its link (R194 step 4). -/
def unsentGo (c : Ctl) : Ctl :=
  (c.twin.sent.filter (fun s => s.link == 4)).foldl (fun c s =>
    match msgLink c s.msg with
    | some k => sendOn (onTwin c (fun x => { x with sent := delFirst (fun y => y == s) x.sent })) k s.space s.cont (fun t => retag t s.msg)
    | none => c) c

/-- PRX messages that wait for their response (R185). -/
def prxOut (c : Ctl) : Nat := (c.twin.sent.filter (fun s => isPrx s.msg)).length

/-- A PRX message leaves, or waits while 1,024 are out (R185). -/
def sendPrx (c : Ctl) (haddr : Nat) (cont : Cont) (m : Tag → Msg) : Ctl :=
  if prxOut c < 1024 then sendAddr c haddr .req cont m
  else onTwin c (fun x => { x with prxWait := x.prxWait ++ [(cont, m { orig := 0, seq := 0 })] })

/-- The next waiting PRX message leaves. -/
def prxGo (c : Ctl) : Ctl :=
  match c.twin.prxWait with
  | (cont, m) :: l => if prxOut c < 1024 then sendAddr (onTwin c (fun x => { x with prxWait := l })) ((msgAddr m).getD 0) .req cont (fun t => retag t m) else c
  | [] => c

/-- A line of a pull is still to come (R229, R281). -/
def pullWaits (c : Ctl) (p : Nat → Bool) : Bool :=
  c.twin.sent.any (fun s => match s.cont with | .pull l => p l | _ => false) || c.twin.prxWait.any (fun s => match s.1 with | .pull l => p l | _ => false)

/-- A ROLE_REQ (R192). -/
def sendRole (c : Ctl) (cont : Cont) (r : Role) : Ctl :=
  match roleLink c with
  | some k => sendOn c k .req cont (fun t => .role t r)
  | none => sendLater c .req cont (fun t => .role t r)

/-- A response goes on the link that carried its request, or where R192 moves it. With no link steered it waits on its own, which retrains. -/
def respLink (c : Ctl) (k : Nat) (haddr : Option Nat) : Option Nat :=
  if c.twin.steered.contains k || (c.twin.steered.isEmpty && linkUp c k) then some k
  else match haddr with
    | some a => steerOf c a
    | none => roleLink c

/-- A response is sent and kept for duplicates of its request (R188, R192). -/
def respond (c : Ctl) (k : Nat) (haddr : Option Nat) (tag : Tag) (m : Msg) : Ctl :=
  let c := onTwin c (fun x => { x with answered := x.answered ++ [(tag, haddr, m)] })
  match respLink c k haddr with
  | some j => txPut c j m
  | none => c

/-- The delay of R76 and R77 in force, as an ACK reports it (R78, R180). -/
def ackDelay (c : Ctl) : Nat := Nat.min (throttleNs c) 0xFFFFFFFF

/-- An ACK covers its stream up to this TAG (R189). -/
def sendAck (c : Ctl) (k : Nat) (s : Space) (tag : Tag) : Ctl :=
  txPut (onTwin c (fun x => { x with ackSaid := (ackDelay c, atCeiling c) })) k (.ack s tag (ackDelay c) (atCeiling c))

/-- The acknowledgement of a mirror message: behind one that is held back, or with a throttle delay of its own, it waits (R78). -/
def mirAck (c : Ctl) (k : Nat) (tag : Tag) (delay : Bool) : Ctl :=
  if delay || c.twin.ackHeld.any (fun x => x.1 == k && x.2.1.orig == tag.orig) then onTwin c (fun t => { t with ackHeld := t.ackHeld ++ [(k, tag, delay)] })
  else sendAck c k .mir tag

/-- The delay of the oldest held acknowledgement of a link ends: it leaves, with those behind it that have none of their own. -/
def ackPass (c : Ctl) (k : Nat) : Ctl :=
  match c.twin.ackHeld.filter (fun x => x.1 == k) with
  | [] => c
  | x :: l =>
    let run := l.takeWhile (fun y => !y.2.2 && y.2.1.orig == x.2.1.orig)
    let c := onTwin c (fun t => { t with ackHeld := t.ackHeld.filter (fun y => y.1 != k) ++ l.drop run.length })
    sendAck c k .mir ((run.getLast?.getD x).2.1)

/-- The first message of a link's mirror stream that is not acknowledged yet: one held back (R78), or the next to come. -/
def mirDone (c : Ctl) (k : Nat) : Nat :=
  ((c.twin.ackHeld.find? (fun x => x.2.1.orig == k)).map (fun x => x.2.1.seq)).getD (tgetD c.twin.expSeq (streamKey k .mir) 0)

/-- The delay or the stall differs from what the last ACK reported: an ACK goes out although SEQ has not moved (R189). It names the MIR stream of
the lowest steered link and covers what that stream has already brought (DESIGN CHOICE, log entry 98). -/
def ackNews (c : Ctl) : Ctl :=
  match roleLink c with
  | some k =>
    if pairedNow c && c.twin.ackSaid != (ackDelay c, atCeiling c) then
      sendAck c k .mir { orig := k, seq := (mirDone c k + 0x3FFFFFFF) % 2 ^ 30 }
    else c
  | none => c

/-- A message refused for its generation (R190). For a REQ message the STALE is its response, also for duplicates (R188); a MIR or BLK message is
acknowledged behind it, for it counts as processed (R188, R189). -/
def sendStale (c : Ctl) (k : Nat) (s : Space) (home : Bool) (hgen : Nat) (tag : Tag) (haddr ini : Nat) : Ctl :=
  let m : Msg := .stale s home hgen tag haddr ini
  let c := txPut c k m
  match s with
  | .req => onTwin c (fun x => { x with answered := x.answered ++ [(tag, some haddr, m)] })
  | .mir => mirAck c k tag false
  | .blk => sendAck c k .blk tag

/-- A message on every ACTIVE link. -/
def sendAll (c : Ctl) (m : Msg) : Ctl :=
  (List.range 4).foldl (fun c k => if (linkAt c k).state == .active then txPut c k m else c) c

end Sys2Proof.Machine
end

