-- ==== Sys2Proof/Machine/Mem.lean ====
section
/-! DEFINITION. Machine/Mem.lean: host memory: the DRAM map, lines and risers, poison, dirty marks and the treads that are not restored or stale (R5, R115, R143, R156, R230, R271). -/
namespace Sys2Proof.Machine

/-! ## Addresses (R5, R143, R180) -/

/-- Bytes of a hall. -/
def hallBytes : Nat := 2 ^ 30

def hallOf (haddr : Nat) : Nat := haddr / hallBytes
def lineNo (haddr : Nat) : Nat := haddr / 64
def riserNo (haddr : Nat) : Nat := haddr / 256
def treadNo (haddr : Nat) : Nat := haddr / 4096

/-- Where the model lays the galleries' metadata regions: above the 16 TiB of halls, 64 GiB to each gallery (DESIGN CHOICE, log entry 31). -/
def metaBase : Nat := 2 ^ 44
def metaGal : Nat := 2 ^ 36
def isMeta (haddr : Nat) : Bool := metaBase ≤ haddr

/-- The gallery of an address. -/
def galOf (c : Ctl) (haddr : Nat) : Nat := if isMeta haddr then (haddr - metaBase) / metaGal % 8 else galOfHall c (hallOf haddr)

/-- The gallery address of R143; the metadata region lies above the halls (R18). -/
def gAddr (c : Ctl) (haddr : Nat) : Nat :=
  if isMeta haddr then c.dimm.perGal * hallBytes + (haddr - metaBase) % metaGal else haddr - galOf c haddr * c.dimm.perGal * hallBytes

/-- The exclusive or of k groups of n bits of a number, starting at bit 0 (R143). -/
def foldBits : Nat → Nat → Nat → Nat
  | 0, _, _ => 0
  | k + 1, n, x => (x % 2 ^ n) ^^^ foldBits k n (x / 2 ^ n)

/-- Where a line of a gallery lies: its channel in the gallery, sub-channel, rank and chip ID, bank group, bank, row, riser of the row, and line of
the riser (R143). -/
structure Place where
  ch : Nat
  sub : Nat
  rank : Nat
  bg : Nat
  ba : Nat
  row : Nat
  col : Nat
  line : Nat
  deriving DecidableEq, Repr

/-- The address map of R143; a row number has at most 18 bits (R132). -/
def placeOf (rb ga : Nat) : Place :=
  let r := ga / 256
  let sc := (r % 8) ^^^ (r / 8 % 8) ^^^ (r / 64 % 8)
  let q := r / 8
  let row := q / 2 ^ (10 + rb)
  { ch := sc / 2, sub := sc % 2, rank := q / 1024 % 2 ^ rb, bg := (q % 8) ^^^ foldBits 6 3 row, ba := (q / 8 % 4) ^^^ foldBits 9 2 row,
    row := row, col := q / 32 % 32, line := ga / 64 % 4 }

/-- Where an address lies, and its channel of the device (R143). -/
def placeAt (c : Ctl) (haddr : Nat) : Place := placeOf c.dimm.rb (gAddr c haddr)
def chanOf (c : Ctl) (haddr : Nat) : Nat := 4 * galOf c haddr + (placeAt c haddr).ch

/-! ## Tracked metadata (R88, R95, R209, R255; the layout is the model's, log entry 31) -/

/-- The Label Storage Area of an LD, in the gallery that owns its head (R88): of either side, since each device holds its partner's mirror. -/
def lsaAddr (side d : Nat) : Nat := metaBase + d / 8 * metaGal + side % 2 * 2 ^ 23 + d * 2 ^ 17

/-- The sharer slots and the extent tag of a hall, in its own gallery (R95). -/
def slotsAddr (c : Ctl) (k : Nat) : Nat := metaBase + galOfHall c k * metaGal + 2 ^ 24 + 128 * k

/-- The entry of a hall in the map's copy in a gallery, G0 or G4 (R209). -/
def mapAddr (g k : Nat) : Nat := metaBase + g * metaGal + 2 ^ 25 + 8 * k

/-- Where a gallery's dirty table begins in its metadata region: 2 bytes a tread, in gallery address order (R156; the place is the model's). -/
def tableBase : Nat := 2 ^ 27

/-- The tread of a gallery with this place in its address order. -/
def galTread (c : Ctl) (g i : Nat) : Nat :=
  let n := c.dimm.perGal * 262144
  if i < n then g * n + i else (metaBase + g * metaGal) / 4096 + (i - n)

/-- The home side that the map entry of a hall records, as the MAP stream carries it (R257). OWNER_SIDE of a hall that is not private is 0 (DESIGN
CHOICE, log entry 108). -/
def mapEntOf (c : Ctl) (k : Nat) : MapEnt :=
  let h := hallAt c k
  let o := if h.mode == .priv then h.sharers.head? else none
  { mode := h.mode, homeSide := if h.home then c.twin.side else 1 - c.twin.side, cold := h.cold, sanitize := h.sanitize, gen := h.gen, sharers := h.count,
    owner := (o.map (fun s => s.ld)).getD 0xFF, ownerSide := (o.map (fun s => if s.here then c.twin.side else 1 - c.twin.side)).getD 0 }

def modeNum : HallMode → Nat
  | .unassigned => 0 | .priv => 1 | .shared => 2

/-- The 64-bit word of a map entry (R257). -/
def mapEntWord (e : MapEnt) : Nat :=
  e.gen % 65536 + e.homeSide % 2 * 2 ^ 16 + modeNum e.mode * 2 ^ 17 + b2n e.cold * 2 ^ 19 + e.sharers % 128 * 2 ^ 20 + e.owner % 256 * 2 ^ 27
    + e.ownerSide % 2 * 2 ^ 35 + b2n e.sanitize * 2 ^ 36

/-- A hall-map entry of 8 B (R257). -/
def mapEntOfWord (w : Nat) : MapEnt :=
  { mode := if fieldOf w 18 17 == 1 then .priv else if fieldOf w 18 17 == 2 then .shared else .unassigned, homeSide := fieldOf w 16 16, cold := bitOf w 19,
    sanitize := bitOf w 36, gen := fieldOf w 15 0, sharers := fieldOf w 26 20, owner := fieldOf w 34 27, ownerSide := fieldOf w 35 35 }

/-- The slot table of a hall: a byte for each of its 64 slots, 0x80 with the LD and its side where one is taken, then the extent tag. -/
def slotTable (c : Ctl) (k : Nat) : List Byte :=
  let h := hallAt c k
  (List.range 64).map (fun n => match h.sharers.find? (fun s => s.slot == n) with
    | some s => BitVec.ofNat 8 (0x80 + 64 * (if s.here then c.twin.side else 1 - c.twin.side) + s.ld % 64)
    | none => 0) ++ bytesOf 16 h.tag ++ List.replicate 48 0

/-- The sharers that a slot table spells, in slot order. -/
def slotsOf (side : Nat) (l : List Byte) : List Sharer :=
  (List.range 64).filterMap (fun n =>
    let b := (l[n]?.getD 0).toNat
    if b ≥ 0x80 then some { slot := n, here := b / 64 % 2 == side, ld := b % 64 } else none)

/-- What a riser of the metadata regions holds beyond the Label Storage Areas: the slot tables of two halls, 32 entries of a map copy, or nothing. -/
inductive MetaUse where
  | slots (g k : Nat) | map (k : Nat) | other
  deriving DecidableEq, Repr

def metaUse (c : Ctl) (r : Nat) : MetaUse :=
  if !isMeta (256 * r) then .other
  else
    let g := (256 * r - metaBase) / metaGal
    let o := (256 * r - metaBase) % metaGal
    if 2 ^ 24 ≤ o && o < 2 ^ 25 then
      let k := (o - 2 ^ 24) / 128
      if k < hallCount c && (galOfHall c k == g || galOfHall c (k + 1) == g) then .slots g k else .other
    else if 2 ^ 25 ≤ o && o < 2 ^ 26 && (g == 0 || g == 4) && (o - 2 ^ 25) / 8 < hallCount c then .map ((o - 2 ^ 25) / 8)
    else .other

/-- The bytes that the hall map's working copy gives a riser of its tables (R209). -/
def metaBytes (c : Ctl) : MetaUse → List Byte
  | .slots g k => [k, k + 1].flatMap (fun j => if galOfHall c j == g then slotTable c j else List.replicate 128 0)
  | .map k => (List.range 32).flatMap (fun i => bytesOf 8 (mapEntWord (mapEntOf c (k + i))))
  | .other => []

/-- A slot table is taken into the working copy. -/
def slotsIn (c : Ctl) (k : Nat) (l : List Byte) : Ctl :=
  { c with halls := tset c.halls k { hallAt c k with sharers := slotsOf c.twin.side l, count := (slotsOf c.twin.side l).length, tag := ofBytes ((l.drop 64).take 16) } }

/-- A map entry replaces the device's own (R229 step 3.1, R269); the sharers of a shared hall come with the slot tables. -/
def mapEntIn (c : Ctl) (k : Nat) (e : MapEnt) : Ctl :=
  let h := hallAt c k
  let sh : List Sharer := match e.mode with
    | .unassigned => []
    | .priv => [{ slot := 0, here := e.ownerSide == c.twin.side, ld := e.owner }]
    | .shared => h.sharers
  { c with halls := tset c.halls k { h with mode := e.mode, home := e.homeSide == c.twin.side, gen := e.gen, sanitize := e.sanitize, sharers := sh, count := e.sharers } }

/-- A riser of the tables is taken into the working copy (R229, R269). -/
def metaIn (c : Ctl) (data : Riser) : MetaUse → Ctl
  | .slots g k =>
    let l := riserBytes data
    [(k, l.take 128), (k + 1, l.drop 128)].foldl (fun c x => if x.1 < hallCount c && galOfHall c x.1 == g then slotsIn c x.1 x.2 else c) c
  | .map k => (List.range 32).foldl (fun c i =>
      if k + i < hallCount c then mapEntIn c (k + i) (mapEntOfWord (ofBytes (((riserBytes data).drop (8 * i)).take 8))) else c) c
  | .other => c

/-! ## Sets of treads -/

def TreadSet.has (s : TreadSet) (t : Nat) : Bool := s.all != s.xs.contains t
def TreadSet.insert (s : TreadSet) (t : Nat) : TreadSet := if s.all then { s with xs := sdel s.xs t } else { s with xs := sins s.xs t }
def TreadSet.erase (s : TreadSet) (t : Nat) : TreadSet := if s.all then { s with xs := sins s.xs t } else { s with xs := sdel s.xs t }

/-- Treads of a hall, and of a gallery. -/
def hallTreads (k : Nat) : List Nat := (List.range 262144).map (fun i => k * 262144 + i)

/-- No tread below n is in the set. -/
def TreadSet.none (s : TreadSet) (n : Nat) : Bool :=
  if s.all then (s.xs.filter (fun t => t < n)).length ≥ n else s.xs.all (fun t => t ≥ n)

/-- Members of a tread set with numbers from lo to lo + n - 1. -/
def TreadSet.countIn (s : TreadSet) (lo n : Nat) : Nat :=
  let k := (s.xs.filter (fun t => lo ≤ t && t < lo + n)).length
  if s.all then n - k else k

/-- The treads of the device's halls. -/
def treadCount (c : Ctl) : Nat := hallCount c * 262144

/-- The tread's DRAM copy is not restored (R271). Tracked metadata is restored before SERVICE (R266 step 7). -/
def unrestored (c : Ctl) (t : Nat) : Bool := !isMeta (4096 * t) && c.svr.unrestored.has t

/-- The tread is stale at a rejoin receiver (R230); a full resync concerns the treads of the halls (R229). -/
def stale (c : Ctl) (t : Nat) : Bool := c.pair.stale.has t && !(c.pair.stale.all && isMeta (4096 * t))

/-! ## The newest copy (R270) -/

/-- The archive's newest copy of a riser: its ASN, data and poison (R305). -/
def archCopy (c : Ctl) (r : Nat) : Option (Nat × Riser × BitVec 4) :=
  let l := (tget c.vlt.log r).map (fun x => (x.asn, x.data, x.poison))
  let b := (tget c.vlt.bases (r / 16)).bind (fun b => (b.risers.find? (fun x => x.riser == r)).map (fun x => (b.asn, x.data, x.poison)))
  match l, b with
  | some x, some y => if x.1 ≥ y.1 then some x else some y
  | some x, none => some x
  | none, y => y

/-- The live saves, predecessor first (R262), with what this start can use of them: not a gallery whose part is incomplete or cannot be indexed, nor
flights of the newest from the first that cannot be read (R281). -/
def liveSaves (c : Ctl) : List SaveRec :=
  (c.svr.live.filterMap (fun n => c.svr.saves.find? (fun s => s.seq == n))).map (fun s =>
    { s with data := s.data.filter (fun x => !c.svr.skipParts.contains (s.seq, galOf c (x.riser * 256)))
             flights := if some s.seq == c.svr.live.getLast? then s.flights.take (c.svr.flightCut.getD s.flights.length) else s.flights })

/-- The newest copy of a riser with its line poison; one with no copy reads as zeros (R270). -/
def newestCopy (c : Ctl) (r : Nat) : Riser × BitVec 4 :=
  let a := archCopy c r
  let base := (a.map (fun x => (x.2.1, x.2.2))).getD (0, 0)
  (liveSaves c).foldl (fun acc s =>
    match s.data.find? (fun x => x.riser == r) with
    | some x => if (a.map (fun y => decide (s.asnCut > y.1))).getD true then (x.data, x.poison) else acc
    | none => acc) base

/-- The live save that holds the newest copy of a riser (R270). -/
def newestSaveOf (c : Ctl) (r : Nat) : Option Nat :=
  let a := archCopy c r
  ((liveSaves c).findRev? (fun s => s.data.any (fun x => x.riser == r) && (a.map (fun y => decide (s.asnCut > y.1))).getD true)).map (fun s => s.seq)

/-! ## Contents -/

/-- A line of DRAM by its address. -/
def lineData (m : Store) (haddr : Nat) : Line := lineOf (cread 0 m.dram (haddr / 64 * 64) 64)
def linePoison (m : Store) (haddr : Nat) : Bool := m.poison.contains (lineNo haddr)

/-- A riser of DRAM by its number. -/
def dramRiser (m : Store) (r : Nat) : Riser := BitVec.ofNat 2048 (ofBytes (cread 0 m.dram (r * 256) 256))

/-- A riser as the device holds it: the tables of the hall map follow the working copy. -/
def riserData (d : Dev) (r : Nat) : Riser :=
  match metaUse d.ctl r with
  | .other => dramRiser d.mem r
  | u => BitVec.ofNat 2048 (ofBytes (metaBytes d.ctl u))
def riserPoison (m : Store) (r : Nat) : BitVec 4 :=
  BitVec.ofNat 4 ((List.range 4).foldl (fun n i => if m.poison.contains (4 * r + i) then n + 2 ^ i else n) 0)

/-- A riser with its poison, as a save, a slab or a base takes it. -/
def riserCopy (d : Dev) (r : Nat) : RiserCopy := { riser := r, data := riserData d r, poison := riserPoison d.mem r }

/-- The poison mark of a line (R115). -/
def setPoison (m : Store) (haddr : Nat) (p : Bool) : Store :=
  { m with poison := if p then sins m.poison (lineNo haddr) else sdel m.poison (lineNo haddr) }

/-- A whole line is written, with or without poison (R115). -/
def putLine (m : Store) (haddr : Nat) (data : Line) (poison : Bool) : Store :=
  setPoison ({ m with dram := cwrite 0 m.dram (haddr / 64 * 64) (lineBytes data) }) haddr poison

/-- The enabled bytes of a line are written; without poison an old mark stays unless the whole line is covered (R58, R83, R115). -/
def putBytes (m : Store) (haddr : Nat) (mask : Nat) (data : Line) (poison : Bool) : Store :=
  let m := { m with dram := cwriteMask 0 m.dram (haddr / 64 * 64) mask (lineBytes data) }
  if poison then setPoison m haddr true else if mask == 2 ^ 64 - 1 then setPoison m haddr false else m

/-- A whole riser is written with its poison per line. -/
def putRiser (m : Store) (r : Nat) (data : Riser) (poison : BitVec 4) : Store :=
  let m := { m with dram := cwrite 0 m.dram (r * 256) (riserBytes data) }
  (List.range 4).foldl (fun m i => setPoison m (r * 256 + 64 * i) (poison.getLsbD i)) m

/-- A whole riser is written on the device: one of the hall map's tables goes to the working copy too. -/
def storeRiser (d : Dev) (r : Nat) (data : Riser) (poison : BitVec 4) : Dev :=
  { ctl := metaIn d.ctl data (metaUse d.ctl r), mem := putRiser d.mem r data poison }

/-- Every line of a tread is marked poisoned (R63, R281). -/
def poisonTread (m : Store) (t : Nat) : Store := (List.range 64).foldl (fun m i => setPoison m (t * 4096 + 64 * i) true) m

/-! ## The poison list (R117) -/

/-- The poisoned lines of the device's halls, rising: those of DRAM, and those whose newest copy is poisoned in treads that are not restored. -/
def poisonLines (d : Dev) : List Nat :=
  let c := d.ctl
  let rs := c.vlt.log.map (fun x => x.1) ++ c.vlt.bases.flatMap (fun b => b.2.risers.map (fun x => x.riser))
    ++ (liveSaves c).flatMap (fun s => s.data.map (fun x => x.riser))
  (rs.filter (fun r => unrestored c (r / 16))).foldl (fun l r =>
    (List.range 4).foldl (fun l i => if (newestCopy c r).2.getLsbD i then sins l (4 * r + i) else l) l) (d.mem.poison.filter (fun l => !isMeta (64 * l)))

/-- Runs of consecutive lines of one hall: first line and length. -/
def runsOf : List Nat → List (Nat × Nat)
  | [] => []
  | n :: l => match runsOf l with
    | (a, k) :: t => if n + 1 == a && hallOf (64 * n) == hallOf (64 * a) then (n, k + 1) :: t else (n, 1) :: (a, k) :: t
    | [] => [(n, 1)]

/-- No tread is in a set: neither of the halls, nor, where treads are named one by one, of the metadata regions. -/
def setNone (c : Ctl) (s : TreadSet) : Bool := s.none (treadCount c) && (s.all || s.xs.isEmpty)

/-- The device holds up to 4,096 ranges; the time at which it first had more is kept while it has (R117). -/
def poisonWatch (d : Dev) : Dev :=
  if (runsOf (poisonLines d)).length ≤ 4096 then { d with ctl := { d.ctl with poisonOver := none } }
  else if d.ctl.poisonOver.isSome then d
  else { d with ctl := { d.ctl with poisonOver := some (now d.ctl) } }

/-! ## Dirty marks (R156, R157) -/

def isDirty (c : Ctl) (haddr : Nat) : Bool := (galAt c (galOf c haddr)).dirty.contains (riserNo haddr)

/-- A riser is marked dirty, in the mark cache until the table takes it (R156); one in the cleaner's tracker is flagged re-dirtied (R157). -/
def markDirty (c : Ctl) (r : Nat) : Ctl :=
  onGal c (galOf c (r * 256)) (fun g => { g with
    cache := if g.dirty.contains r then g.cache else sins g.cache r
    dirty := sins g.dirty r,
    inFlight := g.inFlight.map (fun f => if f.riser == r then { f with redirty := true } else f) })

/-- A riser's dirty bit clears. -/
def clearDirty (c : Ctl) (r : Nat) : Ctl := rampClean (onGal c (galOf c (r * 256)) (fun g => { g with dirty := sdel g.dirty r, cache := sdel g.cache r }))

/-- A tread is set in the changed-since-separation bitmap, while one exists (R161, R227). -/
def markChanged (c : Ctl) (t : Nat) : Ctl := onPair c (fun p => { p with changed := p.changed.map (fun s => s.insert t) })

/-- The hall map has changed at a hall: the risers of its slot table and of the map's two copies are dirty (R95, R209, R255). Resync carries the map in
messages of its own (R228, R229). -/
def hallDirty (c : Ctl) (k : Nat) : Ctl := [slotsAddr c k, mapAddr 0 k, mapAddr 4 k].foldl (fun c a => markDirty c (riserNo a)) c

/-- The map entry of a hall changes. -/
def hallSet (c : Ctl) (k : Nat) (h : Hall) : Ctl := hallDirty { c with halls := tset c.halls k h } k
def hallMod (c : Ctl) (k : Nat) (f : Hall → Hall) : Ctl := hallSet c k (f (hallAt c k))

/-- A dozing gallery wakes (R29). -/
def wakeGal (c : Ctl) (g : Nat) : Ctl := onGal c g (fun x => { x with doze := false })

/-! ## Slot classes (R146, R151): 0 H, 1 W, 2 C, 3 S -/

/-- The class that a slot serves (R151): its own, or the highest-ranked lower one with a request in its direction that can be issued; gap and M slots
serve none. `want x w` says whether class x has such a read, or write. -/
def slotServes (cls : Nat) (wr : Bool) (want : Nat → Bool → Bool) : Option Nat :=
  if cls ≥ 4 then none else ((List.range 4).filter (fun x => cls ≤ x)).find? (fun x => want x wr)

/-- A transfer of a class in a gallery: its bursts are counted, and the part of them in lent slots. How many bursts a transfer takes and how many of
them find a lent slot is open (free values, log entry 49); H and W, which no class lends to, have none (R151). -/
def bursts (c : Ctl) (g x : Nat) : Ctl :=
  let n := freeNat c
  let c := useFree c
  let l := if x ≤ 1 then 0 else freeNat c % (n + 1)
  onGal (if x ≤ 1 then c else useFree c) g (fun y => { y with
    bursts := lmod y.bursts x (fun k => (k + n) % 2 ^ 64), lent := lmod y.lent x (fun k => (k + l) % 2 ^ 64) })

/-! ## Where the device stands -/

/-- SERVICE, or a save whose cut-off is still to come (R49). -/
def serving (c : Ctl) : Bool := c.glb.mode.service || (c.glb.mode == .save && (c.svr.run.map (fun r => !r.cut)).getD false)

/-- The partner reports this gallery of its own as fenced (R161). -/
def partnerFenced (c : Ctl) (g : Nat) : Bool := (c.pair.partner.map (fun p => p.fenced.contains g)).getD false

/-- The halls of a gallery are offline: fenced here, and no partner serves them (R162). -/
def galOffline (c : Ctl) (g : Nat) : Bool := galFenced c g && (!pairedNow c || partnerFenced c g)

/-- Writes to a gallery's halls are mirrored (R45, R161). -/
def mirrored (c : Ctl) (g : Nat) : Bool := pairedNow c && !partnerFenced c g

/-! ## Device errors (R138 to R141) -/

def onDch (c : Ctl) (ch : Nat) (f : Dch → Dch) : Ctl := { c with dchs := vmod c.dchs ch f }
def dchAt (c : Ctl) (ch : Nat) : Dch := vget c.dchs ch Dch.reset

/-- The number of a device position of a channel: rank, sub-channel and device (R140). -/
def devPos (rank sub dev : Nat) : Nat := rank * 32 + sub % 2 * 16 + dev % 16

/-- A failed-device mark as the MARKS record holds it: the channel and the position. -/
def marksOf (c : Ctl) : List Nat := (List.range 32).flatMap (fun ch => (dchAt c ch).failed.map (fun p => ch * 1024 + p))

/-- 24 h in units of 2^-16 s (R140). -/
def ceWindow : Nat := 86400 * 65536

/-- What the decoder makes of a line (R138): clean, corrected at these devices of the burst, or uncorrectable. -/
inductive Decode where
  | clean
  | corrected (devs : List Nat)
  | uncorrectable
  deriving DecidableEq, Repr

/-- The decode of a burst with these symbols in error, by device: errors of the device marked failed are erasures, beside which 4 symbols are
corrected; otherwise the errors of one device are (R138). -/
def eccDecode (failed : Option Nat) (e : EccRes) : Decode :=
  let l := (e.errs.map (fun x => (x.1.val, x.2.val + 1))).filter (fun x => some x.1 != failed)
  let devs := (l.map (fun x => x.1)).eraseDups
  let fits : Bool := match failed with
    | some _ => decide ((l.map (fun x => x.2)).sum ≤ 4)
    | none => decide (devs.length ≤ 1)
  if e.errs.isEmpty then .clean else if fits then .corrected devs else .uncorrectable

/-- The device marked failed in the rank and sub-channel of an address (R140). -/
def failedAt (c : Ctl) (haddr : Nat) : Option Nat :=
  let p := placeAt c haddr
  ((dchAt c (chanOf c haddr)).failed.find? (fun x => x / 16 == 2 * p.rank + p.sub)).map (fun x => x % 16)

/-- A correction of one device is counted; at CE_DEVICE_LIMIT within 24 h the device is marked failed, or a second one of its rank and sub-channel
raises UE_BURST (R140). -/
def devCorrect (c : Ctl) (haddr dev ini access : Nat) : Ctl :=
  let ch := chanOf c haddr
  let p := placeAt c haddr
  let pos := devPos p.rank p.sub dev
  let t := now c
  let c := onDch c ch (fun d => { d with devCe := tmod d.devCe pos [] (fun l => l.filter (fun u => within u t ceWindow) ++ [t]) })
  let d := dchAt c ch
  if (tgetD d.devCe pos []).length ≥ c.img.ceLimit && !d.failed.contains pos then
    if d.failed.any (fun x => x / 16 == pos / 16) then raiseAt c (srcDch ch 4) 0x06 (gAddr c haddr) ini access
    else
      let c := onDch c ch (fun d => { d with failed := d.failed ++ [pos], lastRank := p.rank, lastSub := p.sub, lastDev := dev })
      let c := recGather c 0x0A (.marks (marksOf c))
      raiseAt c (srcDch ch 2) 0 (gAddr c haddr) ini access
  else c

/-- A corrected burst is counted, with each device corrected (R138, R140). -/
def eccCorrect (c : Ctl) (haddr : Nat) (devs : List Nat) (ini access : Nat) : Ctl :=
  devs.foldl (fun c v => devCorrect c haddr v ini access) (onDch c (chanOf c haddr) (fun d => { d with ce := satInc d.ce 0xFFFFFF }))

/-- An uncorrectable line raises UE, and more than 16 of a channel within 1 s raise UE_BURST (R141). -/
def eccFail (c : Ctl) (haddr ini access : Nat) : Ctl :=
  let ch := chanOf c haddr
  let t := now c
  let c := onDch c ch (fun d => { d with ue := satInc d.ue 0xFFFF, ueTimes := (d.ueTimes.filter (fun u => within u t 65536)) ++ [t] })
  let c := raiseAt c (srcDch ch 3) 0 (gAddr c haddr) ini access
  if (dchAt c ch).ueTimes.length > 16 then raiseAt c (srcDch ch 4) 0x06 (gAddr c haddr) ini access else c

end Sys2Proof.Machine
end

