-- ==== Sys2Proof/Machine/Access.lean ====
section
/-! DEFINITION. Machine/Access.lean: the requests in the tracker: order, routes, the coherence directory, reads and writes, and their completion (R42 to R60, R76, R77, R83 to R118, R211 to R216, R347). -/
namespace Sys2Proof.Machine

/-! ## Requests -/

def reqAt (c : Ctl) (id : Nat) : Option Req := c.reqs.find? (fun r => r.id == id)
def onReq (c : Ctl) (id : Nat) (f : Req → Req) : Ctl := { c with reqs := modFirst (fun r => r.id == id) f c.reqs }
def dropReq (c : Ctl) (id : Nat) : Ctl := { c with reqs := delFirst (fun r => r.id == id) c.reqs }
def waitReq (c : Ctl) (id : Nat) (w : Wait) : Ctl := onReq c id (fun r => { r with wait := w })

/-- The head whose tracker holds a request (R109). -/
def srcHeadOf : Source → Option Nat
  | .host h _ _ => some h
  | .mailbox h _ _ => some h
  | .lsa h _ => some h
  | _ => none

/-- Outstanding CXL.mem requests of a head (HST_TRACKER.CURRENT). -/
def trackerOf (c : Ctl) (h : Nat) : Nat :=
  (c.reqs.filter (fun r => match r.src with | .host h' _ _ => h' == h | _ => false)).length

def Req.fresh (src : Source) (ini : Nat) (op : ReqOp) (dpa haddr : Nat) : Req :=
  { id := 0, src := src, ini := ini, op := op, dpa := dpa, haddr := haddr, data := 0, poison := false, wait := .ready, placed := false,
    warmed := false, tried := false, delay := false, ecc := .clean, refused := 0 }

/-- A request enters the tracker. -/
def addReq (c : Ctl) (r : Req) : Ctl :=
  let c := { c with reqs := c.reqs ++ [{ r with id := c.nextReq }], nextReq := c.nextReq + 1 }
  match r.src with
  | .host h _ _ => onHead c h (fun x => { x with peak := Nat.max x.peak (trackerOf c h) })
  | _ => c

/-- The LD a request comes from: whether it is one of this device's, and its number. -/
def ldKey : Source → Option (Bool × Nat)
  | .host h l _ => some (true, 4 * h + l)
  | .mailbox h l _ => some (true, 4 * h + l)
  | .lsa h l => some (true, 4 * h + l)
  | .proxy _ _ ini false => if ini < 0x40 then some (false, ini) else none
  | .writeback here l => some (here, l)
  | _ => none

def Req.isRead (r : Req) : Bool := match r.op with | .read _ => true | _ => false
def Req.isWrite (r : Req) : Bool := match r.op with | .write | .wrPtl _ => true | _ => false

/-- The line of a directory-cold hall is warm (R106, R107). -/
def lineWarm (h : Hall) (line : Nat) : Bool := line % 16777216 / 4 < h.swept || h.warm.contains line

/-- The line is cold (R106). -/
def lineCold (c : Ctl) (line : Nat) : Bool := let h := hallAt c (hallOf (64 * line)); h.cold && !lineWarm h line

/-- An earlier request q holds up r: the same LD's on the line (R99), a write that a read of the line must find durable (R55), or one whose
line is being snooped (R100). The holder that is snooped is not held up itself, but behind the first request to a cold line every one waits (R106). A
write that is durable and only waits for its throttle delay holds nothing up. -/
def blocks (c : Ctl) (r q : Req) : Bool :=
  lineNo q.haddr == lineNo r.haddr && q.wait != .throttle
    && (((ldKey r.src).isSome && ldKey q.src == ldKey r.src && (match r.src with | .writeback _ _ => false | _ => true))
      || (r.isRead && q.isWrite)
      || (q.wait == .snoop && (match r.src with | .writeback _ _ => false | _ => true)
          && (lineCold c (lineNo r.haddr) || !c.snoops.any (fun s => s.req == q.id && some (s.holder.here, s.holder.ld) == ldKey r.src))))

def blocked (c : Ctl) (r : Req) : Bool := (c.reqs.takeWhile (fun q => q.id != r.id)).any (blocks c r)

/-- A flight that the device holds as committed and not retired (R347). -/
def Flight.held (f : Flight) : Bool := match f.st with | .committed | .retiring => true | _ => false

/-- The destination lines of a segment and of a flight. -/
def segLines (s : Seg) : List Nat := if s.len == 0 then [] else (List.range ((s.dst + s.len - 1) / 64 + 1 - s.dst / 64)).map (fun i => s.dst / 64 + i)
def flightLines (f : Flight) : List Nat := f.segs.flatMap segLines

/-- An apply write of the partner's flight, carried out here by proxy path: it does not wait for its own flight (R347). -/
def applyOf (f : Flight) (r : Req) : Bool :=
  match r.src with
  | .flight own slot => own == f.own && slot == f.slot
  | .proxy _ _ ini false => !f.own && ini == 0x48 + f.slot / 32
  | _ => false

/-- A committed flight holds the request's line (R347). -/
def flightHolds (c : Ctl) (r : Req) : Bool :=
  c.flights.any (fun f => f.held && !applyOf f r
    && (flightLines f).contains (lineNo r.haddr)
    && (!(r.isRead && f.own) || c.reqs.any (fun q => q.src == .flight true f.slot && lineNo q.haddr == lineNo r.haddr && !q.placed)))

/-! ## Interrupts of the rings (R340) -/

def ringAt (c : Ctl) (r : Nat) : Ring := tgetD c.rings r Ring.reset
def onRing (c : Ctl) (r : Nat) (f : Ring → Ring) : Ctl := { c with rings := tmod c.rings r Ring.reset f }

/-- Base of region 1. -/
def region1 : Nat := 0x100000000000

/-- The offset of a DPA in its region, which is its HADDR, halls lying at their own number in either region (R5, R89). -/
def dpaOff (a : Nat) : Nat := if a < region1 then a else a - region1

/-- Entries of the ring's two rings. -/
def Ring.size (x : Ring) : Nat := 2 ^ x.logSize

/-- A ring stops fetching with a state and code (R341); lines read for the next descriptor are dropped. -/
def ringHalt (c : Ctl) (r : Nat) (st : RingSt) (code : Nat) : Ctl :=
  onRing c r (fun x => { x with st := st, code := code, got := [], doorbells := [], released := [] })

/-- The descriptor or completion ring lies in this hall (R326). -/
def ringIn (x : Ring) (k : Nat) : Bool :=
  let hits (a n : Nat) : Bool := hallOf (dpaOff a) ≤ k && k ≤ hallOf (dpaOff (a + n - 1))
  hits x.sqBase.toNat (64 * x.size) || hits x.cqBase.toNat (16 * x.size)

/-- The owner's vector is raised and the coalescing limits start anew. -/
def ringInt (c : Ctl) (r : Nat) : Ctl :=
  let x := ringAt c r
  let c := onRing c r (fun x => { x with signalled := 0, delayRun := false })
  match x.owner with
  | some d => msixSend c d x.vector
  | none => c

/-- A signalling entry has become durable. -/
def ringSignal (c : Ctl) (r : Nat) (now : Bool) : Ctl :=
  let x := ringAt c r
  if now || (x.intCount == 0 && x.intDelay == 0) || (x.intCount != 0 && x.signalled + 1 ≥ x.intCount) then ringInt c r
  else onRing c r (fun x => { x with signalled := x.signalled + 1, delayRun := x.intDelay != 0 })

/-! ## Answers -/

/-- The initiator of the access that a request makes here (R8): what comes from the partner is inbound twin traffic. -/
def accessIni (r : Req) : Nat := match r.src with | .proxy k _ _ _ => 0x58 + k | _ => r.ini

/-- The head's access code of a request (R382). -/
def accessOf (r : Req) : Nat := match r.src with | .proxy _ _ _ true => 0x7 | .proxy .. => 0x8 | .scrub _ => 0xC | _ => if r.isRead then 1 else 2

/-- The DPA of an address for the LDs to which its hall is assigned (R89). -/
def dpaOf (c : Ctl) (haddr : Nat) : Nat := haddr + (if (hallAt c (hallOf haddr)).mode == .shared then region1 else 0)

/-- A General Media record to every LD of this device to which the hall is assigned (R116, R122). -/
def mediaEvent (c : Ctl) (l : EvLog) (haddr : Nat) : Ctl :=
  (hallAt c (hallOf haddr)).sharers.foldl (fun c s => if s.here then addEvent c s.ld l (.media (dpaOf c haddr)) else c) c

/-- DevLoad of a response of a head (R110). -/
def devLoad (c : Ctl) (h l : Nat) : BitVec 2 := Config.devLoad (4 * h + l) (trackerOf c h) (ldAt c (4 * h + l)).qosLimit c.nextReq

/-- A read is answered (R42, R115, R212) and leaves the tracker. -/
def answerRead (c : Ctl) (r : Req) (data : Line) (poison : Bool) (grant : Nat) : Ctl :=
  let load (h l : Nat) := devLoad c h l
  let c := dropReq c r.id
  match r.src with
  | .host h l t =>
    let c := emit c (.cxlData h l t data poison .noOp (load h l))
    if poison then raiseAt c (srcHead h 11) 0 r.dpa r.ini 1 else c
  | .proxy k tag _ _ => respond c k (some r.haddr) tag (.prxRdData (b2n poison) grant tag data)
  | .ring x _ => onRing c x (fun y => { y with got := y.got ++ [(lineNo r.haddr, data, poison)] })
  | _ => c

/-- A write, or a clean eviction, is done and leaves the tracker (R45, R213). A Set LSA is answered with the last of its writes (R88). -/
def answerWrite (c : Ctl) (r : Req) : Ctl :=
  let load (h l : Nat) := devLoad c h l
  let c := dropReq c r.id
  match r.src with
  | .host h l t => emit c (.cxlCmp h l t (load h l))
  | .proxy k tag _ _ => respond c k (some r.haddr) tag (.prxCmp 0 tag)
  | .mailbox h l op => emit c (.mbox (4 * h + l) op 0 [])
  | .lsa h l => if c.reqs.any (fun q => q.src == .lsa h l) then c else emit c (.mbox (4 * h + l) 0x4103 0 [])
  | .entry x sig now => if sig then ringSignal c x now else c
  | _ => c

/-- A durable write completes, after its throttle delay where one applies (R45, R76): every write that someone waits for. -/
def complete (c : Ctl) (r : Req) : Ctl :=
  match r.src with
  | .writeback _ _ => answerWrite c r
  | _ => if r.delay then waitReq c r.id .throttle else answerWrite c r

/-- An access to an offline hall (R162, R215): the read returns poison, the write is dropped, and each raises a General Media record. -/
def answerOffline (c : Ctl) (r : Req) : Ctl :=
  match r.src with
  | .proxy k tag _ _ =>
    let c := dropReq c r.id
    if r.isRead then respond c k (some r.haddr) tag (.prxRdData 2 0 tag 0) else respond c k (some r.haddr) tag (.prxCmp 2 tag)
  | _ =>
    let c := match ldKey r.src with
      | some (true, d) => addEvent c d .warning (.media r.dpa)
      | _ => c
    if r.isRead then answerRead c r 0 true 0 else answerWrite c r

/-- An access to a shared hall by a BI-fenced LD (R104, R214). -/
def answerFenced (c : Ctl) (r : Req) : Ctl :=
  if r.isRead then answerRead c r 0 true 0
  else
    let c := match ldKey r.src with
      | some (true, d) => if r.isWrite then vendorEvent c d 8 r.ini 2 (hallOf r.haddr) r.dpa else c
      | _ => c
    answerWrite c r

/-- The LD of a request is fenced for shared halls: here, or at the partner with the fence not yet answered (R104, R214). -/
def ldFenced (c : Ctl) (r : Req) : Bool :=
  match ldKey r.src with
  | some (true, d) => (ldAt c d).biFenced
  | some (false, d) => c.twin.sent.any (fun s => match s.msg with | .role _ (.ldFence n false) => n == d | _ => false)
  | none => false

/-! ## The coherence directory (R98 to R108) -/

/-- A snoop reaches its holder: an LD of this device whose head is up and which is not fenced, or one of the partner. -/
def biReach (c : Ctl) (x : Holder) : Bool :=
  if x.here then (headAt c (x.ld / 4)).linkUp && ldPresented c x.ld && !(ldAt c x.ld).biFenced else pairedNow c

def biCode : SnpKind → Nat
  | .inv => 0 | .data => 1 | .invBlk2 => 2 | .invBlk => 3

/-- A head has fewer than 64 snoops out, the partner fewer than 512 (R109, R185). -/
def snoopRoom (c : Ctl) (x : Holder) : Bool :=
  if x.here then (c.snoops.filter (fun s => s.sent && s.holder.here && s.holder.ld / 4 == x.ld / 4)).length < 64
  else (c.twin.sent.filter (fun s => match s.msg with | .biFwd .. => true | _ => false)).length < 512

/-- A waiting snoop leaves: to a head, or through the partner (R103, R214). -/
def snoopIssue (c : Ctl) (s : Snoop) : Ctl :=
  let c := { c with snoops := modFirst (fun t => t == s) (fun t => { t with sent := true }) c.snoops }
  if s.holder.here then emit c (.snoop (s.holder.ld / 4) (s.holder.ld % 4) s.kind s.line)
  else sendAddr c (s.line * 64) .req (.snoop s.req s.holder.ld s.line)
    (fun t => .biFwd (biCode s.kind) (hallAt c (hallOf (s.line * 64))).gen t (s.line * 64) s.holder.ld)

/-- A snoop leaves, or waits for room. -/
def snoopPut (c : Ctl) (s : Snoop) : Ctl :=
  let c := { c with snoops := c.snoops ++ [s] }
  if snoopRoom c s.holder then snoopIssue c s else c

/-- Waiting snoops leave in order as far as there is room. -/
def snoopsGo (c : Ctl) : Ctl := c.snoops.foldl (fun c s => if !s.sent && snoopRoom c s.holder then snoopIssue c s else c) c

/-- A snoop of a line for a request (R100). -/
def snoopSend (c : Ctl) (kind : SnpKind) (line req : Nat) (x : Holder) : Ctl :=
  snoopPut c { kind := kind, holder := x, line := line, req := req, fwd := none, sent := false, sweep := false }

/-- A block snoop of the sweep (R107). -/
def sweepSend (c : Ctl) (line : Nat) (x : Holder) : Ctl :=
  snoopPut c { kind := .invBlk, holder := x, line := line, req := 0, fwd := none, sent := false, sweep := true }

/-- Every sharer of a hall as a holder. -/
def sharersOf (h : Hall) : List Holder := h.sharers.map (fun s => { here := s.here, ld := s.ld })

def dirAt (c : Ctl) (line : Nat) : Option DirEnt := (galAt c (galOf c (line * 64))).dir.find? (fun e => e.line == line)

/-- A line's entry is replaced; an entry without holders is freed. -/
def dirSet (c : Ctl) (line : Nat) (st : DirState) (hs : List Holder) : Ctl :=
  onGal c (galOf c (line * 64)) (fun g => { g with
    dir := if hs.isEmpty then delFirst (fun e => e.line == line) g.dir
      else if g.dir.any (fun e => e.line == line) then modFirst (fun e => e.line == line) (fun e => { e with state := st, holders := hs }) g.dir
      else g.dir ++ [{ line := line, state := st, holders := hs }] })

/-- The entries of the set that a line falls into (R101): 65,536 sets of 12 ways. -/
def dirSetOf (c : Ctl) (line : Nat) : List DirEnt :=
  (galAt c (galOf c (line * 64))).dir.filter (fun e => e.line % 65536 == line % 65536)

/-- The request is tracked by the directory (R98); data that a snooped holder returns is part of its answer. -/
def tracked (r : Req) : Bool :=
  match r.src, r.op with
  | .writeback _ _, _ => false
  | _, .read .inv | _, .read .data | _, .write | _, .wrPtl _ => true
  | _, _ => false

def holderOf (r : Req) : Option Holder := (ldKey r.src).map (fun x => { here := x.1, ld := x.2 })

/-- Snoops leave for a request, which waits for their answers; the entry is BUSY (R100, R102). -/
def snoopAll (c : Ctl) (r : Req) (kind : SnpKind) (line : Nat) (hs : List Holder) : Ctl :=
  let c := match dirAt c line with
    | some e => dirSet c line .busy e.holders
    | none => c
  (hs.filter (biReach c)).foldl (fun c x => snoopSend c kind line r.id x) (waitReq c r.id .snoop)

/-- Holders that no snoop reaches are treated as invalidated (R104, R105). -/
def dirPrune (c : Ctl) (line : Nat) : Ctl :=
  match dirAt c line with
  | some e => dirSet c line e.state (e.holders.filter (biReach c))
  | none => c

/-- The request's own state in the line's entry after it is served: SnpInv takes it exclusive, SnpData shared (R98). -/
def dirGrant (c : Ctl) (r : Req) : Ctl × Nat :=
  let line := lineNo r.haddr
  match r.op, holderOf r with
  | .read .inv, some x => (dirSet c line .exclusive [x], 2)
  | .read .data, some x =>
    let hs := ((dirAt c line).map (fun e => e.holders)).getD []
    (dirSet c line (if hs.isEmpty || hs == [x] then ((dirAt c line).map (fun e => e.state)).getD .shared else .shared) (addNew hs x), 1)
  | _, _ => (c, 0)

/-- The victim of a full set: some entry that is not BUSY. Which one pseudo-LRU picks is open: a free value (R102). -/
def victimOf (c : Ctl) (line : Nat) : Option DirEnt :=
  let l := (dirSetOf c line).filter (fun e => e.state != .busy)
  l[freeNat c % Nat.max 1 l.length]?

/-- The directory step of a request at the home of a shared hall: `true` when the request may go on (R98 to R106). -/
def dirStep (c : Ctl) (r : Req) : Bool × Ctl :=
  if !tracked r then (true, c)
  else
    let k := hallOf r.haddr
    let h := hallAt c k
    let line := lineNo r.haddr
    let cold := h.cold && !lineWarm h line
    if cold && !r.warmed && !((sharersOf h).filter (biReach c)).isEmpty then
      (false, snoopAll (onReq c r.id (fun r => { r with warmed := true })) r .inv line (sharersOf h))
    else
      let c := if cold then onHall c k (fun h => { h with warm := sins h.warm line }) else c
      let c := dirPrune c line
      match dirAt c line with
      | some e =>
        let others := e.holders.filter (fun x => some x != holderOf r)
        if e.state == .busy && c.snoops.any (fun s => s.line == line) then (false, waitReq c r.id .line)
        else if others.isEmpty then (true, c)
        else match r.op with
          | .read .data => if e.state == .exclusive then (false, snoopAll c r .data line others) else (true, c)
          | .read .inv => (false, snoopAll c r (if e.state == .exclusive then .data else .inv) line others)
          | _ => (false, snoopAll c r .inv line others)
      | none =>
        if r.isRead && (dirSetOf c line).length ≥ 12 then
          match victimOf c line with
          | some v =>
            let c := useFree (onGal c (galOf c r.haddr) (fun g => { g with evictions := (g.evictions + 1) % 2 ^ 32 }))
            let c := dirPrune c v.line
            match dirAt c v.line with
            | some v => (false, snoopAll c r .inv v.line v.holders)
            | none => (true, c)
          | none => (false, waitReq c r.id .line)
        else (true, c)

/-! ## Routes -/

/-- Where a request is carried out (R98, R161, R162, R211, R212, R230). A home whose tread is stale had the hall from a fenced gallery whose resync
had not sent the tread yet: it is offline until the gallery returns (R229). -/
inductive Route where
  | here | proxy | offline | hold
  deriving DecidableEq, Repr

def routeOf (c : Ctl) (r : Req) : Route :=
  let k := hallOf r.haddr
  let h := hallAt c k
  let g := galOfHall c k
  match r.src with
  | .proxy _ _ _ true | .scrub _ => .here
  | _ =>
    if isMeta r.haddr then (if !galFenced c (galOf c r.haddr) then .here else if galOffline c (galOf c r.haddr) then .offline else .proxy)
    else if c.pair.xfers.contains k && r.isWrite then .hold
    else if galOffline c g then .offline
    else if galFenced c g then (if h.home then .hold else .proxy)
    else if h.home && stale c (treadNo r.haddr) && pairedNow c then .offline
    else if !pairedNow c || h.home then .here
    else match r.op with
      | .read _ => if h.mode == .shared || stale c (treadNo r.haddr) then .proxy else .here
      | .cleanEvict => if h.mode == .shared then .proxy else .here
      | _ => .proxy

/-- An access goes to the partner (R212). -/
def sendProxy (c : Ctl) (r : Req) : Ctl :=
  let h := hallAt c (hallOf r.haddr)
  let c := waitReq c r.id .partner
  sendPrx c r.haddr (.proxy r.id) (fun t => match r.op with
    | .read snp => .prxRd (if h.mode == .shared then snp else .none) false h.gen t (r.haddr / 64 * 64) r.ini
    | .write => .prxWr64 r.poison h.gen t (r.haddr / 64 * 64) r.ini r.data
    | .wrPtl m => .prxWrPtl r.poison h.gen t (r.haddr / 64 * 64) r.ini m r.data
    | .cleanEvict => .prxCln h.gen t (r.haddr / 64 * 64) r.ini)

/-- A tread is fetched on demand, or waits for one of the 4,096 fetches (R271, R272). -/
def fetchStart (c : Ctl) (t : Nat) : Ctl :=
  if c.svr.fetches.contains t || c.svr.fetchWait.contains t then c
  else if c.svr.fetches.length < 4096 then onSvr c (fun s => { s with fetches := s.fetches ++ [t] })
  else onSvr c (fun s => { s with fetchWait := s.fetchWait ++ [t] })

/-! ## Reads -/

/-- The partner's copy of an uncorrectable line is asked for (R116, R216): by a MIRROR read at the home, by proxy path elsewhere. -/
def askPartner (c : Ctl) (r : Req) : Ctl :=
  let h := hallAt c (hallOf r.haddr)
  let c := onReq c r.id (fun r => { r with wait := .partner, tried := true })
  sendPrx c r.haddr (.correct r.id) (fun t => .prxRd .none h.home h.gen t (r.haddr / 64 * 64) r.ini)

/-- The class of a read's slots (R146): scrub, the pulls of the restore and resync engines, and the rest. -/
def readClass (r : Req) : Nat :=
  match r.src with
  | .scrub _ => 3
  | _ => if r.ini == 0x51 || r.ini == 0x52 then 2 else 0

/-- The line is served from local DRAM with its decode (R42, R115, R116, R138). The decoder reports the pattern of a poisoned line as long as the
errors beside it can be corrected (R139). -/
def serveRead (d : Dev) (r : Req) : Dev :=
  let c := bursts d.ctl (galOf d.ctl r.haddr) (readClass r)
  let mirror := match r.src with | .proxy _ _ _ m => m | _ => false
  let res := eccDecode (failedAt c r.haddr) r.ecc
  let isPoison := linePoison d.mem r.haddr && res != .uncorrectable
  let give (c : Ctl) (m : Store) (data : Line) (p : Bool) : Dev :=
    let (c, grant) := if !mirror && (hallAt c (hallOf r.haddr)).mode == .shared then dirGrant c r else (c, 0)
    { ctl := answerRead c r data p grant, mem := m }
  let fixed (c : Ctl) : Ctl := match res with
    | .corrected devs => eccCorrect c r.haddr devs (accessIni r) (accessOf r)
    | _ => c
  if mirror && (isPoison || stale c (treadNo r.haddr)) then give (fixed c) d.mem 0 true
  else if isPoison then give (fixed c) d.mem (lineData d.mem r.haddr) true
  else if res != .uncorrectable then give (fixed c) d.mem (lineData d.mem r.haddr) false
  else
    let c := if r.tried then c else eccFail c r.haddr (accessIni r) (accessOf r)
    if mirror then give c d.mem 0 true
    else if mirrored c (galOf c r.haddr) && !r.tried then { d with ctl := askPartner c r }
    else give (mediaEvent c .failure r.haddr) (setPoison d.mem r.haddr true) (lineData d.mem r.haddr) true

/-! ## Writes -/

/-- A clean riser may not be dirtied at the ceiling, nor ahead of a write or a mirror message that already waits for room (R77, R78). -/
def stalls (c : Ctl) (r : Req) : Bool :=
  !isDirty c r.haddr
    && (atCeiling c || (c.reqs.takeWhile (fun q => q.id != r.id)).any (fun q => q.wait == .stall) || c.twin.held.any (fun x => x.stall && x.since ≤ r.id))

/-- The delay of R76 and R78: the larger of the device's own and the partner's. -/
def delayNs (c : Ctl) : Nat :=
  Nat.max (throttleNs c) (if pairedNow c then (c.pair.partner.map (fun p => p.delayNs)).getD 0 else 0)

/-- A write is placed in the coalescing buffer and its riser marked dirty (R44, R50, R58); it is then mirrored, or durable at once (R45). -/
def placeWrite (d : Dev) (r : Req) : Dev :=
  let c := d.ctl
  let delay := !isDirty c r.haddr && delayNs c > 0
  let m := match r.op with
    | .wrPtl mask => putBytes d.mem r.haddr mask.toNat r.data r.poison
    | _ => putLine d.mem r.haddr r.data r.poison
  let c := bursts (markDirty c (riserNo r.haddr)) (galOf c r.haddr) 1
  let h := hallAt c (hallOf r.haddr)
  let c := onReq c r.id (fun r => { r with placed := true, delay := delay, wait := .ack })
  if mirrored c (galOf c r.haddr) then
    let c := sendAddr c r.haddr .mir (.write r.id)
      (fun t => .mirWr64 (linePoison m r.haddr) h.gen t (r.haddr / 64 * 64) r.ini (lineData m r.haddr))
    { ctl := ackNews c, mem := m }
  else
    let c := ackNews (markChanged c (treadNo r.haddr))
    { ctl := complete c { r with placed := true, delay := delay }, mem := m }

/-- MemClnEvct takes the sender from a shared line's holders (R98). -/
def evictOp (c : Ctl) (r : Req) : Ctl :=
  let line := lineNo r.haddr
  let c := match dirAt c line, holderOf r with
    | some e, some x => dirSet c line e.state (e.holders.filter (fun y => y != x))
    | _, _ => c
  answerWrite c r

/-! ## Progress -/

/-- A request that waits for nothing outside is tried again. -/
def tryReq (d : Dev) (id : Nat) : Dev :=
  match reqAt d.ctl id with
  | none => d
  | some r =>
    let c := d.ctl
    if r.placed || r.wait == .partner || r.wait == .throttle || (r.wait == .snoop && c.snoops.any (fun s => s.req == id)) then d
    else
      let k := hallOf r.haddr
      let h := hallAt c k
      let shared := h.mode == .shared
      if blocked c r then { d with ctl := waitReq c id .line }
      else if flightHolds c r then { d with ctl := waitReq c id .flight }
      else match routeOf c r with
        | .hold => { d with ctl := waitReq c id .xfer }
        | .offline => { d with ctl := answerOffline c r }
        | .proxy => if shared && ldFenced c r then { d with ctl := answerFenced c r } else { d with ctl := sendProxy c r }
        | .here =>
          let mirror := match r.src with | .proxy _ _ _ m => m | _ => false
          if shared && !mirror && ldFenced c r then { d with ctl := answerFenced c r }
          else if unrestored c (treadNo r.haddr) && !stale c (treadNo r.haddr) && r.op != .cleanEvict then
            { d with ctl := fetchStart (waitReq (wakeGal c (galOf c r.haddr)) id (.fetch (treadNo r.haddr))) (treadNo r.haddr) }
          else
            let c := wakeGal c (galOf c r.haddr)
            if r.op == .cleanEvict then { d with ctl := if shared then evictOp c r else answerWrite c r }
            else if r.isWrite && c.pair.rsyOut.contains (treadNo r.haddr) then { d with ctl := waitReq c id .rsy }
            else
              let (go, c) := if shared && !mirror && h.home then dirStep c r else (true, c)
              if !go then { d with ctl := c }
              else if r.isRead then serveRead { d with ctl := c } r
              else if stalls c r then { d with ctl := waitReq c id .stall }
              else placeWrite { d with ctl := c } r

/-- Every request in arrival order. -/
def tryAll (d : Dev) : Dev := d.ctl.reqs.foldl (fun d r => tryReq d r.id) d

/-- A flush is answered once none of its writes is left (R113). -/
def gpfSettle (c : Ctl) : Ctl :=
  (List.range 16).foldl (fun c h =>
    let left := (headAt c h).gpf.map (fun l => l.filter (fun id => (reqAt c id).isSome))
    let done := (left.filter (fun l => l.isEmpty)).length
    let c := onHead c h (fun x => { x with gpf := left.filter (fun l => !l.isEmpty) })
    (List.range done).foldl (fun c _ => emit c (.gpf h)) c) c

/-! ## Releases in progress (R96) -/

/-- The device's own LD has been released from every shared hall: its fence is lifted (R104). -/
def fenceFree (c : Ctl) (d : Nat) : Ctl :=
  if (ldAt c d).biFenced && !c.halls.any (fun x => x.2.mode == .shared && x.2.sharers.any (fun s => s.here && s.ld == d)) then
    onLd c d (fun x => { x with biFenced := false })
  else c

/-- The assignment ends (R96 step 3): the last release leaves the hall unassigned and no longer cold. A ring that lies in it stops in ERROR
(R341). -/
def releaseApply (c : Ctl) (k : Nat) (here : Bool) (d : Nat) : Ctl :=
  let c := hallMod c k (fun h =>
    let sh := h.sharers.filter (fun s => !(s.here == here && s.ld == d))
    if sh.isEmpty then { h with sharers := [], count := 0, mode := .unassigned, cold := false, warm := [], swept := 0, tag := 0 }
    else { h with sharers := sh, count := sh.length })
  if here then
    let left (x : Ring) : Nat := (x.sqTail + 2 ^ x.logSize - x.sqHead) % 2 ^ x.logSize
    let c : Ctl := { c with rings := c.rings.map (fun y =>
      if y.2.owner == some d && left y.2 != 0 then (y.1, { y.2 with released := y.2.released ++ [(k, left y.2)] }) else y) }
    let c := c.rings.foldl (fun c y => if y.2.owner == some d && y.2.st == .running && ringIn y.2 k then ringHalt c y.1 .error 1 else c) c
    fenceFree (addEvent c d .dcd (.capacity false k)) d
  else c

/-- Requests, ring descriptors and flights that a release waits for (R96 step 1, R341). -/
def releaseBusy (c : Ctl) (x : Release) : Bool :=
  c.reqs.any (fun r => hallOf r.haddr == x.hall && ldKey r.src == some (x.here, x.ld))
    || c.rings.any (fun y => x.here && y.2.owner == some x.ld && y.2.descs.any (fun e => e.halls.contains x.hall))
    || c.flights.any (fun f => f.held && (flightLines f).any (fun l => hallOf (64 * l) == x.hall))

/-- The home snoops every line the LD holds in the hall, and in a cold hall every block that is not warm (R96 step 2). Requests of the LD that come
afterwards are still served, for R96 stops none (DESIGN CHOICE, log entry 104). -/
def releaseSnoop (c : Ctl) (x : Release) : Ctl :=
  let h := hallAt c x.hall
  let y : Holder := { here := x.here, ld := x.ld }
  if h.mode != .shared || !h.home || !biReach c y then c
  else
    let held := ((galAt c (galOfHall c x.hall)).dir.filter (fun e => hallOf (64 * e.line) == x.hall && e.holders.contains y)).map (fun e => e.line)
    let c := held.foldl (fun c l => snoopSend c .inv l 0 y) c
    if h.cold then
      ((List.range 4194304).filter (fun b => b ≥ h.swept && !(List.range 4).all (fun i => h.warm.contains (x.hall * 16777216 + 4 * b + i)))).foldl
        (fun c b => snoopSend c .invBlk (x.hall * 16777216 + 4 * b) 0 y) c
    else c

/-- A change of the hall map made in SERVICE.SOLO is kept for resync (R228). -/
def soloKeep (c : Ctl) (r : Role) : Ctl := if c.pair.paired && c.glb.mode == .solo then onPair c (fun p => { p with soloOps := p.soloOps ++ [r] }) else c

/-- A release that has run its course is answered. -/
def releaseEnd (c : Ctl) (x : Release) : Ctl :=
  let c := releaseApply { c with releases := c.releases.filter (fun y => y != x) } x.hall x.here x.ld
  let c := soloKeep c (.hallRelease x.hall x.ld (if x.here then c.twin.side else 1 - c.twin.side))
  let c := match x.rsp with
    | some (k, t) => respond c k none t (.roleRsp 3 0 t none)
    | none => c
  match x.reply with
  | some _ => emit c (.fmApi 0x5605 0 [])
  | none => c

/-- One release goes on as far as it can: its three steps in turn (R96; what arrives between them is served: DESIGN CHOICE, log entry 104). -/
def releaseGo (c : Ctl) (x : Release) : Ctl :=
  let put (p : RelPhase) (c : Ctl) : Ctl := { c with releases := c.releases.map (fun y => if y == x then { x with phase := p } else y) }
  match x.phase with
  | .waiting => if releaseBusy c x then c else releaseSnoop (put .snooping c) x
  | .snooping =>
    if c.snoops.any (fun s => s.holder == { here := x.here, ld := x.ld } && s.req == 0 && hallOf (64 * s.line) == x.hall) then c
    else if pairedNow c && x.rsp.isNone then
      if !(List.range 4).any (linkUp c) then c
      else sendRole (put .partner c) (.hallOp false 0 x.hall x.ld) (.hallRelease x.hall x.ld (if x.here then c.twin.side else 1 - c.twin.side))
    else releaseEnd c x
  | .partner => c

def releasesGo (c : Ctl) : Ctl := let c := c.releases.foldl releaseGo c; c.releases.foldl releaseGo c

/-! ## Tenancy operations (R92 to R96, R228, R521, R522) -/

/-- An add takes effect (R92, R94, R95). -/
def hallAddApply (c : Ctl) (k : Nat) (shared here : Bool) (d slot tag : Nat) : Ctl :=
  let h := hallAt c k
  let c := hallSet c k { h with
    mode := if shared then .shared else .priv, tag := tag, count := h.count + 1, sharers := h.sharers ++ [{ slot := slot, here := here, ld := d }] }
  if here then addEvent c d .dcd (.capacity true k) else c

/-- A tenancy operation is under way: the partner's answer or a release is awaited. -/
def tenantBusy (c : Ctl) : Bool :=
  c.twin.sent.any (fun s => match s.cont with | .hallOp true _ _ _ => true | _ => false) || c.releases.any (fun x => x.reply.isSome)

/-- The LD exists: one that its head presents, or one of the partner's. -/
def tenantLd (c : Ctl) (x : TenOp) : Bool := !x.here || ldPresented c x.ld

/-- The LD lies on a partner that is not reached (R228). -/
def tenantAway (c : Ctl) (x : TenOp) : Bool := !x.here && !pairedNow c

/-- The return code of an add before it takes effect (R92, R93, R127, R228): 0 success, 2 Invalid Input, 6 Busy. -/
def addCode (c : Ctl) (x : TenOp) : Nat :=
  let h := hallAt c x.hall
  let same := h.mode == .shared && x.shared
  if tenantAway c x then 6
  else if x.hall ≥ hallCount c || !tenantLd c x || h.sanitize then 2
  else if h.mode == .unassigned then 0
  else if !same || h.sharers.length ≥ 64 || h.sharers.any (fun s => s.here == x.here && s.ld == x.ld) || h.tag != x.tag then 2
  else 0

/-- The lowest sharer slot that no LD holds (R95). -/
def freeSharer (h : Hall) : Nat := ((List.range 64).find? (fun n => !h.sharers.any (fun s => s.slot == n))).getD 0

/-- The side of the LD of an operation. -/
def tenantSide (c : Ctl) (x : TenOp) : Nat := if x.here then c.twin.side else 1 - c.twin.side

/-- An add: sent to the partner first in SERVICE.PAIRED, applied at once alone (R94). -/
def addGo (c : Ctl) (x : TenOp) : Ctl :=
  let n := addCode c x
  let slot := freeSharer (hallAt c x.hall)
  let r : Role := .hallAdd x.hall x.shared x.ld (tenantSide c x) slot x.tag
  if n != 0 then emit c (.fmApi 0x5604 n [])
  else if pairedNow c then sendRole c (.hallOp true x.ini x.hall x.ld) r
  else emit (soloKeep (hallAddApply c x.hall x.shared x.here x.ld slot x.tag) r) (.fmApi 0x5604 0 [])

/-- A release begins (R96); one of a hall that the LD does not hold fails. -/
def releaseBegin (c : Ctl) (x : TenOp) : Ctl :=
  if tenantAway c x then emit c (.fmApi 0x5605 6 [])
  else if (hallAt c x.hall).sharers.any (fun s => s.here == x.here && s.ld == x.ld) then
    releasesGo { c with releases := c.releases ++ [{ hall := x.hall, here := x.here, ld := x.ld, phase := .waiting, reply := some x.ini, rsp := none }] }
  else emit c (.fmApi 0x5605 2 [])

/-- The next tenancy operation is carried out when none is under way (R522) and, in SERVICE.PAIRED, a twin link can carry it (R94). -/
def tenantNext (c : Ctl) : Ctl :=
  match c.tenants with
  | x :: l => if tenantBusy c || (pairedNow c && !(List.range 4).any (linkUp c)) then c else if x.add then addGo { c with tenants := l } x else releaseBegin { c with tenants := l } x
  | [] => c

def tenantsGo (c : Ctl) : Ctl := c.tenants.foldl (fun c _ => tenantNext c) c

def settleLoop : Nat → Dev → Dev
  | 0, d => d
  | n + 1, d =>
    let e := tryAll d
    if e.ctl.reqs == d.ctl.reqs then e else settleLoop n e

/-- Requests go on as far as they can. -/
def settle (d : Dev) : Dev :=
  let e := settleLoop (3 * d.ctl.reqs.length + 1) d
  poisonWatch { e with ctl := snoopsGo (tenantsGo (releasesGo (gpfSettle e.ctl))) }

/-- A request enters and goes as far as it can. -/
def submit (d : Dev) (r : Req) : Dev := settle { d with ctl := addReq d.ctl r }

/-! ## Snoop answers (R100 to R104) -/

/-- What an answer leaves of a holder: BIRspI removes it, BIRspS leaves it shared, BIRspE leaves it as it is; an invalidation always
removes it. -/
def dirAnswer (c : Ctl) (kind : SnpKind) (line : Nat) (x : Holder) (resp : Nat) : Ctl :=
  match dirAt c line with
  | some e =>
    let hs := if resp == 0 || kind != .data then e.holders.filter (fun y => y != x) else e.holders
    let more := c.snoops.any (fun s => s.line == line)
    dirSet c line (if more then .busy else if resp == 2 && kind == .data then .exclusive else .shared) hs
  | none => c

/-- Dirty data of a holder is a write from it, ordered before the request that waits (R100). -/
def writebackIn (c : Ctl) (x : Holder) (line : Nat) (data : Line) (poison : Bool) (req : Nat) : Ctl :=
  let r := { Req.fresh (.writeback x.here x.ld) x.ld .write 0 (line * 64) with data := data, poison := poison, id := c.nextReq }
  { c with reqs := c.reqs.takeWhile (fun q => q.id != req) ++ [r] ++ c.reqs.dropWhile (fun q => q.id != req), nextReq := c.nextReq + 1 }

/-- The sweep has warmed a block; with the last one the hall is warm (R107). -/
def sweepDone (c : Ctl) (k line : Nat) : Ctl :=
  let h := hallAt c k
  let b := line % 16777216 / 4
  if !h.cold || h.swept != b then c
  else if b + 1 ≥ 4194304 then hallEvent (hallMod c k (fun h => { h with cold := false, warm := [], swept := 0 })) k 4
  else onHall c k (fun h => { h with swept := b + 1, warm := h.warm.filter (fun l => l / 4 != line / 4) })

/-- A snoop of this device's directory is answered. -/
def snoopAnswer (d : Dev) (x : Holder) (line resp : Nat) (data : Option Line) (poison : Bool) : Dev :=
  match d.ctl.snoops.find? (fun s => s.holder == x && s.line == line && s.fwd.isNone) with
  | none => d
  | some s =>
    let c := { d.ctl with snoops := delFirst (fun t => t == s) d.ctl.snoops }
    let c := match data with
      | some v => writebackIn c x line v poison s.req
      | none => c
    let c := if s.sweep && !c.snoops.any (fun t => t.sweep && t.line == line) then sweepDone c (hallOf (line * 64)) line else c
    let lines := if s.kind == .invBlk then [line, line + 1, line + 2, line + 3] else [line]
    let c := lines.foldl (fun c l => dirAnswer c s.kind l x resp) c
    settle { d with ctl := c }

end Sys2Proof.Machine
end

