-- ==== Sys2Proof/Machine/Operands.lean ====
section
/-! DEFINITION. Machine/Operands.lean: the operand forms of memory commands: host addresses (R89, R90), byte ranges and the lines that cover them (R333 to R335). -/
namespace Sys2Proof.Machine

/-! ## Host addresses (R89, R90) -/

/-- The mode of the halls of a DPA's region. -/
def dpaMode (a : Nat) : HallMode := if a < region1 then .priv else .shared

/-- The hall is assigned to this LD of the device (HST_HALL_BITMAP). -/
def assigned (c : Ctl) (k d : Nat) : Bool := (hallAt c k).sharers.any (fun s => s.here && s.ld == d)

/-- The decode of an LD's DPA (R90): 0 to serve it, or the kind of the violation. -/
def decodeKind (c : Ctl) (d a : Nat) : Nat :=
  let k := hallOf (dpaOff a)
  if k ≥ hallCount c then 2
  else if (hallAt c k).mode != dpaMode a then 3
  else if !assigned c k d then 1
  else 0

/-- The hall that a violation record names: 0xFFFFFFFF beyond the device's halls. -/
def violHall (c : Ctl) (a : Nat) : Nat := if hallOf (dpaOff a) ≥ hallCount c then 0xFFFFFFFF else hallOf (dpaOff a)

/-- The first byte of a range where each hall it touches begins; a range is shorter than a hall. -/
def rangeEnds (a n : Nat) : List Nat := if hallOf (dpaOff a) == hallOf (dpaOff (a + n - 1)) && dpaMode a == dpaMode (a + n - 1) then [a] else [a, a + n - 1]

/-- The halls of a range. -/
def rangeHalls (a n : Nat) : List Nat := (rangeEnds a n).map (fun b => hallOf (dpaOff b))

/-- The first byte of a range that fails R90, with its kind. -/
def rangeFail (c : Ctl) (d a n : Nat) : Option (Nat × Nat) :=
  ((rangeEnds a n).map (fun b => (b, decodeKind c d b))).find? (fun x => x.2 != 0)

/-- A hall of the range is offline (R162). -/
def rangeOffline (c : Ctl) (a n : Nat) : Bool := (rangeHalls a n).any (fun k => galOffline c (galOfHall c k))

/-! ## Bytes and lines of a range -/

/-- The numbers of the lines that cover n bytes from an address. -/
def linesOf (a n : Nat) : List Nat := if n == 0 then [] else (List.range ((a + n - 1) / 64 + 1 - a / 64)).map (fun i => a / 64 + i)

/-- Byte i of a line. -/
def lineByte (v : Line) (i : Nat) : Byte := v.extractLsb' (8 * i) 8

/-- What a write stores to one line: its number, the bytes enabled, data and poison. -/
structure LineWr where
  line : Nat
  mask : Nat
  data : Nat
  poison : Bool
  deriving DecidableEq, Repr

/-- The line writes of a range: the byte at each of its addresses, and whether poison goes with it. -/
def lineWrites (a n : Nat) (byteAt : Nat → Byte) (poisonAt : Nat → Bool) : List LineWr :=
  (linesOf a n).map (fun l =>
    let on := (List.range 64).filter (fun i => a ≤ 64 * l + i && 64 * l + i < a + n)
    { line := l, mask := on.foldl (fun m i => m + 2 ^ i) 0, data := on.foldl (fun m i => m + (byteAt (64 * l + i)).toNat * 2 ^ (8 * i)) 0,
      poison := on.any (fun i => poisonAt (64 * l + i)) })

/-- The request that stores a line write: a full line, or its enabled bytes (R58, R182). -/
def LineWr.req (w : LineWr) (src : Source) (ini dpa : Nat) : Req :=
  { Req.fresh src ini (if w.mask == 2 ^ 64 - 1 then .write else .wrPtl (BitVec.ofNat 64 w.mask)) dpa (w.line * 64) with
    data := BitVec.ofNat 512 w.data, poison := w.poison }

/-- Byte k of an 8 B pattern (R334). -/
def patByte (p : Nat) (k : Nat) : Byte := BitVec.ofNat 8 (p / 2 ^ (8 * (k % 8)))

/-- CRC-32C continued from a seed (R334). -/
def crc32cFrom (seed : Nat) (l : List Byte) : Nat := l.foldl (crcByte 0x82F63B78) (seed ^^^ 0xFFFFFFFF) ^^^ 0xFFFFFFFF

end Sys2Proof.Machine
end

