-- ==== Sys2Proof/Machine/Rings.lean ====
section
/-! DEFINITION. Machine/Rings.lean: work rings and flights (R324 to R350). -/
namespace Sys2Proof.Machine

/-! ## Rings -/

def ringPage (r : Nat) : Nat := 0x1000000 + r * 0x1000
def ringGal (r : Nat) : Nat := r / 128
/-- The engine's initiator ID (R8). -/
def ringIni (r : Nat) : Nat := 0x48 + r / 128
/-- The ring lies wholly in halls of its owner (R326). -/
def ringPlaced (c : Ctl) (x : Ring) : Bool :=
  match x.owner with
  | some d => (rangeFail c d x.sqBase.toNat (64 * x.size)).isNone && (rangeFail c d x.cqBase.toNat (16 * x.size)).isNone
  | none => false

/-- Descriptors available and not started (R331). -/
def Ring.waiting (x : Ring) : Nat := (x.sqTail + x.size - x.sqHead) % x.size
/-- Entries written and not freed. -/
def Ring.unread (x : Ring) : Nat := (x.cqTail + x.size - x.cqHead) % x.size

/-- A draining or disabled ring with nothing in progress is DISABLED (R329, R330). -/
def ringRest (c : Ctl) (r : Nat) : Ctl :=
  let x := ringAt c r
  if x.descs.isEmpty && !x.enable && x.st != .disabled then ringHalt c r .disabled 0 else c

/-- The running rings of an LD become STOPPED (R341). -/
def ringsStopLd (c : Ctl) (d code : Nat) : Ctl :=
  c.rings.foldl (fun c x => if x.2.owner == some d && x.2.st == .running then ringHalt c x.1 .stopped code else c) c

/-- Every running ring becomes STOPPED (R341). -/
def ringsStopAll (c : Ctl) (code : Nat) : Ctl :=
  c.rings.foldl (fun c x => if x.2.st == .running || x.2.st == .draining then ringHalt c x.1 .stopped code else c) c

/-- Every ring is DISABLED, nothing is in progress and its pointers are at their reset values (R341, R501). -/
def ringsDisable (c : Ctl) : Ctl :=
  { c with rings := c.rings.map (fun x => (x.1, { Ring.reset with
      owner := x.2.owner, sqBase := x.2.sqBase, cqBase := x.2.cqBase, logSize := x.2.logSize, vector := x.2.vector,
      intCount := x.2.intCount, intDelay := x.2.intDelay, completed := x.2.completed, errors := x.2.errors })) }

/-- ENABLE = 1 (R330, R332). -/
def ringEnableOp (c : Ctl) (ini r : Nat) : Ctl :=
  let x := ringAt c r
  if x.st != .disabled then illegal c ini
  else if 6 ≤ x.logSize && x.logSize ≤ 16 && 2 ≤ x.vector && x.vector ≤ 31 && ringPlaced c x then
    onRing c r (fun x => { x with st := .running, code := 0, enable := true, sqHead := 0, sqTail := 0, cqHead := 0, cqTail := 0, phase := true,
                                  signalled := 0, delayRun := false, got := [], doorbells := [], released := [] })
  else onRing c r (fun x => { x with st := .error, code := 1, enable := true })

/-- ENABLE = 0 (R330). -/
def ringDisableOp (c : Ctl) (r : Nat) : Ctl :=
  let c := onRing c r (fun x => { x with enable := false, st := if x.st == .running then .draining else x.st })
  ringRest c r

/-- The host writes of an LD that have reached its head and are not durable (R337). -/
def ldWrites (c : Ctl) (d : Nat) : List Nat :=
  (c.reqs.filter (fun q => q.isWrite && (match q.src with | .host h l _ => 4 * h + l == d | _ => false))).map (fun q => q.id)

/-- The doorbell (R331, R332). -/
def sqTailOp (c : Ctl) (ini r tail : Nat) : Ctl :=
  let x := ringAt c r
  let more := (tail + x.size - x.sqHead) % x.size
  if x.st != .running || tail ≥ x.size || more + x.descs.length + x.unread > x.size - 1 then illegal c ini
  else onRing c r (fun x => { x with
    sqTail := tail, doorbells := if tail == x.sqTail then x.doorbells else x.doorbells ++ [(tail, (x.owner.map (ldWrites c)).getD [])] })

/-- Completion entries are freed (R331, R332). -/
def cqHeadOp (c : Ctl) (ini r head : Nat) : Ctl :=
  let x := ringAt c r
  if head ≥ x.size || (head + x.size - x.cqHead) % x.size > x.unread then illegal c ini
  else onRing c r (fun x => { x with cqHead := head })

/-! ## Reads of the engine (R327, R336) -/

/-- The engine reads lines for the next descriptor; those in hand or asked for are not read again. The first one decodes as given. -/
def ringFetch (d : Dev) (r : Nat) (lines : List Nat) (ecc : EccRes) : Dev :=
  lines.foldl (fun d l =>
    if (ringAt d.ctl r).got.any (fun x => x.1 == l) || d.ctl.reqs.any (fun q => q.isRead && q.haddr == 64 * l && (match q.src with | .ring x _ => x == r | _ => false))
    then d
    else submit d { Req.fresh (.ring r 0) (ringIni r) (.read .data) (64 * l) (64 * l) with ecc := if some l == lines.head? then ecc else .clean }) d

def ringHas (c : Ctl) (r : Nat) (lines : List Nat) : Bool := lines.all (fun l => (ringAt c r).got.any (fun x => x.1 == l))

/-- A byte the engine has read, and whether its line came with poison. -/
def gotByte (x : Ring) (a : Nat) : Byte := ((x.got.find? (fun e => e.1 == a / 64)).map (fun e => lineByte e.2.1 (a % 64))).getD 0
def gotPoison (x : Ring) (a : Nat) : Bool := ((x.got.find? (fun e => e.1 == a / 64)).map (fun e => e.2.2)).getD false
def gotBytes (x : Ring) (a n : Nat) : List Byte := (List.range n).map (fun i => gotByte x (a + i))
/-- An n-byte little-endian field. -/
def gotField (x : Ring) (a n : Nat) : Nat := ofBytes (gotBytes x a n)
def gotAnyPoison (x : Ring) (a n : Nat) : Bool := (linesOf a n).any (fun l => gotPoison x (64 * l))

/-! ## Starting a descriptor -/

/-- The next descriptor may be looked at (R331, R336, R337). -/
def ringMay (c : Ctl) (r : Nat) : Bool :=
  let x := ringAt c r
  let g := c.rings.foldl (fun n y => if ringGal y.1 == ringGal r then n + y.2.descs.length else n) 0
  serving c && x.st == .running && !ringEngFenced c (ringGal r) && x.waiting != 0 && x.descs.length < 16 && g < 512
    && x.unread + x.descs.length < x.size && !x.descs.any (fun y => match y.st with | .barrier _ _ => true | _ => false)

/-- How a descriptor starts: its status, result, what it waits for, the halls it addresses. -/
structure Started where
  status : Nat
  result : Nat
  poison : Bool
  st : DescSt
  halls : List Nat
  deriving DecidableEq, Repr

def Started.fail (n : Nat) : Started := { status := n, result := 0, poison := false, st := .finished, halls := [] }

/-- The descriptor leaves the ring and is in progress (R336). Its own number is the one its requests carry. -/
def ringTake (c : Ctl) (r : Nat) (s : Started) : Ctl :=
  let x := ringAt c r
  let a := dpaOff x.sqBase.toNat + 64 * x.sqHead
  let head := (x.sqHead + 1) % x.size
  let e : Desc := { id := c.nextReq, index := x.sqHead, opcode := gotField x a 1, irq := bitOf (gotField x (a + 1) 1) 0, tag := gotField x (a + 4) 4,
                    status := s.status, poisonCopied := s.poison, result := BitVec.ofNat 64 s.result, st := s.st, halls := s.halls }
  let c := onRing { c with nextReq := c.nextReq + 1 } r (fun x => { x with
    sqHead := head, got := [], descs := x.descs ++ [e],
    doorbells := x.doorbells.dropWhile (fun b => b.1 == head),
    released := (x.released.map (fun y => (y.1, y.2 - 1))).filter (fun y => y.2 != 0) })
  c

/-- The checks of R335 and R341 over ranges: none when all pass. -/
def ringCheck (c : Ctl) (r : Nat) (ranges : List (Nat × Nat)) : Option (Nat × Ctl) :=
  let x := ringAt c r
  let d := x.owner.getD 0
  match (ranges.filterMap (fun y => rangeFail c d y.1 y.2)).head? with
  | some (a, kind) =>
    if kind == 1 && x.released.any (fun y => y.1 == hallOf (dpaOff a)) then some (6, c)
    else some (2, violateOn c (d / 4) (ringIni r) a 1 kind (violHall c a))
  | none => if ranges.any (fun y => rangeOffline c y.1 y.2) then some (3, c) else none

/-- The descriptor's line writes enter as requests that carry its number. -/
def ringWrites (d : Dev) (r id : Nat) (ws : List LineWr) : Dev :=
  ws.foldl (fun d w => submit d (w.req (.ring r id) (ringIni r) (64 * w.line))) d

/-- Every byte of the descriptor from an offset on is 0. -/
def zeroFrom (x : Ring) (a lo : Nat) : Bool := (gotBytes x (a + lo) (64 - lo)).all (fun b => b == 0)
def zeroAt (x : Ring) (a lo n : Nat) : Bool := (gotBytes x (a + lo) n).all (fun b => b == 0)
/-- LEN of 1 B to 16 MiB. -/
def lenOk (n : Nat) : Bool := 1 ≤ n && n ≤ 0x1000000
/-- Two ranges share a byte. -/
def overlap (a n b m : Nat) : Bool := a < b + m && b < a + n

/-- The header is well formed: FLAGS bits 7:2 and bytes 2 and 3 are 0 (R333). -/
def headerOk (x : Ring) (a : Nat) : Bool := gotField x (a + 1) 1 < 4 && zeroAt x a 2 2

/-- The outcome of looking at the next descriptor: more lines are needed, or it starts. -/
inductive Look where
  | more (lines : List Nat) (ecc : EccRes)
  | start (s : Started) (ws : List LineWr)

/-- A checked copy, comparison or checksum over ranges, once its sources are read. -/
def lookData (c : Ctl) (r : Nat) (srcs dsts : List (Nat × Nat)) (ecc : EccRes) (f : Ring → Started × List LineWr) : Ctl × Look :=
  match ringCheck c r (srcs ++ dsts) with
  | some (st, c) => (c, .start (Started.fail st) [])
  | none =>
    let lines := srcs.flatMap (fun y => linesOf (dpaOff y.1) y.2)
    if !ringHas c r lines then (c, .more lines ecc)
    else
      let (s, ws) := f (ringAt c r)
      (c, .start { s with halls := (srcs ++ dsts).flatMap (fun y => rangeHalls y.1 y.2) } ws)

/-- COPY (R334). -/
def lookCopy (c : Ctl) (r a : Nat) (ecc : EccRes) : Ctl × Look :=
  let x := ringAt c r
  let src := gotField x (a + 8) 8; let dst := gotField x (a + 16) 8; let n := gotField x (a + 24) 4
  if !(lenOk n && zeroFrom x a 28) || overlap src n dst n then (c, .start (Started.fail 1) [])
  else lookData c r [(src, n)] [(dst, n)] ecc (fun x =>
    let s := dpaOff src; let t := dpaOff dst
    ({ status := 0, result := 0, poison := gotAnyPoison x s n, st := .writing, halls := [] },
     lineWrites t n (fun b => gotByte x (s + (b - t))) (fun b => gotPoison x (s + (b - t)))))

/-- FILL (R334). -/
def lookFill (c : Ctl) (r a : Nat) : Ctl × Look :=
  let x := ringAt c r
  let dst := gotField x (a + 8) 8; let pat := gotField x (a + 16) 8; let n := gotField x (a + 24) 4
  if !(lenOk n && zeroFrom x a 28) then (c, .start (Started.fail 1) [])
  else lookData c r [] [(dst, n)] .clean (fun _ =>
    ({ status := 0, result := 0, poison := false, st := .writing, halls := [] }, lineWrites (dpaOff dst) n (patByte pat) (fun _ => false)))

/-- The offset of the first differing byte of two ranges, or all ones (R334). -/
def firstDiff (x : Ring) (s t n : Nat) : Nat := ((List.range n).find? (fun i => gotByte x (s + i) != gotByte x (t + i))).getD 0xFFFFFFFFFFFFFFFF

/-- COMPARE (R334, R339). -/
def lookCompare (c : Ctl) (r a : Nat) (ecc : EccRes) : Ctl × Look :=
  let x := ringAt c r
  let s := gotField x (a + 8) 8; let t := gotField x (a + 16) 8; let n := gotField x (a + 24) 4
  if !(lenOk n && zeroFrom x a 28) then (c, .start (Started.fail 1) [])
  else lookData c r [(s, n), (t, n)] [] ecc (fun x =>
    if gotAnyPoison x (dpaOff s) n || gotAnyPoison x (dpaOff t) n then (Started.fail 4, [])
    else ({ Started.fail 0 with result := firstDiff x (dpaOff s) (dpaOff t) n }, []))

/-- CRC32C (R334, R339). -/
def lookCrc (c : Ctl) (r a : Nat) (ecc : EccRes) : Ctl × Look :=
  let x := ringAt c r
  let s := gotField x (a + 8) 8; let n := gotField x (a + 24) 4; let seed := gotField x (a + 28) 4
  if !(lenOk n && zeroAt x a 16 8 && zeroFrom x a 32) then (c, .start (Started.fail 1) [])
  else lookData c r [(s, n)] [] ecc (fun x =>
    if gotAnyPoison x (dpaOff s) n then (Started.fail 4, []) else ({ Started.fail 0 with result := crc32cFrom seed (gotBytes x (dpaOff s) n) }, []))

/-- PERSIST_BARRIER (R337). -/
def lookBarrier (c : Ctl) (r a : Nat) : Ctl × Look :=
  let x := ringAt c r
  let scope := gotField x (a + 8) 1
  if !(scope ≤ 1 && zeroFrom x a 9) then (c, .start (Started.fail 1) [])
  else
    let rs := if scope == 0 then [x] else (c.rings.map (fun y => y.2)).filter (fun y => y.owner == x.owner)
    let reqs := (x.doorbells.head?.map (fun b => b.2)).getD []
    (c, .start { Started.fail 0 with st := .barrier reqs (rs.flatMap (fun y => y.descs.map (fun e => e.id))) } [])

/-! ## Flights (R343 to R349) -/

def flightKey (own : Bool) (slot : Nat) (f : Flight) : Bool := f.own == own && f.slot == slot
def flightAt (c : Ctl) (own : Bool) (slot : Nat) : Option Flight := c.flights.find? (flightKey own slot)
def onFlight (c : Ctl) (own : Bool) (slot : Nat) (f : Flight → Flight) : Ctl := { c with flights := modFirst (flightKey own slot) f c.flights }

/-- A free flight slot of the engine (R343). -/
def freeSlot (c : Ctl) (r : Nat) : Option Nat :=
  ((List.range 32).map (fun i => 32 * ringGal r + i)).find? (fun s => (flightAt c true s).isNone)

/-- One entry of a segment list. -/
structure SegEnt where
  dst : Nat
  src : Nat
  len : Nat
  kind : Nat
  ok : Bool
  deriving DecidableEq, Repr

def segEnts (x : Ring) (list segs : Nat) : List SegEnt :=
  (List.range segs).map (fun i =>
    let a := list + 32 * i
    let n := gotField x (a + 16) 4; let k := gotField x (a + 20) 1
    { dst := gotField x a 8, src := gotField x (a + 8) 8, len := n, kind := k, ok := 1 ≤ n && n ≤ 0x100000 && k ≤ 1 && zeroAt x a 21 11 })

/-- Two segments share a destination byte (R343). -/
def segsOverlap : List SegEnt → Bool
  | [] => false
  | e :: l => l.any (fun f => overlap e.dst e.len f.dst f.len) || segsOverlap l

/-- The 16 B units of a journal as bytes (R344). -/
def padUnits (l : List Byte) : List Byte := l ++ List.replicate ((16 - l.length % 16) % 16) 0
def segTable (s : Seg) : List Byte := bytesOf 8 s.dst ++ bytesOf 4 s.len ++ [if s.fill then 1 else 0, 0, 0, 0]
def journalBytes (segs : List Seg) : List Byte := segs.flatMap segTable ++ segs.flatMap (fun s => padUnits s.data)

/-- The segments that a received journal spells: its table, then the data of each (R344). -/
def parseData : List Byte → List Byte → Nat → List Seg
  | _, _, 0 => []
  | tbl, data, n + 1 =>
    let len := ofBytes ((tbl.drop 8).take 4)
    let fill := tbl.getD 12 0 == 1
    let m := if fill then 8 else len
    { dst := ofBytes (tbl.take 8), len := len, fill := fill, data := data.take m }
      :: parseData (tbl.drop 16) (data.drop ((m + 15) / 16 * 16)) n
def parseJournal (j : List Byte) (segs : Nat) : List Seg := parseData (j.take (16 * segs)) (j.drop (16 * segs)) segs

/-- The line writes of a segment. -/
def segWrites (s : Seg) : List LineWr :=
  lineWrites s.dst s.len (fun b => if s.fill then patByte (ofBytes s.data) b else s.data.getD (b - s.dst) 0) (fun _ => false)

/-- Another flight that the device holds as committed shares a destination line (R347). -/
def flightOverlap (c : Ctl) (f : Flight) : Bool :=
  c.flights.any (fun g => g.held && !(flightKey f.own f.slot g) && (flightLines g).any (fun l => (flightLines f).contains l))

/-- A committed flight is applied through the write paths (R345 step 4). -/
def flightApply (d : Dev) (f : Flight) : Dev :=
  f.segs.foldl (fun d s => (segWrites s).foldl (fun d w => submit d (w.req (.flight f.own f.slot) (0x48 + f.slot / 32) (64 * w.line))) d) d

/-- The flight's descriptor has its result and waits for its entry. -/
def flightDesc (c : Ctl) (f : Flight) (status n : Nat) : Ctl :=
  onRing c f.ring (fun x =>
    { x with descs := modFirst (fun e => e.id == f.desc) (fun e => { e with st := .finished, status := status, result := BitVec.ofNat 64 n }) x.descs })

/-- An own flight commits, unless an overlapping flight is still held (R345 step 3, R347). -/
def flightCommit (d : Dev) (slot : Nat) : Dev :=
  match flightAt d.ctl true slot with
  | none => d
  | some f =>
    let c := d.ctl
    if f.held then d
    else if flightOverlap c f then { d with ctl := onFlight c true slot (fun f => { f with st := .acked }) }
    else
      let n := c.commitSeq
      let c := { c with commitSeq := n + 1, flightCount := tmod c.flightCount (slot / 32) 0 (fun k => (k + 1) % 2 ^ 32) }
      let c := flightDesc (onFlight c true slot (fun f => { f with st := .committed, commitSeq := n })) f 0 n
      flightApply { d with ctl := c } f

/-- The journal goes to the partner in chunks of 16 units, then JRN_END (R345 step 2). -/
def flightSend (c : Ctl) (f : Flight) : Ctl :=
  let j := journalBytes f.segs
  let units := j.length / 16
  let c := (List.range ((units + 15) / 16)).foldl (fun c i =>
    let b := (j.drop (256 * i)).take 256
    sendAddr c (flightAddr f.slot) .mir .none (fun t => .jrnWr f.fgen t (16 * i) f.slot (0x48 + f.slot / 32) (b.length / 16) (BitVec.ofNat 2048 (ofBytes b)))) c
  sendAddr c (flightAddr f.slot) .mir (.journal f.slot) (fun t => .jrnEnd f.fgen t units f.slot f.segs.length)

/-- An own flight is journalled here and, when paired, at the partner (R345 step 2). -/
def flightJournal (d : Dev) (f : Flight) : Dev :=
  let c := onFlight d.ctl true f.slot (fun f => { f with st := .sentEnd })
  if pairedNow c then { d with ctl := ackNews (flightSend c f) } else flightCommit { d with ctl := c } f.slot

/-- Flights that waited for an overlapping one go on (R345, R347). -/
def flightsGo (d : Dev) : Dev :=
  d.ctl.flights.foldl (fun d f =>
    if !f.own then d
    else if f.st == .acked then flightCommit d f.slot
    else if f.st == .journal && !flightOverlap d.ctl f then flightJournal d f
    else d) d

/-- A flight retires: its slot, journal and lines are freed (R345 step 5). -/
def flightRetire (d : Dev) (own : Bool) (slot : Nat) : Dev :=
  let c := { d.ctl with flights := delFirst (flightKey own slot) d.ctl.flights }
  settle (flightsGo { d with ctl := ackNews (rampDown c) })

/-- An own flight that has not committed is abandoned; the partner discards its journal (R342, R347). -/
def flightAbandon (c : Ctl) (f : Flight) : Ctl :=
  let c := { c with flights := delFirst (flightKey true f.slot) c.flights, flightAbandoned := tmod c.flightAbandoned (f.slot / 32) 0 (fun n => satInc n 0xFFFF) }
  if pairedNow c && f.st != .journal then
    ackNews (sendAddr c (flightAddr f.slot) .mir .none (fun t => .jrnDone f.fgen t f.slot))
  else c

/-- The flight of a started descriptor: it is journalled, unless a flight that the device holds as committed shares a line (R345). -/
def flightBegin (d : Dev) (r slot : Nat) (segs : List Seg) : Dev :=
  let c := d.ctl
  let x := ringAt c r
  let gen := match tget c.fgen slot with | some n => (n + 1) % 65536 | none => 0
  let id := (x.descs.getLast?.map (fun e => e.id)).getD 0
  let f : Flight := { own := true, slot := slot, fgen := gen, ring := r, desc := id, ld := x.owner.getD 0, st := .journal, commitSeq := 0, segs := segs, journal := [] }
  let c := { c with fgen := tset c.fgen slot gen, flights := c.flights ++ [f] }
  if flightOverlap c f then { d with ctl := c } else flightJournal { d with ctl := c } f

/-- A flight that fails before its commit is counted (GAL_FLIGHT_COUNT). -/
def flightFailed (c : Ctl) (r : Nat) : Ctl := { c with flightAbandoned := tmod c.flightAbandoned (ringGal r) 0 (fun n => satInc n 0xFFFF) }

/-- FLIGHT: the checks of R335, R339 and R343, and the segments with their data. -/
def lookFlight (c : Ctl) (r a : Nat) (ecc : EccRes) : Ctl × Look × List Seg :=
  let x := ringAt c r
  let list := gotField x (a + 8) 8; let n := gotField x (a + 16) 2
  let bad (c : Ctl) (k : Nat) : Ctl × Look × List Seg := (flightFailed c r, .start (Started.fail k) [], [])
  if !(1 ≤ n && n ≤ 512 && zeroFrom x a 18 && list % 4096 == 0) then bad c 1
  else match ringCheck c r [(list, 32 * n)] with
    | some (k, c) => bad c k
    | none =>
      let l := dpaOff list
      if !ringHas c r (linesOf l (32 * n)) then (c, .more (linesOf l (32 * n)) ecc, [])
      else if gotAnyPoison x l (32 * n) then bad c 4
      else
        let es := segEnts x l n
        if es.any (fun e => !e.ok) || segsOverlap es then bad c 1
        else if es.foldl (fun n e => n + e.len) 0 > 0x100000 then bad c 5
        else
          let srcs := (es.filter (fun e => e.kind == 0)).map (fun e => (e.src, e.len))
          let dsts := es.map (fun e => (e.dst, e.len))
          match ringCheck c r (dsts ++ srcs) with
          | some (k, c) => bad c k
          | none =>
            let lines := srcs.flatMap (fun y => linesOf (dpaOff y.1) y.2)
            if !ringHas c r lines then (c, .more lines ecc, [])
            else if srcs.any (fun y => gotAnyPoison x (dpaOff y.1) y.2) then bad c 4
            else if (freeSlot c r).isNone then (c, .more [] ecc, [])
            else
              let segs : List Seg := es.map (fun e =>
                { dst := dpaOff e.dst, len := e.len, fill := e.kind == 1, data := if e.kind == 1 then bytesOf 8 e.src else gotBytes x (dpaOff e.src) e.len })
              let halls := (dsts ++ srcs).flatMap (fun y => rangeHalls y.1 y.2)
              (c, .start { Started.fail 0 with st := .flight ((freeSlot c r).getD 0), halls := halls } [], segs)

/-- The next descriptor is read, checked and started (R333 to R345), when its opcode is the command's; one that R333 does not list may be
started by any. A descriptor whose lines are still on their way waits: the command comes again (log entry 33). -/
def ringStart (d : Dev) (r op : Nat) (ecc src : EccRes) : Dev :=
  let c := d.ctl
  if !ringMay c r then d
  else if !ringPlaced c (ringAt c r) then { d with ctl := ringHalt c r .error 1 }
  else
    let x := ringAt c r
    let a := dpaOff x.sqBase.toNat + 64 * x.sqHead
    let d := ringFetch d r [a / 64] ecc
    let c := d.ctl
    let x := ringAt c r
    if !ringHas c r [a / 64] then d
    else if gotPoison x a then { d with ctl := ringHalt c r .error 2 }
    else
      let code := gotField x a 1
      if !(code == op || code > 6) || (bitOf (gotField x (a + 1) 1) 1 && !x.descs.isEmpty) then d
      else if code > 6 || !headerOk x a then { d with ctl := ringTake c r (Started.fail 1) }
      else
        let (c, look, segs) : Ctl × Look × List Seg :=
          if code == 0 then (c, .start (Started.fail (if zeroFrom x a 8 then 0 else 1)) [], [])
          else if code == 1 then let (c, l) := lookCopy c r a src; (c, l, [])
          else if code == 2 then let (c, l) := lookFill c r a; (c, l, [])
          else if code == 3 then let (c, l) := lookCompare c r a src; (c, l, [])
          else if code == 4 then let (c, l) := lookCrc c r a src; (c, l, [])
          else if code == 5 then let (c, l) := lookBarrier c r a; (c, l, [])
          else lookFlight c r a src
        match look with
        | .start s ws =>
          let d := { d with ctl := ringTake c r s }
          match s.st with
          | .flight slot => flightBegin d r slot segs
          | _ => ringWrites d r (d.ctl.nextReq - 1) ws
        | .more lines e => ringFetch { d with ctl := c } r lines e

/-- The command runs again once its lines are there: the descriptor, the segment list, the sources. -/
def ringRun (d : Dev) (r op : Nat) (ecc src : EccRes) : Dev :=
  let started (e : Dev) : Bool := (ringAt e.ctl r).sqHead != (ringAt d.ctl r).sqHead
  let e := ringStart d r op ecc src
  if started e then e
  else
    let e := ringStart e r op .clean src
    if started e then e else ringStart e r op .clean src

/-! ## Completion (R338 to R341) -/

/-- The descriptor's work is done. -/
def descDone (c : Ctl) (r : Nat) (e : Desc) : Bool :=
  match e.st with
  | .finished => true
  | .writing => !c.reqs.any (fun q => match q.src with | .ring x i => x == r && i == e.id && !q.isRead | _ => false)
  | .flight _ => false
  | .barrier reqs descs => !c.reqs.any (fun q => reqs.contains q.id) && !c.rings.any (fun y => y.2.descs.any (fun f => descs.contains f.id))

/-- The 16 bytes of a completion entry. -/
def entryBytes (e : Desc) (phase : Bool) : List Byte :=
  bytesOf 4 e.tag ++ bytesOf 2 e.index ++ [BitVec.ofNat 8 e.status, BitVec.ofNat 8 (b2n phase + 2 * b2n e.poisonCopied)] ++ bytesOf 8 e.result.toNat

/-- A descriptor completes: its entry is written at CQ_TAIL (R338, R341), unless the completion ring has left the owner's halls (log entry 100). -/
def descComplete (d : Dev) (r index : Nat) : Dev :=
  let c := d.ctl
  let x := ringAt c r
  match x.descs.find? (fun e => e.index == index) with
  | none => d
  | some e =>
    if !(serving c && descDone c r e) then d
    else
      let drop (y : Ring) : Ring := { y with descs := delFirst (fun f => f.id == e.id) y.descs }
      let a := x.cqBase.toNat + 16 * x.cqTail
      if rangeOffline c a 16 then
        let c := onRing c r drop
        { d with ctl := ringRest (if x.st == .running then ringHalt c r .error 3 else c) r }
      else if (rangeFail c (x.owner.getD 0) a 16).isSome then { d with ctl := ringRest (onRing c r drop) r }
      else
        let tail := (x.cqTail + 1) % x.size
        let c := onRing c r (fun y => { drop y with
          cqTail := tail, phase := if tail == 0 then !y.phase else y.phase, completed := (y.completed + 1) % 2 ^ 32,
          errors := if e.status == 0 then y.errors else satInc y.errors 0xFFFFFFFF })
        let c := ringRest c r
        let b := entryBytes e x.phase
        (lineWrites (dpaOff a) 16 (fun p => b.getD (p - dpaOff a) 0) (fun _ => false)).foldl
          (fun d w => submit d (w.req (.entry r (e.irq || e.status != 0) (e.status != 0)) (ringIni r) a)) { d with ctl := c }

/-- Every write of a flight's apply is durable (R345 step 5): an own flight tells the partner first. -/
def flightApplied (d : Dev) (own : Bool) (slot : Nat) : Dev :=
  match flightAt d.ctl own slot with
  | none => d
  | some f =>
    let c := d.ctl
    if f.st != .committed || c.reqs.any (fun q => q.src == .flight own slot) then d
    else if !own then
      if pairedNow c then d
      else flightRetire { d with ctl := { c with partnerApplied := tmod c.partnerApplied (slot / 32) 0 (fun n => satInc n 0xFFFF) } } own slot
    else if pairedNow c then
      { d with ctl := sendAddr (onFlight c own slot (fun f => { f with st := .retiring })) (flightAddr slot) .mir (.retire slot) (fun t => .jrnDone f.fgen t slot) }
    else flightRetire d own slot

/-! ## The engine's fence (R342) -/

/-- A RING_ENGINE fault: rings stop, descriptors other than flights end, uncommitted flights are abandoned. -/
def engineFence (c : Ctl) (g : Nat) : Ctl :=
  let stop (x : Ring) : Ring :=
    { x with st := .stopped, code := 5, got := [], doorbells := [], released := [], descs := x.descs.filter (fun e => e.opcode == 6 && e.st == .finished) }
  let c : Ctl := { c with rings := c.rings.map (fun x => if ringGal x.1 == g && x.2.st != .disabled then (x.1, stop x.2) else x) }
  c.flights.foldl (fun c f => if f.own && f.slot / 32 == g && !f.held then flightAbandon c f else c) c

/-- RESTART (R342): it lifts the fence when every ring of the gallery is DISABLED. -/
def engineRestart (c : Ctl) (ini g : Nat) : Ctl :=
  if !ringEngFenced c g || c.rings.any (fun x => ringGal x.1 == g && x.2.st != .disabled) then illegal c ini
  else liftFence c (0x18 + g) true

/-! ## The commands -/

/-- RNG_SQ_TAIL (R331, R332). -/
def execRngSqTail (ini : Byte) (r : Fin 1024) (tail : BitVec 16) (s : State) : Host.Outcome State Fault Refusal :=
  onCtl s (fun c => regWrite c ini.toNat (ringPage r + 0x20) 8 (fun c => sqTailOp c ini.toNat r tail.toNat))

/-- RNG_CQ_HEAD (R331, R332). -/
def execRngCqHead (ini : Byte) (r : Fin 1024) (head : BitVec 16) (s : State) : Host.Outcome State Fault Refusal :=
  onCtl s (fun c => regWrite c ini.toNat (ringPage r + 0x28) 8 (fun c => cqHeadOp c ini.toNat r head.toNat))

/-- RING_ENABLE (R330). -/
def execRingEnable (ini : Byte) (r : Fin 1024) (s : State) : Host.Outcome State Fault Refusal :=
  onCtl s (fun c => regWrite c ini.toNat (ringPage r + 0x18) 8 (fun c => ringEnableOp c ini.toNat r))

/-- RING_DISABLE (R330). -/
def execRingDisable (ini : Byte) (r : Fin 1024) (s : State) : Host.Outcome State Fault Refusal :=
  onCtl s (fun c => regWrite c ini.toNat (ringPage r + 0x18) 8 (fun c => ringDisableOp c r))

/-- RING_NOP (R334). -/
def execRingNop (r : Fin 1024) (ecc : EccRes) (s : State) : Host.Outcome State Fault Refusal := onDev s (fun d => ringRun d r 0 ecc .clean)

/-- COPY (R334). -/
def execRingCopy (r : Fin 1024) (ecc src : EccRes) (s : State) : Host.Outcome State Fault Refusal := onDev s (fun d => ringRun d r 1 ecc src)

/-- FILL (R334). -/
def execRingFill (r : Fin 1024) (ecc : EccRes) (s : State) : Host.Outcome State Fault Refusal := onDev s (fun d => ringRun d r 2 ecc .clean)

/-- COMPARE (R334). -/
def execRingCompare (r : Fin 1024) (ecc src : EccRes) (s : State) : Host.Outcome State Fault Refusal := onDev s (fun d => ringRun d r 3 ecc src)

/-- CRC32C (R334). -/
def execRingCrc32c (r : Fin 1024) (ecc src : EccRes) (s : State) : Host.Outcome State Fault Refusal := onDev s (fun d => ringRun d r 4 ecc src)

/-- PERSIST_BARRIER (R337). -/
def execPersistBarrier (r : Fin 1024) (ecc : EccRes) (s : State) : Host.Outcome State Fault Refusal := onDev s (fun d => ringRun d r 5 ecc .clean)

/-- FLIGHT (R343 to R345). -/
def execRingFlight (r : Fin 1024) (ecc src : EccRes) (s : State) : Host.Outcome State Fault Refusal := onDev s (fun d => ringRun d r 6 ecc src)

/-- DESCRIPTOR_COMPLETE (R338). -/
def execDescriptorComplete (r : Fin 1024) (index : BitVec 16) (s : State) : Host.Outcome State Fault Refusal :=
  onDev s (fun d => descComplete d r index.toNat)

/-- INT_DELAY_EXPIRY (R340). -/
def execIntDelayExpiry (r : Fin 1024) (s : State) : Host.Outcome State Fault Refusal :=
  onCtl s (fun c => if (ringAt c r).delayRun then ringInt c r else c)

/-- FLIGHT_APPLY_DONE (R345). -/
def execFlightApplyDone (own : Bool) (slot : Byte) (s : State) : Host.Outcome State Fault Refusal := onDev s (fun d => flightApplied d own slot.toNat)

/-- RING_ENGINE_RESTART (R342). -/
def execRingEngineRestart (ini : Byte) (g : Fin 8) (s : State) : Host.Outcome State Fault Refusal :=
  onCtl s (fun c => regWrite c ini.toNat (0x200000 + g * 0x20000 + 0x2000) 8 (fun c => engineRestart c ini.toNat g))

end Sys2Proof.Machine
end

