-- ==== Sys2Proof/Machine/Heads.lean ====
section
/-! DEFINITION. Machine/Heads.lean: the host heads: CXL.mem requests, back-invalidate answers, link events, poison and the LDs' own commands (R80 to R131). -/
namespace Sys2Proof.Machine

/-! ## Requests (R83, R90, R109, R118) -/

/-- A request is answered as a violation of kind n (R118). One that is neither a read nor a write, a MemClnEvct, is answered as a write is (DESIGN
CHOICE, log entry 103). -/
def memViolate (c : Ctl) (h l tag a n : Nat) (isRead : Bool) : Ctl :=
  let d := 4 * h + l
  let c := violate c d a (if isRead then 1 else 2) n (violHall c a)
  let c := vendorEvent c d (if isRead then 2 else 1) d (if isRead then 1 else 2) (violHall c a) a
  if isRead then emit c (.cxlData h l tag 0 true .noOp (devLoad c h l)) else emit c (.cxlCmp h l tag (devLoad c h l))

/-- CXL.mem of the LD reaches the device: its head's link is up in CXL mode, the LD is presented, the head is not fenced, and no integrity
failure makes it discard the stream's flits (R121, R129). -/
def memReach (c : Ctl) (h l : Nat) : Bool := ldReach c (4 * h + l) && !headFenced c h && (headAt c h).ideMem.st != .failed

/-- A request reaches the device while a tracker entry is free (R109). -/
def memArrives (c : Ctl) (h l : Nat) : Bool := memReach c h l && trackerOf c h < 256

/-- A CXL.mem request of LD l of head h: the checks of R118, then the tracker (R109). -/
def memEnter (dv : Dev) (h l tag a : Nat) (op : ReqOp) (f : Req → Req) : Dev :=
  let c := dv.ctl
  let isRead := match op with | .read _ => true | _ => false
  let d := 4 * h + l
  if !memArrives c h l then dv
  else
    let kind := if !bitOf (headAt c h).memActive l || !serving c then 4 else decodeKind c d a
    if kind != 0 then { dv with ctl := memViolate c h l tag a kind isRead }
    else submit dv (f (Req.fresh (.host h l tag) d op a (dpaOff a / 64 * 64)))

/-- A write that carries poison is reported (R128). -/
def poisonIn (dv : Dev) (h l a : Nat) (poison : Bool) : Dev :=
  if poison && memArrives dv.ctl h l then { dv with ctl := raiseAt dv.ctl (srcHead h 10) 0 a (4 * h + l) 2 } else dv

/-! ## Snoop answers (R100, R104, R214) -/

/-- The answer of a holder whose snoop the partner asked for goes back as BI_RSP (R214). -/
def fwdAnswer (c : Ctl) (s : Snoop) (resp : Nat) (data : Option Line) (poison : Bool) : Ctl :=
  match s.fwd with
  | some (k, n) =>
    snoopsGo (respond { c with snoops := delFirst (fun t => t == s) c.snoops } k (some (s.line * 64)) { orig := k, seq := n }
      (.biRsp resp { orig := k, seq := n } (s.line * 64) data poison))
  | none => c

/-- A holder's answer to a snoop on one of this device's heads. -/
def holderAnswer (dv : Dev) (d line resp : Nat) (data : Option Line) (poison : Bool) : Dev :=
  let x : Holder := { here := true, ld := d }
  match dv.ctl.snoops.find? (fun s => s.holder == x && s.line == line) with
  | none => dv
  | some s => if s.fwd.isSome then { dv with ctl := fwdAnswer dv.ctl s resp data poison } else snoopAnswer dv x line resp data poison

/-- An LD's holdings are gone without a snoop, and the snoops that wait for it are answered as invalidated (R105). -/
def holderGone (dv : Dev) (d : Nat) : Dev :=
  let x : Holder := { here := true, ld := d }
  let waits := (dv.ctl.snoops.filter (fun s => s.holder == x)).map (fun s => s.line)
  let dv := waits.foldl (fun dv l => holderAnswer dv d l 0 none false) dv
  let clean (g : Gal) : Gal := { g with dir := (g.dir.map (fun e => { e with holders := e.holders.filter (fun y => y != x) })).filter (fun e => !e.holders.isEmpty) }
  { dv with ctl := { dv.ctl with gals := dv.ctl.gals.map clean } }

/-- The LD is fenced for shared halls (R104). -/
def ldFenceOp (c : Ctl) (d : Nat) : Ctl :=
  let c := onLd c d (fun x => { x with biFenced := true })
  vendorEvent c d 7 d 9 0xFFFFFFFF 0

/-- The fence of an LD is lifted, and the partner is told (R104, R214). -/
def ldLift (c : Ctl) (d : Nat) : Ctl :=
  if (ldAt c d).biFenced then
    let c := onLd c d (fun x => { x with biFenced := false })
    if pairedNow c then sendRole c .none (.ldFence d true) else c
  else c

/-- BI_TIMEOUT of a holder (R104, R214). -/
def biTimeoutOp (dv : Dev) (here : Bool) (d line : Nat) : Dev :=
  let x : Holder := { here := here, ld := d }
  if dv.ctl.snoops.any (fun s => s.holder == x && s.line == line && s.fwd.isNone && s.sent) then
    let c := dv.ctl
    let c := if here then
        let c := onHead c (d / 4) (fun y => { y with biTimeouts := satInc y.biTimeouts 0xFFFFFFFF })
        raiseAt (ldFenceOp c d) (srcHead (d / 4) 5) 0 (line * 64) d 9
      else sendRole c .none (.ldFence d false)
    snoopAnswer { dv with ctl := c } x line 0 none false
  else dv

/-- The gallery's cold hall whose turn it is (R107): the one in mid-sweep, then the lowest (DESIGN CHOICE, log entry 102). -/
def coldHall (c : Ctl) (g : Nat) : Option (Nat × Hall) :=
  let l := c.halls.filter (fun x => x.2.cold && x.2.home && galOfHall c x.1 == g)
  (l.find? (fun x => x.2.swept != 0)).or l.head?

/-- One block of the sweep (R107): snooped at every sharer that a snoop reaches, passed over when it is warm. -/
def sweepOp (dv : Dev) (g : Nat) : Dev :=
  let c := dv.ctl
  match coldHall c g with
  | none => dv
  | some (k, h) =>
    let line := k * 16777216 + 4 * h.swept
    let xs := (sharersOf h).filter (biReach c)
    if !(serving c) || c.snoops.any (fun s => s.sweep && s.line == line) then dv
    else if xs.isEmpty || [0, 1, 2, 3].all (fun i => h.warm.contains (line + i)) then { dv with ctl := sweepDone c k line }
    else { dv with ctl := xs.foldl (fun c x => sweepSend c line x) c }

/-! ## Link events (R105, R129, R130) -/

/-- The requests of some LDs of a head when it goes: placed writes stay and become durable without a completion, the rest are discarded
(R129 steps 1 and 2). -/
def reqsGone (c : Ctl) (ds : List Nat) : Ctl :=
  let mine (r : Req) : Option Nat := match r.src with
    | .host h l _ => if ds.contains (4 * h + l) then some (4 * h + l) else none
    | .mailbox h l _ | .lsa h l => if ds.contains (4 * h + l) then some (4 * h + l) else none
    | _ => none
  { c with reqs := c.reqs.filterMap (fun r => match mine r with
      | some d => if r.placed && r.wait != .throttle then some { r with src := .writeback true d } else none
      | none => some r) }

/-- An LD's CXL.io state is reset (R130, R501): its decoders, its MSI-X table and what its mailbox was about. -/
def Ld.ioReset (x : Ld) : Ld := { x with decoders := [Decoder.reset, Decoder.reset], poisonPos := (0, 0, 0), msixMask := 0, msixPend := 0 }

/-- What a head fence, reset or link-down does to some of its LDs. -/
def ldsGone (dv : Dev) (ds : List Nat) : Dev :=
  let c := ds.foldl (fun c d => onLd c d Ld.ioReset) (reqsGone dv.ctl ds)
  let c := ds.foldl (fun c d => ringsStopLd c d 4) c
  settle (ds.foldl holderGone { dv with ctl := c })

/-- The link of a head goes down with its LDs (R105, R129, R130). -/
def headStop (dv : Dev) (h : Nat) : Dev :=
  let c := dv.ctl
  let c := if (headAt c h).linkUp then emit c (.headLink h false) else c
  let c := endCond c (srcHead h 1)
  let c := onHead c h (fun x => { x with linkUp := false, rate := 0, width := 0, ideMem := IdeStr.reset, ideIo := IdeStr.reset, memActive := 0, gpf := [] })
  ldsGone { dv with ctl := c } [4 * h, 4 * h + 1, 4 * h + 2, 4 * h + 3]

/-- The fence of a head (R129). Its decoders are those of the Steward's copies, which it reloads when the fence is lifted (R405). -/
def headFence (dv : Dev) (h : Nat) : Dev :=
  let d := headStop dv h
  { d with ctl := [4 * h, 4 * h + 1, 4 * h + 2, 4 * h + 3].foldl (fun c i => onLd c i (fun x => { x with decoders := (ldAt dv.ctl i).decoders })) d.ctl }

/-- A head reset lifts the back-invalidate fences of its LDs (R104, R130). -/
def headReset (dv : Dev) (h : Nat) : Dev :=
  let dv := headStop { dv with ctl := domStop dv.ctl [0x20 + h] } h
  { dv with ctl := [0, 1, 2, 3].foldl (fun c i => ldLift c (4 * h + i)) dv.ctl }

/-- A head that leaves L0 in a reset other than by PERST_N, a save or a fence raises LINK_DOWN (R128). -/
def headDrop (dv : Dev) (h : Nat) : Dev :=
  if (headAt dv.ctl h).linkUp then let d := headReset dv h; { d with ctl := raiseF d.ctl (srcHead h 0) 0 } else headReset dv h

/-- The heads have power and may train (R23). -/
def headsLive (c : Ctl) : Bool := c.glb.mode == .start || serving c

/-- Memory_Active of a head's LDs (R130). -/
def activeMask (c : Ctl) (h : Nat) : Nat := if serving c then 2 ^ (headAt c h).ldCount - 1 else 0

/-- Link training of a head ends (R80, R81). -/
def headUpOp (c : Ctl) (h rate width : Nat) (flit256 : Bool) : Ctl :=
  let x := headAt c h
  if !headsLive c || !c.clk.ref100 || x.perst || x.linkUp || headFenced c h || rate > x.maxRate || (rate == 4 && !flit256) then c
  else
    let cxl := 1 ≤ rate && (width == 4 || width == 8)
    let c := setCond c (srcHead h 1) 0 0 (!cxl || width < 8 || rate < x.maxRate)
    if cxl then
      emit (onHead c h (fun x => { x with
        linkUp := true, rate := rate, width := width, flit256 := flit256, ideMem := IdeStr.reset, ideIo := IdeStr.reset, replays := 0, peak := 0, memActive := activeMask c h })) (.headLink h true)
    else onHead c h (fun x => { x with linkUp := false, rate := 0, width := 0, memActive := 0 })

/-! ## Mailbox answers (CXL 3.1 return codes; PRESUMED, log entry 34) -/

def rcSuccess : Nat := 0
def rcStarted : Nat := 1
def rcInvalid : Nat := 2
def rcUnsupported : Nat := 3
def rcRetry : Nat := 5
def rcBusy : Nat := 6
def rcHandle : Nat := 0xE
def rcLength : Nat := 0x16

/-- An answer of a mailbox, or of the management CCI with its in-band interrupt (R505). -/
def reply (c : Ctl) (ini op code : Nat) (payload : List Byte) : Ctl :=
  let c := emit c (.mbox ini op code payload)
  if ini == 0x60 then emit c .i3cIbi else c

/-- A command in an LD's mailbox, when the LD can be reached. -/
def ldCommand (c : Ctl) (d : Nat) (f : Ctl → Ctl) : Ctl := if ioReach c d then f c else c

/-! ## Poison (R115, R117) -/

/-- Inject Poison and Clear Poison (R115): a write of the LD, answered when it is durable. -/
def poisonCmd (dv : Dev) (h l op a : Nat) (w : ReqOp) (data : Line) (poison : Bool) : Dev :=
  let c := dv.ctl
  let d := 4 * h + l
  if !ioReach c d then dv
  else if !serving c then { dv with ctl := reply c d op rcRetry [] }
  else if decodeKind c d a != 0 then { dv with ctl := reply c d op rcInvalid [] }
  else submit dv { Req.fresh (.mailbox h l op) d w a (dpaOff a / 64 * 64) with data := data, poison := poison }

/-- The ranges that the device holds (R117): the lowest 4,096 of its runs of poisoned lines (DESIGN CHOICE, log entry 112). -/
def poisonRanges (d : Dev) : List (Nat × Nat) := (runsOf (poisonLines d)).take 4096

/-- Those of them in halls assigned to an LD that meet [a, a + n), as DPAs: first address and lines. -/
def poisonOf (dv : Dev) (d a n : Nat) : List (Nat × Nat) :=
  ((poisonRanges dv).filter (fun x => assigned dv.ctl (hallOf (64 * x.1)) d)).map (fun x => (dpaOf dv.ctl (64 * x.1), x.2))
    |>.filter (fun x => a < x.1 + 64 * x.2 && x.1 < a + n)

/-- Get Poison List (R117): as many ranges as a payload of 4 KiB holds (R127), 254 of 16 B behind 32 B of flags, overflow time and count; the rest is
asked for again. -/
def poisonList (dv : Dev) (d a n : Nat) : Dev :=
  let c := dv.ctl
  if !ioReach c d then dv
  else
    let p := (ldAt c d).poisonPos
    let k := if p.1 == a && p.2.1 == n then p.2.2 else 0
    let l := (poisonOf dv d a n).drop k
    let now := l.take 254
    let more := decide (254 < l.length)
    let c := onLd c d (fun x => { x with poisonPos := if more then (a, n, k + 254) else (0, 0, 0) })
    let flags := b2n more + 2 * b2n c.poisonOver.isSome
    let t := (c.poisonOver.map (fun w => w.toNat)).getD 0
    { dv with ctl := reply c d 0x4300 rcSuccess (bytesOf 1 flags ++ [0] ++ bytesOf 8 t ++ bytesOf 2 now.length ++ List.replicate 20 0
        ++ now.flatMap (fun r => bytesOf 8 r.1 ++ bytesOf 4 r.2 ++ bytesOf 4 0)) }

/-! ## What CDAT and the GPF DVSEC report (R112, R113) -/

/-- The read data rate of a head in MB/s at its trained rate and width (R80, R81). -/
def readRate (x : Head) : Nat :=
  let full := if x.rate == 1 then 5500 else if x.rate == 2 then 11000 else if x.rate == 3 then (if x.flit256 then 24000 else 22000)
    else if x.rate == 4 then 48000 else 0
  if x.width == 8 then full else if x.width == 4 then full / 2 else 0

/-- An entry of CDAT: the DSMAS of a DC region with its base and length, or a DSLBIS of it. Latencies are in ns, bandwidths in MB/s. -/
inductive CdatEnt where
  | dsmas (region base len : Nat)
  | readLatency (region ns : Nat)
  | writeLatency (region ns : Nat)
  | readBandwidth (region mbs : Nat)
  | writeBandwidth (region mbs : Nat)
  deriving DecidableEq, Repr

/-- CDAT of an LD (R89, R112). -/
def cdatOf (c : Ctl) (d : Nat) : List CdatEnt :=
  let bw := readRate (headAt c (d / 4))
  [0, 1].flatMap (fun r =>
    [.dsmas r (if r == 0 then 0 else region1) (hallCount c * hallBytes), .readLatency r (if r == 0 then 310 else 1200), .writeLatency r 1700,
     .readBandwidth r bw, .writeBandwidth r bw])

/-- Phase 2 Duration in ms and Phase 2 Power in W of the GPF DVSEC (R113). -/
def gpfDuration (x : Head) : Nat := 23 + (2 * x.biTimeout + 999) / 1000
def gpfPower : Nat := 240

/-! ## The commands -/

/-- MEM_RD (R42, R90, R98, R118). -/
def execMemRd (h : Fin 16) (ld : Fin 4) (ctag : BitVec 16) (dpa : BitVec 52) (snp : Snp) (ecc : EccRes) (s : State) : Host.Outcome State Fault Refusal :=
  onDev s (fun d => memEnter d h ld ctag.toNat dpa.toNat (.read snp) (fun r => { r with ecc := ecc }))

/-- MEM_SPEC_RD (R83): a hint without an answer, dropped when no slot is free. -/
def execMemSpecRd (_h : Fin 16) (_ld : Fin 4) (_ctag : BitVec 16) (_dpa : BitVec 52) (_freeSlot : Bool) (s : State) : Host.Outcome State Fault Refusal :=
  onCtl s id

/-- MEM_WR (R43 to R50, R118). -/
def execMemWr (h : Fin 16) (ld : Fin 4) (ctag : BitVec 16) (dpa : BitVec 52) (data : Line) (poison : Bool) (s : State) : Host.Outcome State Fault Refusal :=
  onDev s (fun d => memEnter (poisonIn d h ld dpa.toNat poison) h ld ctag.toNat dpa.toNat .write (fun r => { r with data := data, poison := poison }))

/-- MEM_WR_PTL (R58, R83). -/
def execMemWrPtl (h : Fin 16) (ld : Fin 4) (ctag : BitVec 16) (dpa : BitVec 52) (mask : Mask) (data : Line) (poison : Bool) (s : State) : Host.Outcome State Fault Refusal :=
  onDev s (fun d => memEnter (poisonIn d h ld dpa.toNat poison) h ld ctag.toNat dpa.toNat (.wrPtl mask) (fun r => { r with data := data, poison := poison }))

/-- MEM_CLN_EVCT (R98). -/
def execMemClnEvct (h : Fin 16) (ld : Fin 4) (ctag : BitVec 16) (dpa : BitVec 52) (s : State) : Host.Outcome State Fault Refusal :=
  onDev s (fun d => memEnter d h ld ctag.toNat dpa.toNat .cleanEvict id)

/-- A throttle delay ends: the write's completion leaves (R76), or the mirror acknowledgement (R78). -/
def throttleEnd (d : Dev) (link id : Nat) : Delayed → Dev
  | .request => match d.ctl.reqs.find? (fun r => r.id == id && r.wait == .throttle) with
    | some r => settle { d with ctl := answerWrite d.ctl r }
    | none => d
  | .mirrorAck => { d with ctl := ackPass d.ctl link }

/-- WRITE_THROTTLE_EXPIRY (R76, R78), of the write with this number in the tracker or of this link's acknowledgement. -/
def execWriteThrottleExpiry (w : Delayed) (link : Fin 4) (id : Nat) (s : State) : Host.Outcome State Fault Refusal :=
  onDev s (fun d => throttleEnd d link id w)

/-- BI_RSP_FROM_HOST (R100, R214). -/
def execBiRspFromHost (h : Fin 16) (ld : Fin 4) (haddr : BitVec 46) (resp : Fin 3) (data : Option Line) (poison : Bool) (s : State) : Host.Outcome State Fault Refusal :=
  onDev s (fun d =>
    if memReach d.ctl h ld && d.ctl.snoops.any (fun x => x.holder == { here := true, ld := 4 * h + ld } && x.line == lineNo haddr.toNat && x.sent) then
      holderAnswer d (4 * h + ld) (lineNo haddr.toNat) resp data poison
    else d)

/-- A BIConflict is answered with BIConflictAck; the entry stays BUSY until the snoop's own answer comes (R100). -/
def biConflictOp (c : Ctl) (h l line : Nat) : Ctl :=
  if memReach c h l && c.snoops.any (fun x => x.sent && x.line == line && x.holder == { here := true, ld := 4 * h + l }) then
    emit (match dirAt c line with
      | some e => dirSet c line .busy e.holders
      | none => c) (.biConflictAck h l line)
  else c

/-- BI_CONFLICT (R100). -/
def execBiConflict (h : Fin 16) (ld : Fin 4) (haddr : BitVec 46) (s : State) : Host.Outcome State Fault Refusal :=
  onCtl s (fun c => biConflictOp c h ld (lineNo haddr.toNat))

/-- BI_TIMEOUT_EXPIRY (R104, R214). -/
def execBiTimeoutExpiry (here : Bool) (dld : Fin 64) (haddr : BitVec 46) (s : State) : Host.Outcome State Fault Refusal :=
  onDev s (fun d => biTimeoutOp d here dld (lineNo haddr.toNat))

/-- COLD_SWEEP_SNOOP (R107). -/
def execColdSweepSnoop (g : Fin 8) (s : State) : Host.Outcome State Fault Refusal := onDev s (fun d => settle (sweepOp d g))

/-- GPF_PHASE2 (R113, R114). -/
def execGpfPhase2 (h : Fin 16) (s : State) : Host.Outcome State Fault Refusal :=
  onCtl s (fun c =>
    if (headAt c h).linkUp && serving c then
      let ids := (c.reqs.filter (fun r => r.isWrite && srcHeadOf r.src == some h.val)).map (fun r => r.id)
      gpfSettle (onHead c h (fun x => { x with gpf := x.gpf ++ [ids] }))
    else c)

/-- HEAD_LINK_DOWN (R105, R128, R130). -/
def execHeadLinkDown (h : Fin 16) (s : State) : Host.Outcome State Fault Refusal :=
  onDev s (fun d => if (headAt d.ctl h).linkUp then headDrop d h else d)

/-- PERST_N_ASSERT (R130). -/
def execPerstNAssert (h : Fin 16) (s : State) : Host.Outcome State Fault Refusal :=
  onDev s (fun d => if headsLive d.ctl then let d := headReset d h; { d with ctl := onHead d.ctl h (fun x => { x with perst := true }) }
    else { d with ctl := onHead d.ctl h (fun x => { x with perst := true }) })

/-- PERST_N_RELEASE (R130): the head may train again. -/
def execPerstNRelease (h : Fin 16) (s : State) : Host.Outcome State Fault Refusal :=
  onCtl s (fun c => onHead c h (fun x => { x with perst := false }))

/-- HOT_RESET (R128, R130). -/
def execHotReset (h : Fin 16) (s : State) : Host.Outcome State Fault Refusal :=
  onDev s (fun d => if (headAt d.ctl h).linkUp then headDrop d h else d)

/-- CXL_RESET (R130): one LD alone. -/
def execCxlReset (h : Fin 16) (ld : Fin 4) (s : State) : Host.Outcome State Fault Refusal :=
  onDev s (fun d => if ldReach d.ctl (4 * h + ld) then let d := ldsGone d [4 * h + ld]; { d with ctl := ldLift d.ctl (4 * h + ld) } else d)

/-- HEAD_LINK_UP (R80, R81, R130). -/
def execHeadLinkUp (h : Fin 16) (rate width : BitVec 4) (flit256 : Bool) (s : State) : Host.Outcome State Fault Refusal :=
  onCtl s (fun c => headUpOp c h rate.toNat width.toNat flit256)

def onIde (c : Ctl) (h : Nat) (w : IdeStream) (f : IdeStr → IdeStr) : Ctl :=
  onHead c h (fun x => match w with
    | .cachemem => { x with ideMem := f x.ideMem }
    | .io => { x with ideIo := f x.ideIo })
def ideAt (c : Ctl) (h : Nat) : IdeStream → IdeStr
  | .cachemem => (headAt c h).ideMem
  | .io => (headAt c h).ideIo

/-- An integrity check fails on a secure stream (R121). -/
def ideFail (c : Ctl) (h : Nat) (w : IdeStream) : Ctl :=
  if (headAt c h).linkUp && (ideAt c h w).st == .secure then raiseF (onIde c h w (fun _ => { st := .failed, next := false })) (srcHead h 3) 0 else c

/-- IDE_INTEGRITY_FAILURE (R121). -/
def execIdeIntegrityFailure (w : HeadStream) (s : State) : Host.Outcome State Fault Refusal := onCtl s (fun c => ideFail c w.head w.stream)

/-- An exchange of keys (R120): a set programmed establishes the stream, or waits to refresh it, and is then taken into use. A stream that has failed
stays so until the link is renewed (R121). -/
def ideKmOp (c : Ctl) (h : Nat) (w : IdeStream) (op : IdeKm) : Ctl :=
  if !(headAt c h).linkUp then c
  else match op with
    | .failed => raiseF c (srcHead h 4) 0
    | .program => onIde c h w (fun x => { st := if x.st == .none then .established else x.st, next := x.st != .failed })
    | .go => onIde c h w (fun x => if x.next then { st := .secure, next := false } else x)

/-- IDE_KM (R120). -/
def execIdeKm (w : HeadStream) (op : IdeKm) (s : State) : Host.Outcome State Fault Refusal := onCtl s (fun c => ideKmOp c w.head w.stream op)

/-- DECODER_COMMIT (R91). -/
def execDecoderCommit (h : Fin 16) (ld : Fin 4) (dec : Fin 2) (ways base size : Nat) (s : State) : Host.Outcome State Fault Refusal :=
  let n : Decoder := { committed := ways == 1, error := ways != 1, ways := ways, base := base, size := size }
  onCtl s (fun c => ldCommand c (4 * h + ld) (fun c => onLd c (4 * h + ld) (fun x => { x with decoders := lmod x.decoders dec (fun _ => n) })))

/-- INJECT_POISON (R115). -/
def execInjectPoison (h : Fin 16) (ld : Fin 4) (dpa : BitVec 52) (s : State) : Host.Outcome State Fault Refusal :=
  onDev s (fun d => poisonCmd d h ld 0x4301 dpa.toNat (.wrPtl 0) 0 true)

/-- CLEAR_POISON (R115). -/
def execClearPoison (h : Fin 16) (ld : Fin 4) (dpa : BitVec 52) (data : Line) (s : State) : Host.Outcome State Fault Refusal :=
  onDev s (fun d => poisonCmd d h ld 0x4302 dpa.toNat .write data false)

/-- GET_POISON_LIST (R117). -/
def execGetPoisonList (h : Fin 16) (ld : Fin 4) (dpa len : BitVec 52) (s : State) : Host.Outcome State Fault Refusal :=
  onDev s (fun d => poisonList d (4 * h + ld) dpa.toNat len.toNat)

/-- Nanoseconds since 1970 of the counter (R124). -/
def nsOf (c : Ctl) : Nat := (c.rtc.seconds.toNat + 946684800) * 1000000000 + c.rtc.frac.toNat / 256 * 1000000000 / 65536

/-- GET_TIMESTAMP (R124). -/
def execGetTimestamp (h : Fin 16) (ld : Fin 4) (s : State) : Host.Outcome State Fault Refusal :=
  onCtl s (fun c => ldCommand c (4 * h + ld) (fun c => reply c (4 * h + ld) 0x0300 rcSuccess (bytesOf 8 (nsOf c))))

/-- SET_SHUTDOWN_STATE (R126). -/
def execSetShutdownState (h : Fin 16) (ld : Fin 4) (v : Byte) (s : State) : Host.Outcome State Fault Refusal :=
  onCtl s (fun c => ldCommand c (4 * h + ld) (fun c =>
    reply (onLd c (4 * h + ld) (fun x => { x with shutdown := v.toNat })) (4 * h + ld) 0x4204 rcSuccess []))

/-- GET_HEALTH_INFO (R534): the temperature it returns is the hottest junction reading; the Dirty Shutdown Count goes with it (R126). -/
def execGetHealthInfo (h : Fin 16) (ld : Fin 4) (tempC : Int) (s : State) : Host.Outcome State Fault Refusal :=
  onCtl s (fun c => ldCommand c (4 * h + ld) (fun c => reply c (4 * h + ld) 0x4200 rcSuccess
    (bytesOf 2 (tempC % 65536).toNat ++ bytesOf 4 (ldAt c (4 * h + ld)).dirtyCount)))

/-- Set LSA (R88): 128 KiB for each LD and 4 KiB of payload (R127); its lines are written and mirrored as any write is, and it is answered with the
last of them. -/
def lsaOp (d : Dev) (h l off : Nat) (bytes : List Byte) : Dev :=
  let c := d.ctl
  let n := 4 * h + l
  if !ioReach c n then d
  else if !serving c then { d with ctl := reply c n 0x4103 rcRetry [] }
  else if c.reqs.any (fun r => r.src == .lsa h l) then { d with ctl := reply c n 0x4103 rcBusy [] }
  else if bytes.length > 4088 then { d with ctl := reply c n 0x4103 rcLength [] }
  else if off + bytes.length > 131072 then { d with ctl := reply c n 0x4103 rcInvalid [] }
  else if bytes.isEmpty then { d with ctl := reply c n 0x4103 rcSuccess [] }
  else
    let a := lsaAddr c.twin.side n + off
    let ws := lineWrites a bytes.length (fun x => bytes.getD (x - a) 0) (fun _ => false)
    settle { d with ctl := ws.foldl (fun c w => addReq c (w.req (.lsa h l) n 0)) c }

/-- SET_LSA (R88). -/
def execSetLsa (h : Fin 16) (ld : Fin 4) (off : Nat) (bytes : List Byte) (s : State) : Host.Outcome State Fault Refusal :=
  onDev s (fun d => lsaOp d h ld off bytes)

/-- CLEAR_EVENT_RECORDS (R122): all records, or the oldest ones by their handles in order; otherwise Invalid Handle. -/
def execClearEventRecords (h : Fin 16) (ld : Fin 4) (log : EvLog) (all : Bool) (handles : List (BitVec 16)) (s : State) : Host.Outcome State Fault Refusal :=
  onCtl s (fun c => ldCommand c (4 * h + ld) (fun c =>
    let n := 4 * h.val + ld.val
    let q := evqOf (ldAt c n) log
    let hs := handles.map (fun x => x.toNat)
    if all then reply (onLd c n (fun x => setEvq x log { q with recs := [], overflow := 0, firstOverflow := 0, lastOverflow := 0 })) n 0x0101 rcSuccess []
    else if (q.recs.map (fun r => r.1)).take hs.length == hs then
      reply (onLd c n (fun x => setEvq x log { q with recs := q.recs.drop hs.length, overflow := 0, firstOverflow := 0, lastOverflow := 0 })) n 0x0101 rcSuccess []
    else reply c n 0x0101 rcHandle []))

/-- A write of PEAK_CLR (R127): PEAK takes CURRENT. -/
def peakOp (c : Ctl) (h : Nat) : Ctl := onHead c h (fun x => { x with peak := trackerOf c h })

/-- PEAK_CLR (R109). -/
def execPeakClr (ini : Byte) (h : Fin 16) (s : State) : Host.Outcome State Fault Refusal :=
  onCtl s (fun c => regWrite c ini.toNat (0x100000 + h * 0x10000 + 0x50) 8 (fun c => peakOp c h))

end Sys2Proof.Machine
end

