-- ==== Sys2Proof/Machine/Links.lean ====
section
/-! DEFINITION. Machine/Links.lean: the states of a twin link, loss, fence and retraining, and the change of steering (R173 to R175, R191 to R206). -/
namespace Sys2Proof.Machine

/-- Twin links are powered (R23). -/
def twinPowered (c : Ctl) : Bool := c.glb.mode == .start || serving c

/-- What a link keeps when its session ends: its configuration, its widths and its counters. -/
def TLink.down (x : TLink) : TLink :=
  { TLink.reset with
    enabled := x.enabled, media := x.media, peerTl := x.peerTl, peerSide := x.peerSide, cwCorrected := x.cwCorrected, cwUncorr := x.cwUncorr,
    lanes := x.lanes, replays := x.replays, retrains := x.retrains, losses := x.losses, time := x.time, downCause := x.downCause,
    txSlots := x.txSlots, rxSlots := x.rxSlots, hbTx := x.hbTx, hbRx := x.hbRx, staleWin := x.staleWin, uncorrWin := x.uncorrWin,
    replayWin := x.replayWin, departed := x.departed }

/-- A link enters a state (R173). -/
def linkSet (c : Ctl) (k : Nat) (st : LinkSt) : Ctl := onLink c k (fun x => { x with state := st, time := now c })

/-! ## Steering (R191, R194, R195, R196) -/

/-- An add whose answer the partner owes: it is carried out anew, alone, when the partner is lost (R94, R228). -/
def tenantOf (mine : Nat) (s : Sent) : Option TenOp :=
  match s.cont, s.msg with
  | .hallOp true ini k _, .role _ (.hallAdd _ sh l side _ tg) => some { add := true, ini := ini, here := side == mine, ld := l, hall := k, shared := sh, tag := tg }
  | _, _ => none

/-- Streams and steering are discarded (R196). Received messages that waited give their slots back (R184); tenancy operations whose answer is
owed, and an unanswered HELLO, are to be sent again (R94, R217). -/
def streamsDrop (c : Ctl) : Ctl :=
  let c := c.twin.held.foldl (fun c x => rxFree c x.link x.msg) (c.twin.steered.foldl (fun c k => advGen c (0x20 + k)) c)
  let c := { c with tenants := c.twin.sent.filterMap (tenantOf c.twin.side) ++ c.tenants,
                    releases := c.releases.map (fun x => if x.phase == .partner then { x with phase := .snooping } else x) }
  let c := onPair c (fun p => { p with helloSent := p.helloSent && !c.twin.sent.any (fun s => s.cont == .hello) && p.partner.isSome })
  onTwin c (fun t => { t with steered := [], steerEpoch := 0, sendSeq := [], expSeq := [], sent := [], prxWait := [], answered := [], barriers := [], held := [],
                              ackSaid := (0, false), ackHeld := [],
                              links := t.links.map (fun x => { x with txq := x.txq.filter (fun m => msgVc m == 4) }) })

/-- The MASK of a set of links. -/
def linkMask (ks : List Nat) : BitVec 4 := BitVec.ofNat 4 (listMask 4 ks)

/-- The link that a response moves to when its own is no longer steered (R192): by its request's address, or the ROLE_REQ link. -/
def owedLink (c : Ctl) (m : Msg) : Option Nat :=
  match (c.twin.answered.find? (fun x => x.2.2 == m)).bind (fun x => x.2.1) with
  | some a => steerOf c a
  | none => msgLink c m

/-- The steered set, or a width in it, changes (R194): unacknowledged messages of the links outside it are sent again on the lowest link of the
new set, the responses they owed on the links of R192, barriers follow on every link, and then what waited for a link. While no link is steered,
messages stay where they are. -/
def steerChange (c : Ctl) (new : List Nat) : Ctl :=
  let old := c.twin.steered
  let moved := old.filter (fun k => !new.contains k) ++ new.filter (fun k => !old.contains k)
  let c := moved.foldl (fun c k => advGen c (0x20 + k)) c
  let c := onTwin c (fun t => { t with steered := new, steerEpoch := (t.steerEpoch + 1) % 256 })
  match new.head? with
  | none => c
  | some j =>
    let out := (List.range 4).filter (fun k => !new.contains k)
    let owed := out.flatMap (fun k => ((linkAt c k).txq.filter (fun m => msgVc m == 2)))
    let c := out.foldl (fun c k => onLink c k (fun x => { x with txq := [] })) c
    let again := c.twin.sent.filter (fun s => out.contains s.link)
    let c := onTwin c (fun t => { t with sent := t.sent.map (fun s => if out.contains s.link then { s with link := j } else s) })
    let c := again.foldl (fun c s => txPut c j s.msg) c
    let c := owed.foldl (fun c m => txPut c ((owedLink c m).getD j) m) c
    let e := c.twin.steerEpoch
    unsentGo (new.foldl (fun c k => [0, 1, 3].foldl (fun c vc => txPut c k (.barrier vc (linkMask new) e)) c) c)

/-- ACTIVE links whose resent messages are all answered enter steering (R195). -/
def steerJoin (c : Ctl) : Ctl :=
  let new := (List.range 4).filter (fun k =>
    c.twin.steered.contains k || ((linkAt c k).state == .active && !c.twin.sent.any (fun s => s.tag.orig == k && s.link != k)))
  if new == c.twin.steered then c else steerChange c new

/-- A link leaves steering (R193). -/
def steerLeave (c : Ctl) (k : Nat) : Ctl :=
  if c.twin.steered.contains k then steerChange c (c.twin.steered.filter (fun j => j != k)) else c

/-! ## Loss, fence, training -/

/-- The session of a link ends in a state, with a cause (R174, R193); barriers no longer wait for it (R194). With the last one the streams go (R196). -/
def linkDown (c : Ctl) (k : Nat) (st : LinkSt) (cause : Nat) : Ctl :=
  let c := steerLeave c k
  let c := onTwin c (fun t => { t with barriers := (t.barriers.map (fun b => { b with missing := sdel b.missing k })).filter (fun b => !b.missing.isEmpty) })
  let c := onLink c k (fun x => { x.down with state := st, downCause := cause, time := now c })
  let c := if (List.range 4).any (linkUp c) then c else streamsDrop c
  emit c (.link k true)

/-- The loss of a link is declared: it is counted and raised (R193). -/
def linkLose (c : Ctl) (k : Nat) (st : LinkSt) (cause : Nat) : Ctl :=
  let c := linkDown c k st cause
  raiseF (onLink c k (fun x => { x with losses := (x.losses + 1) % 2 ^ 16 })) (srcLink k 0) 0

/-- A link in use is declared lost (R193). -/
def linkLost (c : Ctl) (k cause : Nat) : Ctl := if linkUp c k then linkLose c k .lost cause else c

/-- Training fails (R174). -/
def trainFail (c : Ctl) (k : Nat) : Ctl := raiseF (linkDown c k .lost 2) (srcLink k 2) 0

/-- The effect of a link fence (R193, R206): a fenced link is declared lost, unless it is down already. A link that is not enabled stays DISABLED
(R166). -/
def linkFenced (c : Ctl) (k cause : Nat) : Ctl :=
  match (linkAt c k).state with
  | .disabled => c
  | .lost | .fenced => linkDown c k .fenced cause
  | _ => linkLose c k .fenced cause

/-- Full training begins (R174); a link whose fence has not been lifted stays FENCED (R206). -/
def trainStart (c : Ctl) (k : Nat) : Ctl :=
  let x := linkAt c k
  if x.enabled && twinPowered c && c.pair.paired && !c.twin.holding then
    if unitFenced c (0x20 + k) then linkSet c k .fenced
    else emit (onLink c k (fun x => { x.down with state := .pmdTrain, time := now c })) (.link k false)
  else c

/-- A fast retrain begins (R174): the link leaves steering (R191), and the side that retrains first asks the other for it. A device that has sent
DEPART or PFAULT retrains no more (R201). -/
def retrainStart (c : Ctl) (k : Nat) (ask : Bool) : Ctl :=
  if (linkAt c k).state == .active && !c.twin.holding then
    let c := if ask then emit c (.ctrl k (.retrainReq (facked (linkAt c k)))) else c
    let c := onLink c k (fun x => { x with
      state := .retrain, fast := true, retrains := (x.retrains + 1) % 2 ^ 16, retryReqs := 0, initSent := false, initRcvd := false, initAcked := false, awaiting := false, time := now c })
    raiseF (steerLeave c k) (srcLink k 6) 0
  else c

/-- The physical lane that carries a logical one (TWN_LINK_STATUS.LANE_MAP). -/
def physLane (x : TLink) (l : Nat) : Nat := x.laneMap / 16 ^ l % 4

/-- A physical lane has failed. -/
def laneBad (x : TLink) (i : Nat) : Bool := (x.lanes[i]?.map (fun l => l.failed)).getD false

/-- The logical lanes that are received correctly (R202). -/
def goodLanes (x : TLink) : List Nat := (List.range 4).filter (fun l => !laneBad x (physLane x l))

/-- What INIT and INIT_ACK carry (R175): the lanes sent on are those in use, in full training all four; the buffers are those of R184. -/
def initFields (c : Ctl) (k : Nat) : InitFields :=
  let x := linkAt c k
  { version := 1, fast := x.fast, tl := BitVec.ofNat 8 k, pairId := c.twin.pairId, side := BitVec.ofNat 8 c.twin.side,
    txLanes := if x.fast then x.txLanes else 15, rxLanes := BitVec.ofNat 4 (listMask 4 (goodLanes x)),
    nextExp := BitVec.ofNat 16 x.nextExp, nextSend := BitVec.ofNat 16 x.nextSend, credits := [4096, 1024, 1024, 2048],
    epoch := BitVec.ofNat 16 c.pair.epoch, fack := BitVec.ofNat 12 (facked x) }

/-- INIT is sent (R174, R175). -/
def initSend (c : Ctl) (k : Nat) : Ctl :=
  emit (onLink c k (fun x => { x with initSent := true })) (.ctrl k (.init (initFields c k)))

/-- A lane fails (R202). -/
def laneMark (c : Ctl) (k lane : Nat) : Ctl :=
  raiseAt (onLink c k (fun x => { x with lanes := lmod x.lanes lane (fun l => { l with failed := true }) })) (srcLink k 1) 0 lane 0xFF 0

/-- A lane failed in use (R202): a fast retrain, unless a direction is left with fewer than two lanes. -/
def laneFail (c : Ctl) (k lane : Nat) : Ctl :=
  let c := laneMark c k lane
  if (goodLanes (linkAt c k)).length < 2 then linkLost c k 8 else retrainStart c k true

/-- The lanes of one direction: ×4 with four good ones, otherwise ×2 on the two lowest (R202). -/
def widthOf (good : List Nat) : Nat := if good.length ≥ 4 then 4 else if good.length ≥ 2 then 2 else 0
def lanesUsed (good : List Nat) : BitVec 4 := BitVec.ofNat 4 (listMask 4 (if good.length ≥ 4 then good else good.take 2))

/-! ## The commands -/

/-- PMD_TRAIN_DONE (R174, R202): lanes that trained clear FAILED, a lane that failed again raises LANE_DEGRADED; with fewer than two the link is lost. -/
def pmdDone (c : Ctl) (k : Nat) (good : BitVec 4) : Ctl :=
  if (linkAt c k).state != .pmdTrain || !c.clk.ref156 then c
  else
    let c := (List.range 4).foldl (fun c i =>
      if good.getLsbD i then onLink c k (fun x => { x with lanes := lmod x.lanes i (fun l => { l with failed := false, overRow := 0 }) })
      else laneMark c k i) c
    if ((List.range 4).filter (fun i => good.getLsbD i)).length < 2 then linkLose c k .lost 8 else linkSet c k .align

/-- PMD_TRAIN_DONE (R174). -/
def execPmdTrainDone (tl : Fin 4) (good : BitVec 4) (s : State) : Host.Outcome State Fault Refusal := onCtl s (fun c => pmdDone c tl good)

/-- PMD_TRAIN_TIMEOUT (R174). -/
def execPmdTrainTimeout (tl : Fin 4) (s : State) : Host.Outcome State Fault Refusal :=
  onCtl s (fun c => if (linkAt c tl).state == .pmdTrain then trainFail c tl else c)

/-- A fast retrain has lock again, but for the physical lanes that lost theirs, which fail (R202). -/
def retrainLock (c : Ctl) (k laneMap : Nat) (lost : BitVec 4) : Ctl :=
  let c := ((List.range 4).filter (fun i => lost.getLsbD i && !laneBad (linkAt c k) i)).foldl (fun c i => laneMark c k i) c
  let c := onLink c k (fun x => { x with laneMap := laneMap })
  if (goodLanes (linkAt c k)).length < 2 then linkLost c k 8 else initSend c k

/-- CODEWORD_LOCK (R171, R174): the link has lock, in full training or in a fast retrain, and sends INIT. -/
def execCodewordLock (tl : Fin 4) (lock : LaneLock) (s : State) : Host.Outcome State Fault Refusal :=
  onCtl s (fun c =>
    let x := linkAt c tl
    if x.state == .align then initSend (linkSet (onLink c tl (fun x => { x with laneMap := lock.laneMap.toNat })) tl .init) tl
    else if x.state == .retrain && !x.initSent then retrainLock c tl lock.laneMap.toNat lock.lost
    else c)

/-- ALIGN_TIMEOUT (R174). -/
def execAlignTimeout (tl : Fin 4) (s : State) : Host.Outcome State Fault Refusal :=
  onCtl s (fun c => if (linkAt c tl).state == .align then trainFail c tl else c)

/-- CODEWORD_LOCK_LOSS (R171, R174). -/
def execCodewordLockLoss (tl : Fin 4) (s : State) : Host.Outcome State Fault Refusal :=
  onCtl s (fun c => match (linkAt c tl).state with
    | .active => retrainStart c tl true
    | .init => trainFail c tl
    | _ => c)

/-- INIT_TIMEOUT (R174). -/
def execInitTimeout (tl : Fin 4) (s : State) : Host.Outcome State Fault Refusal :=
  onCtl s (fun c => if (linkAt c tl).state == .init then trainFail c tl else c)

/-- LOST_IDLE_EXPIRY (R174). -/
def execLostIdleExpiry (tl : Fin 4) (s : State) : Host.Outcome State Fault Refusal :=
  onCtl s (fun c => if (linkAt c tl).state == .lost then trainStart c tl else c)

/-- RETRAIN_REQ (R174, R179): its FACK counts, and the link retrains without asking for it. -/
def execRetrainReq (f : LinkFack) (s : State) : Host.Outcome State Fault Refusal :=
  onCtl s (fun c => if (linkAt c f.tl).state == .active then retrainStart (fackIn c f.tl f.fack.toNat) f.tl false else c)

/-- A write of LINK_RESET (R206): the fence is lifted and full training starts. An ACTIVE link leaves its session by command: it counts no loss. -/
def linkResetOp (c : Ctl) (k : Nat) : Ctl :=
  if !twinPowered c then c
  else
    let c := onPair (liftFence c (0x20 + k) false) (fun p => { p with refused := false })
    if (linkAt c k).enabled then trainStart (linkDown c k .lost 7) k else c

/-- A write of RETRAIN (R206): ignored and counted outside ACTIVE. -/
def retrainOp (c : Ctl) (ini k : Nat) : Ctl := if (linkAt c k).state == .active then retrainStart c k true else illegal c ini

/-- LINK_RETRAIN (R174). -/
def execLinkRetrain (ini : Byte) (tl : Fin 4) (s : State) : Host.Outcome State Fault Refusal :=
  onCtl s (fun c => regWrite c ini.toNat (0x300000 + tl * 0x10000) 8 (fun c => retrainOp c ini.toNat tl))

/-- TWIN_REFCLK_LOSS (R205): no twin link can train. -/
def execTwinRefclkLoss (s : State) : Host.Outcome State Fault Refusal :=
  onCtl s (fun c => beginCond { c with clk := { c.clk with ref156 := false } } 0x21F 0 0)

/-- CREDIT_STARVE (R205). -/
def execCreditStarve (tl vc : Fin 4) (s : State) : Host.Outcome State Fault Refusal :=
  onCtl s (fun c =>
    let x := linkAt c tl
    if x.state == .active && x.txq.any (fun m => msgVc m == vc.val && !hasCredit x m) then raiseAt c (srcLink tl 12) 0 vc 0xFF 0 else c)

end Sys2Proof.Machine
end

