-- ==== Sys2Proof/Machine/Zones.lean ====
section
/-! DEFINITION. Machine/Zones.lean: the vault's geometry and zones, its block table, and the landing's erased reserve (R262, R263, R287 to R294, R315, R318). -/
namespace Sys2Proof.Machine

/-! ## Geometry and rates (R287 to R292) -/

/-- n, the LUNs of the vault (R287). -/
def lunCount (v : Vlt) : Nat := 16 * v.targets * v.lunsPer
/-- p, the data pages of an SLC-mode block (R286). -/
def slcPages (v : Vlt) : Nat := v.wordlines - 1
/-- L_b (R290). -/
def landBlocks (v : Vlt) : Nat := 2 ^ 25 / (lunCount v * slcPages v)
/-- The landing pool in bytes (R291). -/
def landPool (v : Vlt) : Nat := lunCount v * landBlocks v * slcPages v * 16384
/-- c_arch in bytes (R291). -/
def archBytes (v : Vlt) : Nat := lunCount v * v.lunGb * 2 ^ 27 - 3 * landPool v
/-- Bytes of a TLC block across the archive's wordlines. -/
def tlcBytes (v : Vlt) : Nat := 3 * slcPages v * 16384
/-- a_b (R291). -/
def archBlocks (v : Vlt) : Nat :=
  let u := lunCount v * tlcBytes v
  if u == 0 then 0 else (archBytes v + u - 1) / u
/-- U, the landing units (R293). -/
def landUnits (v : Vlt) : Nat := lunCount v * landBlocks v * slcPages v

/-- System and record blocks of a LUN (R290). -/
def sysBlocks (l : Nat) : Nat := if l < 16 then 16 else 0
def recBlocks (l : Nat) : Nat := if [0, 7, 8, 15].contains l then 1 else 0

/-- The first archive block of a LUN: the model lays the zones out in the order of R290 (DESIGN CHOICE, log entry 40). -/
def archBase (v : Vlt) (l : Nat) : Nat := landBlocks v + sysBlocks l + recBlocks l

/-- The zone of a block as USE encodes it (R290, R317): 1 archive and spare, 2 landing, 3 system, 4 record area. -/
def zoneOf (v : Vlt) (l b : Nat) : Nat :=
  if b < landBlocks v then 2
  else if b < landBlocks v + sysBlocks l then 3
  else if b < archBase v l then 4 else 1

/-- The key of a block in the block table. -/
def blockKey (l b : Nat) : Nat := l * 65536 + b

/-- A LUN's spares: what its zones leave, less its factory bad blocks (R291). -/
def spareCount (v : Vlt) (l : Nat) : Nat :=
  v.blocksPer - archBase v l - archBlocks v - (v.badFactory.filter (fun k => k / 65536 == l)).length

/-- The good blocks beyond a LUN's zones: its spares, used or not. -/
def spareBlocks (v : Vlt) (l : Nat) : List Nat :=
  ((List.range (v.blocksPer - archBase v l - archBlocks v)).map (fun i => blockKey l (archBase v l + archBlocks v + i))).filter
    (fun k => !v.badFactory.contains k)

def lunAt (v : Vlt) (l : Nat) : Lun := tgetD v.luns l { Lun.reset with spares := spareCount v l }
def onLun (c : Ctl) (l : Nat) (f : Lun → Lun) : Ctl :=
  onVlt c (fun v => { v with luns := tset v.luns l (f (lunAt v l)) })
def lunFenced (c : Ctl) (l : Nat) : Bool := (lunAt c.vlt l).fenced || (vget c.vlt.chans (l % 16) Vch.reset).fenced
def onVch (c : Ctl) (ch : Nat) (f : Vch → Vch) : Ctl := onVlt c (fun v => { v with chans := vmod v.chans ch f })

/-- A block as first initialisation leaves it. -/
def Block.fresh (use : Nat) : Block :=
  { use := use, pe := 1, esn := 0, bad := false, refresh := false, level := false, closed := false, headerOk := true, time := 0, erased := 0 }
def blockAt (v : Vlt) (k : Nat) : Block := tgetD v.blocks k { Block.fresh (zoneOf v (k / 65536) (k % 65536)) with erased := v.initTime }
def onBlock (c : Ctl) (k : Nat) (f : Block → Block) : Ctl :=
  onVlt c (fun v => { v with blocks := tset v.blocks k (f (blockAt v k)) })

/-- The physical block in the role of a block (R293, R315), and the block whose role a physical block has. -/
def physOf (v : Vlt) (k : Nat) : Nat := tgetD v.roles k k
def nominalOf (v : Vlt) (k : Nat) : Nat := ((v.roles.find? (fun x => x.2 == k)).map (fun x => x.1)).getD k

/-- The next spare block of a LUN: spares are the last blocks of a LUN and are taken in rising order (DESIGN CHOICE, log entry 40). -/
def spareKey (v : Vlt) (l : Nat) : Nat :=
  let x := spareBlocks v l
  x.getD (x.length - (lunAt v l).spares) 0

/-- A block of a zone carries a factory mark and a spare has its role from the start (R315). -/
def factoryRoles (v : Vlt) (l : Nat) : Tbl Nat :=
  let inZone (k : Nat) : Bool := k / 65536 == l && decide (k % 65536 < archBase v l + archBlocks v)
  (v.badFactory.filter inZone).zip (spareBlocks v l)

/-- VADDR bits 39:0 of a block. -/
def vaddrK (c : Ctl) (k : Nat) : Nat := vaddrOf c.vlt.targets (k / 65536) (k % 65536)

/-- r_save in GB/s (R292). -/
def rSaveOf (v : Vlt) : Nat :=
  let up (l : Nat) : Bool := !((lunAt v l).fenced || (vget v.chans (l % 16) Vch.reset).fenced)
  let nUp := ((List.range (lunCount v)).filter up).length
  let rates := v.chans.foldl (fun n x => if x.fenced then n else n + x.rate) 0
  let prog := if v.tSlc == 0 then 0 else 9 * nUp * 16384 / (10 * v.tSlc)
  Nat.min 50 (Nat.min (87 * rates / 1000) prog)

/-- r_save is recomputed, and the budget with it (R73, R292). -/
def rSaveSet (c : Ctl) : Ctl :=
  let c := { c with budget := { c.budget with rSave := 1000 * rSaveOf c.vlt } }
  holdShort (rampDown (onHold c (fun h => { h with dbHold := dbHoldAt c h.vStart })))

/-! ## Erases that wait (R312, R315, R318) -/

/-- A block waits for an erase batch. -/
def eraseAdd (c : Ctl) (k : Nat) : Ctl :=
  onVlt c (fun v => { v with eraseQ := if v.batch.contains k then v.eraseQ else addNew v.eraseQ k })

/-- The ERASE_INTENT record names the last ESN and the blocks outstanding (R318). -/
def intentSet (c : Ctl) (bs : List Nat) : Ctl := recSync c 0x04 (.erase c.vlt.esn bs)

/-! ## The erased reserve (R262, R263, R293) -/

/-- The landing can hand out this much more: the erased reserve in units. -/
def reserveTarget (c : Ctl) : Nat :=
  let b := c.budget.dbCfg * 2 ^ 30 + 36 * (hallCount c * 2 ^ 30 / 65536) + 2 ^ 30
  (b + 16383) / 16384

/-- Landing units of a stripe (R293), and the units left in the stripe that the next unit number lies in. -/
def stripeUnits (v : Vlt) : Nat := lunCount v * slcPages v
def stripeRest (c : Ctl) : Nat := let s := stripeUnits c.vlt; if s == 0 then 0 else (s - c.svr.nextUnit % s) % s

/-- The stripe that follows the erased reserve. -/
def stripeNext (c : Ctl) : Nat := (c.svr.nextUnit + stripeRest c + c.svr.reserve) % landUnits c.vlt / stripeUnits c.vlt

/-- The stripe that follows the erased reserve may be erased: it holds no unit of a live save or of the save in progress (R262, R263). -/
def stripeFree (c : Ctl) : Bool :=
  let s := stripeUnits c.vlt
  let held (u : Nat) : Bool := u / s == stripeNext c
  s != 0 && decide (stripeRest c + c.svr.reserve + s ≤ landUnits c.vlt)
    && !(liveSaves c).any (fun r => r.units.any held) && !(c.svr.run.any (fun r => r.saved.units.any held))

/-- The physical blocks of a stripe: one on every LUN that is not fenced (R293). -/
def stripeBlocks (c : Ctl) (b : Nat) : List Nat :=
  ((List.range (lunCount c.vlt)).filter (fun l => !lunFenced c l)).map (fun l => physOf c.vlt (blockKey l b))

/-- LANDING_SHORT follows whether the reserve can reach its size (R263). -/
def landShort (c : Ctl) : Ctl :=
  setCond c 0x2D1 0 0 (decide (c.svr.reserve < reserveTarget c) && c.svr.landStripe.isNone && !stripeFree c)

/-- A stripe is erased at once, in batches of 255 (R263, R318). -/
def stripeErase (c : Ctl) : Ctl :=
  let bs := stripeBlocks c (stripeNext c)
  let c := onVlt c (fun v => { v with esn := v.esn + (bs.length + 254) / 255, eraseQ := v.eraseQ.filter (fun k => !bs.contains k) })
  let c := bs.foldl (fun c k => onBlock c k (fun b =>
    { b with pe := b.pe + 1, esn := c.vlt.esn, closed := false, refresh := false, level := false, headerOk := true, time := 0, erased := now c })) c
  onSvr c (fun s => { s with reserve := s.reserve + stripeUnits c.vlt })

/-- In VAULT.START the reserve is completed before SERVICE is entered (R263, R266). -/
def landComplete : Nat → Ctl → Ctl
  | 0, c => c
  | n + 1, c => if c.svr.reserve < reserveTarget c && stripeFree c then landComplete n (stripeErase c) else c

def reserveSet (c : Ctl) : Ctl :=
  let n := c.vlt.esn
  let c := landComplete (landBlocks c.vlt) (onSvr c (fun s => { s with landStripe := none }))
  landShort (if c.vlt.esn == n then c else intentSet c c.vlt.batch)

end Sys2Proof.Machine
end

