-- ==== Sys2Proof/Machine/Service.lean ====
section
/-! DEFINITION. Machine/Service.lean: the newest copy of a riser, the fill of a tread, the replay of flights, and entry to SERVICE (R27, R63, R217, R266 to R273, R349, R378, R483, R486). -/
namespace Sys2Proof.Machine

/-! ## Treads (R271) -/

/-- The risers of a tread whose newest copy is known to be unreadable (R281, R316), by their place in the tread. -/
def lostIn (c : Ctl) (t : Nat) : List Nat := (List.range 16).filter (fun i => c.svr.lostRisers.contains (16 * t + i))

/-- A riser of every kind is written to DRAM in C slots by the restore or resync engine; a dozing gallery wakes for it (R29, R146). -/
def fillTouch (c : Ctl) (t : Nat) : Ctl := let g := galOf c (4096 * t); bursts (wakeGal c g) g 2

/-- Every tread of a gallery that is not fenced is restored and none is stale (R27, R275). -/
def restoredAll (c : Ctl) : Bool :=
  let n := c.dimm.perGal * 262144
  (List.range 8).all (fun g => galFenced c g || (c.svr.unrestored.countIn (g * n) n == 0 && c.pair.stale.countIn (g * n) n == 0))

/-- RESTORING follows what is left to fill; the last tread clears it (R27, R275, code 0x22). -/
def restoreCheck (c : Ctl) : Ctl :=
  if c.glb.mode.service && c.glb.restoring && restoredAll c then
    recordTransition (onGlb c (fun g => { g with restoring := false })) (modeCode c.glb.mode) (modeCode c.glb.mode) 0x22 0xFF
  else c

/-- The Dirty Shutdown Count of an LD advances, once at a start (R63). -/
def dirtyCountUp (c : Ctl) (d : Nat) : Ctl :=
  if c.svr.reported.contains d then c
  else onSvr (onLd c d (fun x => { x with dirtyCount := x.dirtyCount + 1 })) (fun s => { s with reported := sins s.reported d })

/-- A tread is known to be missing (R63, R122): the LDs of its hall are told. -/
def r63Now (c : Ctl) (haddr : Nat) : Ctl :=
  (hallAt c (hallOf haddr)).sharers.foldl (fun c s => if s.here then addEvent (dirtyCountUp c s.ld) s.ld .failure (.media (dpaOf c haddr)) else c) c

/-- RESTORE_UNRECOVERED and R63 for a tread of which some lines read as poison (R281). -/
def treadUnrecovered (c : Ctl) (t : Nat) : Ctl :=
  let c := raiseF (onSvr c (fun s => { s with unrecovered := satInc s.unrecovered 0xFFFF, missing := sins s.missing t })) 0x2D3 0
  r63Now c (t * 4096)

/-- A tread is filled in DRAM from its newest copies; the risers named and those known to be lost read as poison and are reported (R271, R281). -/
def treadFill (d : Dev) (t : Nat) (lost : List Nat) : Dev :=
  let gone := lostIn d.ctl t ++ lost
  let m := (List.range 16).foldl (fun m i =>
    let r := 16 * t + i
    let (v, p) := newestCopy d.ctl r
    putRiser m r v (if gone.contains i then 15 else p)) d.mem
  let c := onSvr (fillTouch d.ctl t) (fun s => { s with unrestored := s.unrestored.erase t, lostRisers := s.lostRisers.filter (fun r => r / 16 != t) })
  { ctl := restoreCheck (if gone.isEmpty then c else treadUnrecovered c t), mem := m }

/-- A tread that is not restored is filled. -/
def treadEnsure (d : Dev) (t : Nat) : Dev := if unrestored d.ctl t then treadFill d t [] else d

/-- One segment of a replayed flight is written and its risers marked dirty (R349), and changed while the device is separated (R226). -/
def segReplay (d : Dev) (s : Seg) : Dev :=
  (segWrites s).foldl (fun d w =>
    let d := treadEnsure d (w.line / 64)
    { ctl := markChanged (markDirty d.ctl (w.line / 4)) (w.line / 64), mem := putBytes d.mem (w.line * 64) w.mask (BitVec.ofNat 512 w.data) false }) d

/-- A list of flights in ascending COMMIT_SEQ. -/
def flightInsert (f : FlightRec) : List FlightRec → List FlightRec
  | [] => [f]
  | g :: l => if f.commitSeq < g.commitSeq then f :: g :: l else g :: flightInsert f l

/-- The committed flights of the newest live save are replayed (R266 step 8, R349). A tread that they meet with lost risers reads poison there and is
reported (DESIGN CHOICE, log entry 119). -/
def flightsReplay (d : Dev) : Dev :=
  let fs := ((liveSaves d.ctl).getLast?.map (fun s => s.flights)).getD []
  (fs.foldl (fun l f => flightInsert f l) []).foldl (fun d f => f.segs.foldl segReplay d) d

/-! ## The PAIR and LANDING records (R217, R261) -/

def pairRec (c : Ctl) : PairRec :=
  match recOf c 0x05 with
  | some (.pair v) => v
  | _ => { lastEpoch := 0, proposed := 0, pending := false }

def pairRecSet (c : Ctl) (v : PairRec) : Ctl := if pairRec c == v then c else recSync c 0x05 (.pair v)

/-- A new pair epoch is written before any mirror message is sent (R217, R218). -/
def epochSet (c : Ctl) (e : Nat) : Ctl :=
  let c := advGen (onPair c (fun p => { p with epoch := e })) 0x24
  pairRecSet c { (pairRec c) with lastEpoch := e, proposed := (e + 1) % 65536 }

/-- The LANDING record as the save engine holds it (R261). -/
def landingRec (c : Ctl) : LandRec :=
  let newest := c.svr.saves.head?.elim 0 (fun s => s.seq)
  let pred := c.svr.saves.head?.elim 0 (fun s => s.pred)
  { newest := newest, newestRetired := !c.svr.live.contains newest, pred := pred, predRetired := !c.svr.live.contains pred,
    next := c.svr.nextUnit, reserve := c.svr.reserve, saves := c.svr.landSaves }

/-- The saves that LANDING does not mark retired, predecessor first (R262). -/
def LandRec.live (v : LandRec) : List Nat :=
  (if v.pred != 0 && !v.predRetired then [v.pred] else []) ++ (if v.newest != 0 && !v.newestRetired then [v.newest] else [])

def landingSet (c : Ctl) : Ctl := recSync c 0x02 (.landing (landingRec c))

/-- A live save retires in SERVICE once every tread that holds a riser whose newest copy lies in it is restored (R262). -/
def saveRetire (c : Ctl) : Ctl :=
  if !c.glb.mode.service then c else
  let left := (liveSaves c).filter (fun s => s.data.any (fun x => unrestored c (x.riser / 16) && newestSaveOf c x.riser == some s.seq))
  let l := left.map (fun s => s.seq)
  if l == c.svr.live then c else landingSet (onSvr c (fun s => { s with live := l }))

/-! ## Entry to SERVICE -/

/-- The dirty set fits the energy of the bank (R378), and a measurement is in force (R71). -/
def chargeOk (c : Ctl) : Bool :=
  c.hold.inForce.isSome && (dirtySet c + risersPerGib - 1) / risersPerGib ≤ c.hold.dbHold

/-- The reports of R63: the Dirty Shutdown Count of each LD concerned and a General Media record. -/
def dirtyReports (c : Ctl) : Ctl :=
  let c := c.svr.reportDue.foldl (fun c d => addEvent (dirtyCountUp c d) d .failure .dirtyShutdown) c
  onSvr c (fun s => { s with reportDue := [] })

/-- A start that reaches SERVICE clears LAST_FAILED and rejects the slot that failed before, when another one succeeds; a fallback writes its
program to the SEQ record (R483). -/
def bootSuccess (c : Ctl) : Ctl :=
  let b := c.boot
  let c := match b.fbProg with
    | some p => recSync c 0x0B (.seq p)
    | none => c
  let bad := b.lastFailed && b.failedSlot != b.runSlot
  onBoot c (fun b => { b with
    locked := true, stage := .service, phase := .none, lastFailed := false, fbProg := none
    slotA := if bad && b.failedSlot == 1 then { b.slotA with rejected := true, rejectVersion := b.failedVersion } else b.slotA
    slotB := if bad && b.failedSlot == 2 then { b.slotB with rejected := true, rejectVersion := b.failedVersion } else b.slotB })

/-- The measurement in force is older than HOLD_PERIOD (R376). -/
def holdOld (c : Ctl) : Bool :=
  match c.hold.inForce with
  | some m => !within m.time (now c) (c.pwrImg.periodH * 3600 * 65536)
  | none => true

/-- In SERVICE.SOLO this device is the home of every hall; each hall taken over advances its generation (R210). -/
def takeHomes (c : Ctl) : Ctl :=
  (c.halls.filter (fun x => !x.2.home)).foldl (fun c x => hallMod c x.1 (fun h => { h with home := true, gen := (h.gen + 1) % 65536 })) c

/-- The device's own unsettled treads (R236): those of its save record, or every dirty tread of its home halls after an overflow. -/
def unsettledTreads (c : Ctl) : List Nat :=
  if c.svr.unsettledOvf then
    ((c.gals.toList.flatMap (fun g => g.dirty)).map (fun r => r / 16)).eraseDups.filter (fun t => !isMeta (4096 * t) && (hallAt c (t / 262144)).home)
  else c.svr.unsettled

/-- The separation that a solo start is: its bitmap, seeded from the unsettled list after a double save (R220, R227). -/
def soloBitmap (c : Ctl) : Ctl :=
  let seed := if (pairRec c).pending then unsettledTreads c else []
  onPair c (fun p => { p with changed := some (seed.foldl (fun s t => s.insert t) (p.changed.getD TreadSet.empty)) })

/-- A warm restart kept the DRAM of every gallery and no resync is pending (R27). -/
def keptAll (c : Ctl) : Bool :=
  c.boot.warm && (List.range 8).all (fun g => galFenced c g || c.svr.warmGals.contains g) && restoredAll c && c.pair.rejoin != .receiving

/-- Entry to SERVICE from VAULT.START (R27, R32, R105, R217, R266 steps 9 and 10, R268, R279, R341, R486). -/
def serviceEntry (c : Ctl) (paired : Bool) : Ctl :=
  let c := bootSuccess (reserveSet c)
  let c := if paired then c else takeHomes c
  let c : Ctl := { c with halls := c.halls.map (fun x => (x.1, { x.2 with cold := false, warm := [], swept := 0 })),
                          gals := c.gals.map (fun g => { g with dir := [], frame := if g.fenced then 3 else 0 }) }
  let c := tokenDrop (ringsDisable c)
  let c := onSvr c (fun s => { s with
    live := s.live.drop (s.live.length - 1), dfCount := 0, dfMax := 0, restorePhase := 0, savePhase := 0, run := none,
    toServiceMs := Nat.min (msBetween s.startTime (now c)) 0xFFFF })
  let c := pairRecSet (landingSet c) { (pairRec c) with pending := false }
  let c := onGlb c (fun g => { g with restoring := !keptAll c })
  let c := saveRetire (transition (holdAbort c 4) (if paired then .paired else .solo) (if paired then 0x10 else 0x11) 0xFF)
  let c := (List.range 16).foldl (fun c h => onHead c h (fun x => { x with memActive := if x.linkUp then 2 ^ x.ldCount - 1 else 0 })) c
  let c := dirtyReports c
  let c := if paired then c else rampStart c
  let c := if holdOld c then holdRequest c else c
  if c.rtc.firstService then onRtc (trimBegin c) (fun r => { r with firstService := false }) else c

end Sys2Proof.Machine
end

