-- ==== Sys2Proof/Machine/Pair.lean ====
section
/-! DEFINITION. Machine/Pair.lean: pairing, promotion, rejoin, return of homes, reconciliation and the fence of a gallery (R65, R137, R160 to R163, R207 to R239). -/
namespace Sys2Proof.Machine

/-! ## HELLO and the outcome of pairing (R217 to R219) -/

/-- The newest valid save record. -/
def newestSave (c : Ctl) : Option SaveRec := c.svr.saves.find? (fun s => s.copyA || s.copyB)

def ownHello (c : Ctl) : Hello :=
  let r := pairRec c
  let s := newestSave c
  { pairId := c.twin.pairId, side := c.twin.side, pending := r.pending,
    fencedGals := BitVec.ofNat 8 (listMask 8 ((List.range 8).filter (galFenced c))), saveSeq := BitVec.ofNat 64 ((s.map (fun x => x.seq)).getD 0),
    halls := hallCount c, dimmGib := c.dimm.capGib, proposed := r.proposed, saveTime := (s.map (fun x => x.tRecord)).getD 0, prefCrc := c.pair.prefCrc }

/-- HELLO is sent on the ROLE link (R217). -/
def helloSend (c : Ctl) : Ctl :=
  if c.pair.paired && !c.pair.helloSent && !c.pair.refused && (c.glb.mode == .solo || (c.glb.mode == .start && c.boot.phase == .pairing && !c.boot.pairWaitOver))
      && (roleLink c).isSome then
    sendRole (onPair c (fun p => { p with helloSent := true, role := if c.glb.mode == .start then 1 else p.role })) .hello (.hello (ownHello c))
  else c

/-- Pairing is refused (R219). -/
def helloRefused (a b : Hello) : Bool :=
  a.halls != b.halls || a.dimmGib != b.dimmGib || a.side == b.side || a.pairId != b.pairId || a.prefCrc != b.prefCrc

/-- The decision table of R218 from this device's side: the code, and whether this device is authoritative. -/
def pairOutcome (meSolo peerSolo : Bool) (a b : Hello) : Nat × Bool :=
  let aHas := a.saveSeq != 0
  let bHas := b.saveSeq != 0
  let equal := a.proposed == b.proposed
  if meSolo && peerSolo then (6, false)
  else if meSolo then (if !equal || !bHas then 4 else if b.pending then 3 else 6, true)
  else if peerSolo then (if !equal || !aHas then 4 else if a.pending then 3 else 6, false)
  else if !aHas && !bHas then (1, a.side == 0)
  else if !equal || aHas != bHas then
    (4, if aHas != bHas then aHas else if a.proposed != b.proposed then a.proposed > b.proposed else a.side == 0)
  else if a.pending && b.pending then (2, a.side == 0)
  else if a.pending then (3, false)
  else if b.pending then (3, true)
  else (6, false)

/-! ## The end of a start -/

/-- The LDs of this device to which a hall of a gallery is assigned. -/
def galOwners (c : Ctl) (g : Nat) : List Nat :=
  ((c.halls.filter (fun x => galOfHall c x.1 == g)).flatMap (fun x => (x.2.sharers.filter (fun s => s.here)).map (fun s => s.ld))).eraseDups

/-- A gallery whose landing data is incomplete counts as fenced while a partner may hold its halls (R161, R163, R273); its fence has no cause. -/
def galIncomplete (c : Ctl) (g : Nat) : Bool := (galAt c g).fenced && (galAt c g).fenceCause == 0

/-- The frame that runs in the device's mode: in VAULT.START from the end of training on (R150). -/
def modeFrame (c : Ctl) : Nat :=
  if c.glb.mode.service then 0 else if c.glb.mode == .start then (if c.boot.phase == .none || c.boot.phase == .training then 3 else 1) else if c.glb.mode == .save then 2 else 3

/-- An incomplete gallery is used as it is. -/
def incompleteLift (c : Ctl) (g : Nat) : Ctl :=
  onUnit (onGal c g (fun x => { x with fenced := false, frame := modeFrame c })) (0x10 + g) (fun x => { x with fenced := false })

/-- With no partner's image to take, the halls of incomplete galleries are served from the archive and R63 reports them (R281). -/
def incompleteAlone (c : Ctl) (p : Nat → Bool) : Ctl :=
  ((List.range 8).filter (fun g => galIncomplete c g && p g)).foldl (fun c g =>
    onSvr (incompleteLift c g) (fun s => { s with reportDue := (galOwners c g).foldl sins s.reportDue })) c

/-- Poison for the stale treads of a receiver whose authoritative partner is gone (R42, R233): they are known to be missing, and no older copy of
them is used. Their LDs get a Failure record (R122), and the report of R63 is owed at the next start. -/
def poisonStale (d : Dev) : Dev :=
  let c := d.ctl
  let ts := if c.pair.stale.all then (List.range (treadCount c)).filter (stale c) else c.pair.stale.xs
  let ds := ts.flatMap (fun t => ((hallAt c (t / 262144)).sharers.filter (fun s => s.here)).map (fun s => s.ld))
  let c := ts.foldl (fun c t => mediaEvent c .failure (4096 * t)) c
  let c := onSvr c (fun s => { s with missing := ts.foldl sins s.missing, unrestored := ts.foldl (fun x t => x.erase t) s.unrestored, reportDue := ds.foldl sins s.reportDue })
  { ctl := restoreCheck (onPair c (fun p => { p with stale := TreadSet.empty, staleGot := [] })), mem := ts.foldl poisonTread d.mem }

/-! ## Resync (R229 to R232, R237) -/

/-- Every gallery of a tread. -/
def galOfTread (c : Ctl) (t : Nat) : Nat := galOf c (t * 4096)

/-- The 16 risers of a tread leave as RSY_DATA (R229 step 5, R237 step 1). -/
def treadSend (d : Dev) (t : Nat) (reconcile : Bool) : Dev :=
  let d := treadEnsure d t
  let c := (List.range 16).foldl (fun c i =>
    let r := 16 * t + i
    sendAddr c (256 * r) .blk (.rsy t) (fun tag => .rsyData (riserPoison d.mem r) reconcile (hallAt c (t / 262144)).gen tag (256 * r) (riserData d r))) (fillTouch d.ctl t)
  { d with ctl := onPair c (fun p => { p with rsyOut := addNew p.rsyOut t }) }

/-- RSY_DONE (R229 step 6, R237 step 3). It concerns no riser; it goes on the ROLE_REQ link (DESIGN CHOICE, log entry 105). -/
def rsyDoneSend (c : Ctl) (reconcile : Bool) (n : Nat) : Ctl :=
  match roleLink c with
  | some k => sendOn c k .blk .none (fun t => .rsyDone reconcile t n)
  | none => sendLater c .blk .none (fun t => .rsyDone reconcile t n)

/-- The next MAP_CHUNK. -/
def mapSend (c : Ctl) (next : Nat) : Ctl :=
  sendRole c .resync (.mapChunk next ((List.range 32).filterMap (fun i => if next + i < hallCount c then some (mapEntOf c (next + i)) else none)))

/-- STALE_MAP for every chunk with a set bit, then STALE_MAP_END; for a full resync STALE_MAP_END alone (R229 steps 3.3 and 3.4). -/
def staleSend (c : Ctl) (full : Bool) : Ctl :=
  let s := c.pair.changed.getD TreadSet.empty
  if full then sendRole c .resync (.staleMapEnd 0 true)
  else
    let chunks := if s.all then (List.range (treadCount c / 2048 + 1)).filter (fun k => (List.range 2048).any (fun i => 2048 * k + i < treadCount c && s.has (2048 * k + i)))
      else (s.xs.map (fun t => t / 2048)).eraseDups
    let c := chunks.foldl (fun c k =>
      sendRole c .resync (.staleMap k (((List.range 2048).map (fun i => 2048 * k + i)).filter s.has))) c
    sendRole c .resync (.staleMapEnd chunks.length false)

/-- The halls of a gallery. -/
def hallsOfGal (c : Ctl) (g : Nat) : List Nat := (List.range c.dimm.perGal).map (fun i => g * c.dimm.perGal + i)

/-- At pairing the partner names its fenced galleries in HELLO, which does not tell a fence from an incomplete landing (R163): every tread of their
halls counts as changed until the gallery returns (R161, R237; DESIGN CHOICE, log entry 115). -/
def peerMark (c : Ctl) : Ctl :=
  let gs := (c.pair.partner.map (fun p => p.fenced)).getD []
  if gs.isEmpty then c
  else onPair c (fun p => { p with
    changed := some ((gs.flatMap (fun g => (hallsOfGal c g).flatMap hallTreads)).foldl (fun s t => s.insert t) (p.changed.getD TreadSet.empty)) })

/-! ## Fenced galleries in SERVICE.PAIRED (R161, R224, R235, R237) -/

/-- A promotion limited to fenced galleries runs (R30). -/
def promoteFlag (c : Ctl) : Ctl := onGlb c (fun g => { g with promoting := c.pair.xfers.any (fun k => galFenced c (galOfHall c k)) })

/-- Planned transfers are suspended during a promotion or a gallery reset (R235). -/
def xferPaused (c : Ctl) : Bool := c.glb.promoting || (List.range 8).any (fun g => (galAt c g).resetting)

/-- HOME_XFER leaves for halls in transfer that no mirror message or write holds up (R235 steps 2 and 3). A save stops it (R40). -/
def xferGo (c : Ctl) : Ctl :=
  c.pair.xfers.foldl (fun c k =>
    if c.glb.mode != .paired || (xferPaused c && !galFenced c (galOfHall c k))
        || c.twin.sent.any (fun s => s.cont == .xfer k) || c.pair.xferRetry.contains k || !(hallAt c k).home
        || c.twin.sent.any (fun s => match s.cont with | .galFence g true => g == galOfHall c k | _ => false)
        || c.reqs.any (fun r => hallOf r.haddr == k && (r.placed || r.wait == .partner)) || (roleLink c).isNone
    then c
    else
      let c := hallMod c k (fun h => { h with gen := (h.gen + 1) % 65536 })
      sendRole c (.xfer k) (.homeXfer k (hallAt c k).gen (1 - c.twin.side))) c

/-- An incomplete gallery whose halls the partner has taken over is filled by resync: its treads are stale until the partner sends them (R161,
R163, R237). -/
def incompleteReturn (c : Ctl) : Ctl :=
  ((List.range 8).filter (fun g => galIncomplete c g && !partnerFenced c g && !(hallsOfGal c g).any (fun k => (hallAt c k).home))).foldl (fun c g =>
    if c.glb.mode != .paired then c
    else
      let c := incompleteLift c g
      let c := onPair c (fun p => { p with role := 4, treadsDone := 0, stale := ((hallsOfGal c g).flatMap hallTreads).foldl (fun s t => s.insert t) p.stale })
      let c := (hallsOfGal c g).foldl (fun c k => hallEvent c k 6) (onGlb c (fun x => { x with restoring := true }))
      sendRole c (.galFence g false) (.galFence g false)) c

/-- A fenced gallery's halls of which this device is home begin to pass to the partner, which is told of the fence first (R161, R224). -/
def galPass (c : Ctl) (g : Nat) : Ctl :=
  let ks := (hallsOfGal c g).filter (fun k => (hallAt c k).home && !c.pair.xfers.contains k)
  let c := (hallsOfGal c g).foldl (fun c k => hallEvent c k 5) c
  let c := onPair c (fun p => { p with xfers := p.xfers ++ ks })
  promoteFlag (sendRole c (.galFence g true) (.galFence g true))

/-- A riser is asked for from the partner line by line (R229 step 1, R281). -/
def pullRiser (c : Ctl) (r : Nat) : Ctl :=
  (List.range 4).foldl (fun c i => sendPrx c (256 * r + 64 * i) (.pull (4 * r + i)) (fun tag => .prxRd .none true 0 tag (256 * r + 64 * i) 0x52)) c

/-- The newest copy of a riser lies in the live predecessor (R268, R270). -/
def inPred (c : Ctl) (p : SaveRec) (r : Nat) : Bool := p.data.any (fun x => x.riser == r) && newestSaveOf c r == some p.seq

/-- The treads that wait in DRAM's place for their newest copy in a live predecessor (R268). -/
def predTreads (c : Ctl) : List Nat :=
  match liveSaves c with
  | [p, _] => ((((p.data.map (fun x => x.riser)).filter (inPred c p)).map (fun r => r / 16)).eraseDups).filter (unrestored c)
  | _ => []

/-- With a partner the lost risers of these treads are pulled during pairing (R281). -/
def predPull (c : Ctl) : Ctl :=
  (predTreads c).foldl (fun c t =>
    if c.svr.pulls.contains t then c
    else (lostIn c t).foldl (fun c i => pullRiser c (16 * t + i)) (onSvr c (fun s => { s with pulls := sins s.pulls t }))) c

/-- Entry to SERVICE once the bank carries the dirty set (R378) and no tread waits for what the partner supplies of a predecessor that retires at
the entry (R268, R281). In SERVICE.PAIRED, galleries that are fenced or incomplete pass to the partner
(R137, R161, R163, R237). -/
def startFinish (d : Dev) : Dev :=
  let c := d.ctl
  if c.glb.mode == .start && c.boot.phase == .ready && chargeOk c && !(predTreads c).any (fun t => c.svr.pulls.contains t) then
    let c := serviceEntry c ([2, 3, 4].contains c.pair.role)
    if c.glb.mode == .paired then
      settle { d with ctl := incompleteReturn (xferGo (((List.range 8).filter (galFenced c)).foldl galPass c)) }
    else { d with ctl := c }
  else d

/-- The start goes on alone (R137, R219, R220): the separation begins, its flights are replayed and it enters SERVICE.SOLO, unless a gallery is
fenced. -/
def soloStart (d : Dev) (role cause : Nat) : Dev :=
  let c := d.ctl
  if c.glb.mode != .start || c.boot.phase != .pairing then d
  else if (List.range 8).any (fun g => galFenced c g && !galIncomplete c g) || c.dchs.any (fun x => 8 ≤ x.result) then startFailOp d 0x10
  else
    let d := flightsReplay ((predTreads c).foldl treadEnsure (poisonStale { d with ctl := soloBitmap (incompleteAlone c (fun _ => true)) }))
    let c := onPair d.ctl (fun p => { p with role := role, rejoin := .none, sepCause := cause, sepTime := now d.ctl, partner := none })
    startFinish { d with ctl := onBoot c (fun b => { b with phase := .ready }) }

/-- The authoritative device has sent its map: it enters SERVICE.PAIRED, sends its stale maps and answers RESYNC_BEGIN (R229 step 3). -/
def resyncEnter (d : Dev) (begin : Tag) (link : Nat) : Dev :=
  let d : Dev := { d with ctl := peerMark (onPair d.ctl (fun p => { p with changed := some (if p.full then TreadSet.full else p.changed.getD TreadSet.empty) })) }
  let c := d.ctl
  let d := if c.glb.mode == .start then
      let d := if c.boot.phase == .ready then d else flightsReplay d
      startFinish { d with ctl := onBoot d.ctl (fun b => { b with phase := .ready }) }
    else { d with ctl := transition (holdAbort c 4) .paired 0x21 0xFF }
  let c := d.ctl
  if c.glb.mode != .paired then { d with ctl := onPair c (fun p => { p with rejoin := .sendingStale begin link }) }
  else
    let c := c.pair.soloOps.foldl (fun c r => sendRole c .resync r) c
    let c := staleSend (onPair c (fun p => { p with soloOps := [], treadsDone := 0 })) c.pair.full
    let c := respond c link none begin (.roleRsp 6 0 begin none)
    { d with ctl := onPair c (fun p => { p with rejoin := .sending, role := 3, full := false }) }

/-- The receiver's unsettled treads are pulled, line by line (R229 step 1); with none left it announces itself. -/
def pullStart (c : Ctl) : Ctl :=
  let ts := unsettledTreads c
  if ts.isEmpty then sendRole (onPair c (fun p => { p with rejoin := .begun })) .resync .resyncBegin
  else
    let c := onPair c (fun p => { p with rejoin := .pulling ts })
    ts.foldl (fun c t => (List.range 64).foldl (fun c i =>
      let a := t * 4096 + 64 * i
      sendPrx c a (.pull (64 * t + i)) (fun tag => .prxRd .none true 0 tag a 0x52)) c) c

/-- A demand fetch of this tread has ended, or none runs: the next waiting one starts (R272). -/
def fetchEnd (c : Ctl) (t : Nat) : Ctl :=
  onSvr c (fun s =>
    let rest := sdel s.fetches t
    match s.fetchWait with
    | w :: l => if rest.length < 4096 then { s with fetches := rest ++ [w], fetchWait := l } else { s with fetches := rest }
    | [] => { s with fetches := rest })

/-- The risers of a tread that are not lost are filled beside those the partner supplied (R281). -/
def treadFillRest (d : Dev) (t : Nat) : Dev :=
  let gone := lostIn d.ctl t
  let m := (List.range 16).foldl (fun m i =>
    if gone.contains i then m
    else let (v, p) := newestCopy d.ctl (16 * t + i); putRiser m (16 * t + i) v p) d.mem
  let c := onSvr (fillTouch d.ctl t) (fun s => { s with
    unrestored := s.unrestored.erase t, lostRisers := s.lostRisers.filter (fun r => r / 16 != t), pulls := sdel s.pulls t })
  { ctl := restoreCheck c, mem := m }

/-- A pulled line arrives (R229 step 1, R281): it is written and marked dirty; with the last of a tread's lost lines the tread is restored. -/
def pullLine (d : Dev) (line : Nat) (status : Nat) (data : Line) : Dev :=
  let t := line / 64
  let d := { d with ctl := fillTouch d.ctl t }
  if d.ctl.svr.pulls.contains t then
    let c := markDirty d.ctl (line / 4)
    let c := if status != 0 && !c.svr.missing.contains t then treadUnrecovered c t else c
    let d : Dev := { ctl := c, mem := putLine d.mem (line * 64) data (status != 0) }
    if pullWaits d.ctl (fun l => l / 64 == t) then d
    else let d := treadFillRest d t; settle { d with ctl := fetchEnd d.ctl t }
  else
    let d := treadEnsure d t
    let c := markDirty d.ctl (line / 4)
    let c := match c.pair.rejoin with
      | .pulling _ => if pullWaits c (fun _ => true) then c
                      else sendRole (onPair c (fun p => { p with rejoin := .begun })) .resync .resyncBegin
      | _ => c
    { ctl := c, mem := putLine d.mem (line * 64) data (status != 0) }

/-- Lost risers that the partner was asked for and no longer supplies read as poison (R281). -/
def pullsGiveUp (d : Dev) : Dev :=
  d.ctl.svr.pulls.foldl (fun d t =>
    let d := treadFill d t []
    { d with ctl := fetchEnd (onSvr d.ctl (fun s => { s with pulls := sdel s.pulls t })) t }) d

/-- Both devices have sent their unsettled tails (R237 steps 4 and 5): flights are replayed and an interrupted resync goes on. -/
def reconcileEnd (d : Dev) : Dev :=
  match d.ctl.pair.rejoin with
  | .reconcile _ true true =>
    let d := flightsReplay d
    let c := onBoot d.ctl (fun b => { b with phase := .ready })
    let c := if c.pair.changed.isSome then onPair (staleSend c false) (fun p => { p with rejoin := .sending, role := 3, treadsDone := 0 })
      else if !setNone c c.pair.stale then onPair c (fun p => { p with rejoin := .receiving, role := 4 })
      else onPair c (fun p => { p with rejoin := .none, role := 2 })
    startFinish { d with ctl := peerMark c }
  | _ => d

/-- With every tread of its tail acknowledged a device sends RSY_DONE (R237 step 3). -/
def reconcileSent (d : Dev) : Dev :=
  match d.ctl.pair.rejoin with
  | .reconcile ts false r =>
    if d.ctl.pair.rsyOut.isEmpty then
      reconcileEnd { d with ctl := onPair (rsyDoneSend d.ctl true ts.length) (fun p => { p with rejoin := .reconcile ts true r }) }
    else d
  | _ => d

/-- The outcome of pairing takes effect (R218, R219). -/
def pairSettle (d : Dev) (peer : Hello) : Dev :=
  let c := d.ctl
  let me := ownHello c
  let start := c.glb.mode == .start
  let peerSolo := (c.pair.partner.map (fun p => p.state == 9)).getD false
  let base : Partner := c.pair.partner.getD { hello := none, fenced := [], delayNs := 0, stall := false, state := 0, dbEff := 0, restoring := false }
  let c := onPair c (fun p => { p with partner := some { base with hello := some peer, fenced := maskList 8 peer.fencedGals.toNat } })
  if helloRefused me peer then
    let c := raiseF (onPair c (fun p => { p with refused := true, sepCause := 4 })) 0x21E 0
    soloStart { d with ctl := c } 5 4
  else
    let (code, auth) := pairOutcome (!start) peerSolo me peer
    let c := onPair c (fun p => { p with outcome := code })
    if code == 6 then
      let c := sendRole (raiseF (onPair c (fun p => { p with diverged := true, role := 6 })) 0x20F 0) .none .diverged
      soloStart { d with ctl := c } 6 c.pair.sepCause
    else
      let c := epochSet c (if code == 1 then 1 else Nat.max me.proposed peer.proposed)
      let c := incompleteAlone c (fun g => (code != 2 && auth) || partnerFenced c g)
      let c := if code == 1 || !start then c else predPull c
      if code == 1 then
        startFinish { d with ctl := onBoot (peerMark (onPair c (fun p => { p with role := 2, rejoin := .none, changed := none }))) (fun b => { b with phase := .ready }) }
      else if code == 2 then
        let ts := (unsettledTreads c).filter (fun t => (hallAt c (t / 262144)).home)
        let d := ts.foldl (fun d t => treadSend d t true) { d with ctl := onPair c (fun p => { p with role := 7, rejoin := .reconcile ts false false }) }
        reconcileSent d
      else if auth then { d with ctl := onPair c (fun p => { p with role := 3, rejoin := .awaiting, full := code == 4 }) }
      else
        let d := flightsReplay { d with ctl := onPair c (fun p => { p with role := 4, full := code == 4, changed := none }) }
        { d with ctl := pullStart d.ctl }

/-- A resync that has sent every tread ends (R229 step 6). -/
def resyncEnd (c : Ctl) : Ctl :=
  match c.pair.rejoin, c.pair.changed with
  | .sending, some s =>
    if c.glb.mode == .paired && setNone c s && c.pair.rsyOut.isEmpty then
      let more := ((c.pair.partner.map (fun p => p.fenced)).getD []).isEmpty
      onPair (rsyDoneSend c false c.pair.treadsDone) (fun p => { p with changed := if more then none else some TreadSet.empty, rejoin := .none, role := 2 })
    else c
  | _, _ => c

/-- Every RSY_DATA of a tread is acknowledged (R229 step 5). -/
def rsyAcked (d : Dev) (t : Nat) : Dev :=
  if d.ctl.twin.sent.any (fun s => s.cont == .rsy t) then d
  else
    let c := onPair d.ctl (fun p => { p with
      rsyOut := sdel p.rsyOut t, treadsDone := p.treadsDone + 1,
      changed := if p.rejoin == .sending then p.changed.map (fun s => s.erase t) else p.changed })
    settle (reconcileSent { d with ctl := resyncEnd c })

/-- A tread's gallery takes part in resync: fenced on neither side (R229, R233). -/
def rsyOpen (c : Ctl) (t : Nat) : Bool := !galFenced c (galOfTread c t) && !partnerFenced c (galOfTread c t)

/-- RESYNC_SEND_TREAD (R66, R229, R232): a set tread that is not on its way, in a gallery not fenced, treads dirty in DRAM first, while
the receiver does not stall. -/
def resyncTread (d : Dev) (t : Nat) : Dev :=
  let c := d.ctl
  let set := c.pair.changed.getD TreadSet.empty
  let dirty := (c.gals.toList.flatMap (fun g => g.dirty)).map (fun r => r / 16)
  let due (u : Nat) : Bool := set.has u && (u < treadCount c || (!set.all && isMeta (4096 * u))) && !c.pair.rsyOut.contains u && rsyOpen c u
  if c.pair.rejoin == .sending && c.glb.mode == .paired && due t && !(c.pair.partner.map (fun p => p.stall)).getD false
      && (dirty.contains t || !dirty.any due) && !c.reqs.any (fun r => r.placed && treadNo r.haddr == t)
  then treadSend d t false else d

/-! ## Promotion (R52, R221 to R225, R348) -/

/-- Requests that waited for the partner go on alone (R221 steps 2 and 5). -/
def promoteReqs (d : Dev) : Dev :=
  let c := d.ctl
  let seed := (c.reqs.filter (fun r => r.placed)).map (fun r => treadNo r.haddr)
  let c := seed.foldl (fun c t => markChanged c t) c
  let waiting := c.reqs.filter (fun r => r.placed && r.wait == .ack)
  let c := { c with reqs := c.reqs.filter (fun r => match r.src with | .proxy .. => false | _ => true) }
  let c := waiting.foldl (fun c r => match r.src with | .proxy .. => c | _ => complete c r) c
  let c := { c with reqs := c.reqs.map (fun r => if r.wait == .partner then { r with wait := .ready } else r) }
  { d with ctl := c }

/-- The flights of R348 when the partner is lost: own ones whose JRN_END waited commit, retiring ones retire, the partner's committed ones are
applied, its others vanish. -/
def promoteFlights (d : Dev) : Dev :=
  let fs := d.ctl.flights
  let c := { d.ctl with flights := fs.filter (fun f => f.own || f.held) }
  fs.foldl (fun d f =>
    if f.own && f.st == .sentEnd then flightCommit d f.slot
    else if f.own && f.st == .retiring then flightRetire d true f.slot
    else if !f.own && f.held then flightApply d f
    else d) { d with ctl := c }

/-- The partner is declared lost and the device promotes itself (R200, R221; atomic, log entry 32). Outside SERVICE.PAIRED the pairing in
progress is given up; a start goes on as if no partner had answered (R220), its stale treads read as poison (R233, log entry 99). -/
def partnerLost (d : Dev) (cause : Nat) : Dev :=
  let c := d.ctl
  let up := (List.range 4).filter (fun k => (linkAt c k).state == .active)
  let c := raiseF c 0x20E 0
  let c := onTwin (streamsDrop c) (fun t => { t with departing := false, departDue := false })
  let t := now c
  let c := onPair c (fun p => { p with sepCause := cause, sepTime := t, helloSent := false, partner := none, xfers := [], xferRetry := [], rsyOut := [] })
  if d.ctl.glb.mode == .paired then
    let c := match up.head? with
      | some k => txPut c k (.role { orig := k, seq := 0 } .promoted)
      | none => c
    let c := onPair c (fun p => { p with changed := some (p.changed.getD TreadSet.empty), role := 5, rejoin := .none, diverged := p.rejoin == .receiving })
    let d := pullsGiveUp (poisonStale { d with ctl := c })
    let c := d.ctl
    let moved := c.halls.filter (fun x => !x.2.home)
    let cold := moved.filter (fun x => x.2.mode == .shared)
    let c := { c with halls := c.halls.map (fun x => if x.2.home then x else
      (x.1, { x.2 with home := true, gen := (x.2.gen + 1) % 65536, cold := x.2.mode == .shared, warm := [], swept := 0 })) }
    let c := moved.foldl (fun c x => hallDirty c x.1) c
    let c := cold.foldl (fun c x => hallEvent c x.1 3) c
    let c := onPair c (fun p => { p with promHalls := Nat.min moved.length 65535, promCold := Nat.min cold.length 65535, promDur := freeNat c % 65536, promCount := (p.promCount + 1) % 65536, promTime := t })
    let c := transition (holdAbort (useFree c) 4) .solo 0x20 0xFF
    let c := { c with glb := { c.glb with promoting := false }
                      snoops := c.snoops.filter (fun s => s.holder.here && s.fwd.isNone)
                      releases := (c.releases.filter (fun x => x.rsp.isNone)).map (fun x => if moved.any (fun y => y.1 == x.hall) then { x with phase := .waiting } else x) }
    settle (promoteFlights (let d := promoteReqs { d with ctl := c }; { d with ctl := rampStart d.ctl }))
  else if d.ctl.glb.mode == .start then
    let c := onPair c (fun p => { p with rejoin := .none, role := if d.ctl.boot.phase == .ready then 5 else 0 })
    let d := pullsGiveUp (poisonStale { d with ctl := c })
    if d.ctl.boot.pairWaitOver then soloStart d 5 cause else d
  else { d with ctl := onPair c (fun p => { p with rejoin := .none, role := if p.role == 1 then 0 else p.role }) }

/-- The loss has not been declared yet (R200): a partner is known, or the device works with one. -/
def lossOpen (c : Ctl) : Bool := c.pair.partner.isSome || c.glb.mode == .paired

/-! ## Home transfers (R224, R234, R235) -/

/-- The preferred side of a hall (R208). -/
def prefSide (c : Ctl) (k : Nat) : Nat :=
  match c.pair.prefMap with
  | some m => b2n (((m[k / 8]?).getD 0).getLsbD (k % 8))
  | none => k % 2

/-- HOME_RETURN_START (R234): with both devices in SERVICE.PAIRED and nothing left to restore, in ascending order, one hall of each gallery at a time. -/
def homeReturn (d : Dev) (k : Nat) : Dev :=
  let c := d.ctl
  let g := galOfHall c k
  if c.glb.mode == .paired && c.pair.homeReturn && !c.glb.restoring && (c.pair.partner.map (fun p => !p.restoring && p.state == modeCode .paired)).getD false
      && k < hallCount c && (hallAt c k).home && prefSide c k != c.twin.side && !galFenced c g && !partnerFenced c g
      && !c.pair.xfers.any (fun j => galOfHall c j == g) && !xferPaused c
      && !c.halls.any (fun x => x.1 < k && galOfHall c x.1 == g && x.2.home && prefSide c x.1 != c.twin.side)
  then settle { d with ctl := xferGo (onPair c (fun p => { p with xfers := p.xfers ++ [k] })) } else d

/-- The answer to a HOME_XFER (R235 steps 4 and 5): a shared hall is cold at its new home, and its LDs here are told too (R123). -/
def xferAnswer (d : Dev) (k status : Nat) : Dev :=
  let c := d.ctl
  if status == 0 then
    let c := hallMod c k (fun h => { h with home := false, cold := false, warm := [], swept := 0 })
    let c := onGal c (galOfHall c k) (fun g => { g with dir := g.dir.filter (fun e => hallOf (e.line * 64) != k) })
    let c := if (hallAt c k).mode == .shared then hallEvent c k 3 else c
    settle { d with ctl := incompleteReturn (promoteFlag (onPair c (fun p => { p with xfers := sdel p.xfers k }))) }
  else { d with ctl := onPair c (fun p => { p with xferRetry := addNew p.xferRetry k }) }

/-- HOME_XFER as the new home receives it (R235 step 4): its answer is the status. -/
def xferIn (c : Ctl) (k gen side : Nat) : Ctl × Nat :=
  if c.glb.mode != .paired then (c, 2)
  else
    let h := hallAt c k
    let mine := side == c.twin.side
    let cold := mine && !h.home && h.mode == .shared
    let c := hallSet c k { h with gen := gen, home := mine, cold := cold || (h.cold && mine), warm := [], swept := 0 }
    (if cold then hallEvent c k 3 else c, 0)

/-! ## The fence of a gallery's memory (R160 to R163, R224) -/

/-- The contents of a gallery's DRAM are given up (R160). -/
def dramDrop (c : Ctl) (g : Nat) (m : Store) : Store :=
  let out (a : Nat) : Bool := galOf c a != g
  { m with dram := m.dram.filter (fun x => out x.1), poison := m.poison.filter (fun l => out (64 * l)) }

/-- The effects of a memory fence on a gallery (R160 to R163). -/
def galFenceOp (d : Dev) (g cause : Nat) : Dev :=
  let c := domStop d.ctl [0x10 + g]
  let m := dramDrop c g d.mem
  let c := onGal c g (fun x => { x with fenced := true, fenceCause := cause, frame := 3, doze := false, dirty := [], cache := [], inFlight := [], dir := [] })
  let ks := hallsOfGal c g
  let c := match c.glb.mode with
    | .save => onSvr c (fun s => { s with run := s.run.map (fun r => { r with
        saved := { r.saved with incomplete := addNew r.saved.incomplete g }, jobs := r.jobs.filter (fun j => j.gal != g || j.kind > 2) }) })
    | .solo => (ks.flatMap hallTreads).foldl markChanged c
    | .paired => ackNews (galPass c g)
    | _ => c
  settle { ctl := restoreCheck c, mem := m }

/-! ## The commands -/

/-- PAIR_WAIT_EXPIRY (R34, R220). -/
def execPairWaitExpiry (s : State) : Host.Outcome State Fault Refusal :=
  onDev s (fun d =>
    if d.ctl.glb.mode == .start && !d.ctl.boot.pairWaitOver && (d.ctl.boot.phase == .index || d.ctl.boot.phase == .pairing)
    then
      let d := { d with ctl := onBoot d.ctl (fun b => { b with pairWaitOver := true }) }
      if d.ctl.pair.role ≤ 1 || d.ctl.pair.role == 7 && !(List.range 4).any (fun k => (linkAt d.ctl k).state == .active) then soloStart d 5 5 else d
    else d)

/-- START_COMPLETE (R32 codes 0x10 and 0x11, R378): an authoritative device that waited for charge goes on with its resync. -/
def execStartComplete (s : State) : Host.Outcome State Fault Refusal :=
  onDev s (fun d => match d.ctl.pair.rejoin with
    | .sendingStale b k => if d.ctl.glb.mode == .start then resyncEnter d b k else startFinish d
    | _ => startFinish d)

/-- RESYNC_SEND_TREAD (R229). -/
def execResyncSendTread (tread : BitVec 34) (s : State) : Host.Outcome State Fault Refusal := onDev s (fun d => resyncTread d tread.toNat)

/-- HOME_RETURN_START (R234). -/
def execHomeReturnStart (hall : BitVec 16) (s : State) : Host.Outcome State Fault Refusal := onDev s (fun d => homeReturn d hall.toNat)

/-- HOME_XFER_RETRY (R235). -/
def execHomeXferRetry (hall : BitVec 16) (s : State) : Host.Outcome State Fault Refusal :=
  onCtl s (fun c =>
    let k := hall.toNat
    if c.pair.xferRetry.contains k && c.glb.mode == .paired && (!xferPaused c || galFenced c (galOfHall c k)) then
      sendRole (onPair c (fun p => { p with xferRetry := sdel p.xferRetry k })) (.xfer k) (.homeXfer k (hallAt c k).gen (1 - c.twin.side))
    else c)

/-- PARTNER_LOSS_TIMEOUT (R200). -/
def execPartnerLossTimeout (s : State) : Host.Outcome State Fault Refusal :=
  onDev s (fun d => if lossOpen d.ctl then partnerLost d 1 else d)

/-- The LDs of this device assigned a hall that changed while the device was separated (R239). -/
def changedLds (c : Ctl) : List Nat :=
  match c.pair.changed with
  | none => []
  | some s =>
    if s.all then assignedLds c
    else ((s.xs.map (fun t => t / 262144)).eraseDups.flatMap (fun k => ((hallAt c k).sharers.filter (fun x => x.here)).map (fun x => x.ld))).eraseDups

/-- A write of YIELD (R239): accepted by a diverged device in SERVICE.SOLO. The LDs to report are those of halls changed up to the cut-off. -/
def yieldOp (c : Ctl) (ini : Nat) : Ctl :=
  if c.glb.mode == .solo && c.pair.role == 6 then
    let c := pairRecSet c { (pairRec c) with proposed := 0 }
    saveBegin (onPair c (fun p => { p with yielding := true })) 0x21 ini 0 0
  else illegal c ini

/-- YIELD (R239). -/
def execYieldImage (ini : Byte) (s : State) : Host.Outcome State Fault Refusal :=
  onCtl s (fun c => regWrite c ini.toNat 0x340140 8 (fun c => yieldOp c ini.toNat))

end Sys2Proof.Machine
end

