-- ==== Sys2Proof/Machine/Flit.lean ====
section
/-! DEFINITION. Machine/Flit.lean: the words of Fehel flits and messages: the header, the CRC, and the message that slots spell (R176 to R183). -/
namespace Sys2Proof.Machine

/-- CRC-64 of a flit (R177). -/
def crc64 (l : List Byte) : Nat := l.foldl (crcByte 0xC96C5795D7870F42) 0xFFFFFFFFFFFFFFFF ^^^ 0xFFFFFFFFFFFFFFFF

/-- Bytes of a slot. -/
def slotBytes16 (s : Slot) : List Byte := bytesOf 16 s.toNat

/-- The CRC-64 over a flit's header and slots. -/
def flitCrc (hdr : Word) (slots : List Slot) : Nat := crc64 (bytesOf 8 hdr.toNat ++ slots.flatMap slotBytes16)

def hdrType (h : Word) : Nat := fieldOf h.toNat 63 60
def hdrFseq (h : Word) : Nat := fieldOf h.toNat 59 48
def hdrFack (h : Word) : Nat := fieldOf h.toNat 47 36
def hdrCont (h : Word) : Nat := fieldOf h.toNat 35 31
def hdrReplay (h : Word) : Bool := bitOf h.toNat 6
/-- The credit returns of a header: channel and slots. -/
def hdrCredits (h : Word) : List (Nat × Nat) :=
  [(fieldOf h.toNat 30 29, fieldOf h.toNat 28 20), (fieldOf h.toNat 19 18, fieldOf h.toNat 17 9)]

/-- The bytes of a message's data slots. -/
def dataBytes (l : List Slot) : List Byte := l.flatMap slotBytes16
def dataLine (l : List Slot) : Line := BitVec.ofNat 512 (ofBytes (dataBytes l))
def dataRiser (l : List Slot) : Riser := BitVec.ofNat 2048 (ofBytes (dataBytes l))
/-- An n-byte field of a payload. -/
def payload (l : List Slot) (o n : Nat) : Nat := ofBytes (((dataBytes l).drop o).take n)

/-- LEN that an opcode admits (R180). -/
def lenOf (op sub n : Nat) : Bool :=
  match op with
  | 0x10 | 0x21 | 0x30 => n == 4
  | 0x11 | 0x40 => n == 16
  | 0x12 => 1 ≤ n && n ≤ 16
  | 0x22 => n == 5
  | 0x25 => n == (match sub with | 1 => 4 | 2 => 2 | 3 => 1 | 0xB => 16 | 0xC => 16 | _ => 0)
  | 0x32 => n == 0 || n == 4
  | 0x33 => n ≤ 16
  | 0 | 1 | 2 | 3 | 4 | 5 | 0x13 | 0x14 | 0x1F | 0x20 | 0x23 | 0x24 | 0x2F | 0x31 | 0x41 | 0x4F => n == 0
  | _ => false

/-- HELLO's payload (R183). -/
def helloOf (l : List Slot) : Hello :=
  { pairId := BitVec.ofNat 32 (payload l 0 4), side := payload l 4 1, pending := bitOf (payload l 5 1) 0, fencedGals := BitVec.ofNat 8 (payload l 6 1),
    saveSeq := BitVec.ofNat 64 (payload l 8 8), halls := payload l 16 4, dimmGib := payload l 20 2, proposed := payload l 22 2,
    saveTime := BitVec.ofNat 64 (payload l 24 8), prefCrc := BitVec.ofNat 32 (payload l 32 4) }

/-- The ROLE_REQ that a header and its data spell (R183). A SUBTYPE that R183 does not list spells none, which is a protocol error as a code that no
table lists is (DESIGN CHOICE, log entry 107). -/
def roleOf (w sub : Nat) (l : List Slot) : Option Role :=
  let hall := fieldOf w 117 102; let init := fieldOf w 125 118; let hgen := fieldOf w 39 24; let wide := fieldOf w 103 72
  match sub with
  | 1 => some (.hello (helloOf l))
  | 2 => some (.hallAdd hall (payload l 0 1 == 2) (payload l 1 1) (payload l 2 1) (payload l 3 1) (payload l 16 16))
  | 3 => some (.hallRelease hall (payload l 0 1) (payload l 1 1))
  | 4 => some (.homeXfer hall hgen (init % 2))
  | 5 => some .promoted
  | 6 => some .resyncBegin
  | 7 => some .diverged
  | 8 => some (.ldFence init (hgen == 1))
  | 9 => some (.sanitizeMark hall (init % 2 == 1))
  | 0xA => some (.galFence (init % 8) (bitOf init 3))
  | 0xB => some (.mapChunk wide ((List.range 32).map (fun i => mapEntOfWord (payload l (8 * i) 8))))
  | 0xC => some (.staleMap wide ((maskList 2048 (payload l 0 256)).map (fun i => wide * 2048 + i)))
  | 0xD => some (.staleMapEnd wide (init % 2 == 1))
  | _ => none

def snpOf (n : Nat) : Snp := if n == 0 then .none else if n == 1 then .data else if n == 2 then .inv else .cur

/-- The message that a header slot and its data slots spell (R180); none for an opcode that R180 does not list. -/
def msgOf (h : Slot) (l : List Slot) : Option Msg :=
  let w := h.toNat
  let fl := fieldOf w 23 16; let mid := fieldOf w 39 24; let tag : Tag := { orig := fieldOf w 71 70, seq := fieldOf w 69 40 }
  let a := fieldOf w 117 72; let init := fieldOf w 125 118
  match fieldOf w 7 0 with
  | 0x00 => some .nop
  | 0x01 => some (.heartbeat (fl / 16) (fl % 16) mid (fieldOf w 55 40) (fieldOf w 79 72) (bitOf w 80))
  | 0x02 => some (.ack (if fl % 2 == 0 then .mir else .blk) tag (fieldOf w 103 72) (bitOf w 104))
  | 0x03 => some (.stale (if fl % 4 == 0 then .mir else if fl % 4 == 1 then .req else .blk) (bitOf fl 2) mid tag a init)
  | 0x04 => some (.depart fl mid)
  | 0x05 => some (.pfault mid (fieldOf w 81 72) (fieldOf w 87 82))
  | 0x10 => some (.mirWr64 (bitOf fl 0) mid tag a init (dataLine l))
  | 0x11 => some (.mirWr256 (BitVec.ofNat 4 fl) mid tag a init (dataRiser l))
  | 0x12 => some (.jrnWr mid tag (fieldOf w 95 72) (fieldOf w 103 96) init l.length (dataRiser l))
  | 0x13 => some (.jrnEnd mid tag (fieldOf w 95 72) (fieldOf w 103 96) (fieldOf w 113 104))
  | 0x14 => some (.jrnDone mid tag (fieldOf w 103 96))
  | 0x1F => some (.barrier 0 (BitVec.ofNat 4 fl) (fieldOf w 79 72))
  | 0x20 => some (.prxRd (snpOf (fl % 4)) (bitOf fl 2) mid tag a init)
  | 0x21 => some (.prxWr64 (bitOf fl 0) mid tag a init (dataLine l))
  | 0x22 => some (.prxWrPtl (bitOf fl 0) mid tag a init (BitVec.ofNat 64 (payload l 0 8)) (dataLine (l.drop 1)))
  | 0x23 => some (.prxCln mid tag a init)
  | 0x24 => some (.biFwd (fl % 8) mid tag a init)
  | 0x25 => (roleOf w fl l).map (fun r => .role tag r)
  | 0x2F => some (.barrier 1 (BitVec.ofNat 4 fl) (fieldOf w 79 72))
  | 0x30 => some (.prxRdData (fl % 4) (fieldOf fl 5 4) tag (dataLine l))
  | 0x31 => some (.prxCmp (fl % 4) tag)
  | 0x32 => some (.biRsp (fl % 4) tag a (if bitOf fl 4 then some (dataLine l) else none) (bitOf fl 5))
  | 0x33 => some (.roleRsp fl mid tag (if fl == 1 then some (helloOf l) else none))
  | 0x40 => some (.rsyData (BitVec.ofNat 4 fl) (bitOf fl 4) mid tag a (dataRiser l))
  | 0x41 => some (.rsyDone (bitOf fl 4) tag (fieldOf w 111 72))
  | 0x4F => some (.barrier 3 (BitVec.ofNat 4 fl) (fieldOf w 79 72))
  | _ => none

/-- The result of walking slots: the messages, the slots of a message that goes on, or a protocol error (R178). -/
inductive Walk where
  | ok (msgs : List Msg) (rest : List Slot) (left : Nat)
  | bad (msgs : List Msg)

/-- The walk of a flit's slots (R178). -/
def walk : Nat → List Slot → Walk
  | 0, _ => .ok [] [] 0
  | _, [] => .ok [] [] 0
  | n + 1, h :: l =>
    if h == 0 then walk n l
    else
      let len := fieldOf h.toNat 12 8
      if !lenOf (fieldOf h.toNat 7 0) (fieldOf h.toNat 23 16) len then .bad []
      else if l.length < len then .ok [] (h :: l) (len - l.length)
      else match msgOf h (l.take len) with
        | none => .bad []
        | some m => match walk n (l.drop len) with
          | .ok ms r k => .ok (m :: ms) r k
          | .bad ms => .bad (m :: ms)

end Sys2Proof.Machine
end

