-- ==== Sys2Proof/Machine/Fehel.lean ====
section
/-! DEFINITION. Machine/Fehel.lean: what arrives on a twin link: flits, control codes and messages (R171 to R202, R211 to R239, R346). -/
namespace Sys2Proof.Machine

/-! ## Protocol errors and flow (R178, R184, R197, R205) -/

def protocolError (c : Ctl) (k : Nat) : Ctl := raiseF c (srcLink k 7) 0

/-- Receive buffer sizes in slots (R184). -/
def rxSize (vc : Nat) : Nat := [4096, 1024, 1024, 2048].getD vc 0

/-- Credits arrive. -/
def creditIn (c : Ctl) (k : Nat) (cr : List (Nat × Nat)) : Ctl :=
  cr.foldl (fun c x => onLink c k (fun l => { l with credit := lmod l.credit x.1 (fun n => Nat.min (n + x.2) (rxSize x.1)) })) c

/-! ## Sent messages that are answered -/

/-- Serial comparison of sequence numbers modulo 2^30 (R187): a is at or before b. -/
def seqLe (a b : Nat) : Bool := (b + 2 ^ 30 - a) % 2 ^ 30 < 2 ^ 29

/-- What an acknowledged message was waiting for (R45, R189, R229, R345). -/
def acked (d : Dev) (s : Sent) : Dev :=
  match s.cont with
  | .write id =>
    if d.ctl.twin.sent.any (fun t => t.cont == .write id) then d
    else match reqAt d.ctl id with
      | some r => if r.placed && r.wait == .ack then { d with ctl := complete d.ctl r } else d
      | none => d
  | .journal slot => flightCommit d slot
  | .retire slot => flightRetire d true slot
  | .rsy t => rsyAcked d t
  | _ => d

/-- Landing units of a flight record: its header codeword and its journal (R254, R256). -/
def flightUnits (f : Flight) : Nat := (1 + (flightBytes f + 4095) / 4096 + 3) / 4

/-- Jobs of one kind without risers. -/
def plainJobs (kind n : Nat) : List SaveJob := List.replicate n { kind := kind, gal := 0, risers := [] }

/-- The jobs of a save with the UNITMAP stream that its units need (R254): 4 B for each. -/
def withUnitMap (done : Nat) (jobs : List SaveJob) : List SaveJob :=
  let rest := jobs.filter (fun j => j.kind != 7)
  rest ++ plainJobs 7 (Nat.max 1 ((done + rest.length + 4095) / 4096))

/-- An ACK of JRN_END while the links are held up after DEPART or PFAULT: the flight counts as committed at the cut-off and is saved; no entry
is written for it (R201, R247, R348). -/
def lateAck (c : Ctl) (space : Space) (tag : Tag) : Ctl :=
  let hit (s : Sent) : Bool := s.space == space && s.tag.orig == tag.orig && seqLe s.tag.seq tag.seq
  let done := c.twin.sent.filter hit
  let c := onTwin c (fun t => { t with sent := t.sent.filter (fun s => !hit s) })
  done.foldl (fun c s => match s.cont with
    | .journal slot =>
      match flightAt c true slot with
      | some f =>
        if f.held then c
        else
          let c := { onFlight c true slot (fun f => { f with st := .committed, commitSeq := c.commitSeq }) with commitSeq := c.commitSeq + 1 }
          onSvr c (fun x => { x with run := x.run.map (fun r => { r with jobs := withUnitMap r.saved.units.length (plainJobs 3 (flightUnits f) ++ r.jobs) }) })
      | none => c
    | _ => c) c

/-- ACK (R189), with the partner's delay and stall (R78). -/
def ackIn (d : Dev) (space : Space) (tag : Tag) (delay : Nat) (stall : Bool) : Dev :=
  let c := d.ctl
  let hit (s : Sent) : Bool := s.space == space && s.tag.orig == tag.orig && seqLe s.tag.seq tag.seq
  let done := c.twin.sent.filter hit
  let c := onTwin c (fun t => { t with sent := t.sent.filter (fun s => !hit s) })
  let c := onPair c (fun p => { p with partner := p.partner.map (fun q => { q with delayNs := delay, stall := stall }) })
  let d := settle (done.foldl acked { d with ctl := c })
  { d with ctl := resyncEnd (steerJoin (incompleteReturn (xferGo d.ctl))) }

/-- The newest sent message carries on the count of refusals of the one it replaces; past 64 in succession STALE_EXCESS is raised (R211). -/
def refusedAgain (c : Ctl) (k n : Nat) : Ctl :=
  let c := onTwin c (fun x => { x with sent := x.sent.dropLast ++ (x.sent.getLast?.map (fun s => { s with refused := n + 1 })).toList })
  if n + 1 == 65 then raiseF c (srcLink k 10) 0 else c

/-- STALE arrives: more than 10,000 within 1 s raise STALE_EXCESS (R205). -/
def staleCount (c : Ctl) (k : Nat) : Ctl :=
  let new := winAdd (linkAt c k).staleWin (now c) 1 65536
  let c := onLink c k (fun x => { x with staleWin := new })
  if winSum new > 10000 && winSum new - 1 ≤ 10000 then raiseF c (srcLink k 10) 0 else c

/-- STALE (R190, R211): what was refused is resolved again and sent anew under the generation now in force. -/
def staleIn (d : Dev) (k : Nat) (space : Space) (tag : Tag) : Dev :=
  let c := staleCount d.ctl k
  match c.twin.sent.find? (fun s => s.space == space && s.tag == tag) with
  | none => { d with ctl := c }
  | some s =>
    let c := prxGo (onTwin c (fun x => { x with sent := delFirst (fun y => y == s) x.sent }))
    let again (c : Ctl) (id : Nat) : Ctl :=
      let c := onReq c id (fun r => { r with refused := r.refused + 1, wait := .ready, placed := false, tried := false })
      if (reqAt c id).any (fun r => r.refused == 65) then raiseF c (srcLink k 10) 0 else c
    let c := match s.cont, s.msg with
      | .write id, _ => again c id
      | .proxy id, _ => again c id
      | .correct id, _ => again c id
      | .snoop _ ld line, _ =>
        (match c.snoops.find? (fun x => x.holder == { here := false, ld := ld } && x.line == line) with
         | some x => refusedAgain (snoopPut { c with snoops := delFirst (fun y => y == x) c.snoops } { x with sent := false }) k s.refused
         | none => c)
      | .rsy t, .rsyData _ rec _ _ a _ =>
        refusedAgain (sendAddr c a .blk (.rsy t) (fun tag => .rsyData (riserPoison d.mem (riserNo a)) rec (hallAt c (hallOf a)).gen tag a (riserData d (riserNo a)))) k s.refused
      | _, _ => c
    settle { d with ctl := c }

/-! ## Responses (R212 to R216) -/

/-- The request that waits for a response, taken out of the sent messages. -/
def takeSent (c : Ctl) (tag : Tag) : Option (Sent × Ctl) :=
  match c.twin.sent.find? (fun s => s.space == .req && s.tag == tag) with
  | some s => some (s, prxGo (onTwin c (fun t => { t with sent := delFirst (fun y => y == s) t.sent })))
  | none => none

/-- PRX_RD_DATA (R116, R212, R216). -/
def rdDataIn (d : Dev) (tag : Tag) (status : Nat) (data : Line) : Dev :=
  match takeSent d.ctl tag with
  | none => d
  | some (s, c) =>
    let d := { d with ctl := steerJoin c }
    match s.cont with
    | .proxy id =>
      (match reqAt d.ctl id with
       | some r => settle { d with ctl := if status == 2 then answerOffline d.ctl r else answerRead d.ctl r data (status == 1) 0 }
       | none => d)
    | .correct id =>
      (match reqAt d.ctl id with
       | some r =>
         if status == 0 then
           let c := mediaEvent (onReq d.ctl id (fun r => { r with wait := .ready, ecc := .clean })) .info r.haddr
           settle { ctl := c, mem := putLine d.mem r.haddr data false }
         else settle { d with ctl := waitReq d.ctl id .ready }
       | none => d)
    | .pull line => pullLine d line status data
    | _ => d

/-- PRX_CMP (R213, R215). -/
def cmpIn (d : Dev) (tag : Tag) (status : Nat) : Dev :=
  match takeSent d.ctl tag with
  | some ({ cont := .proxy id, .. }, c) =>
    (match reqAt c id with
     | some r => settle { d with ctl := steerJoin (if status == 2 then answerOffline c r else answerWrite c r) }
     | none => { d with ctl := steerJoin c })
  | some (_, c) => { d with ctl := steerJoin c }
  | none => d

/-- BI_RSP (R214). -/
def biRspIn (d : Dev) (tag : Tag) (resp : Nat) (data : Option Line) (poison : Bool) : Dev :=
  match takeSent d.ctl tag with
  | some ({ cont := .snoop _ ld line, .. }, c) => snoopAnswer { d with ctl := steerJoin c } { here := false, ld := ld } line resp data poison
  | some (_, c) => { d with ctl := steerJoin c }
  | none => d

/-- ROLE_RSP (R183). -/
def roleRspIn (d : Dev) (tag : Tag) (status : Nat) (h : Option Hello) : Dev :=
  match takeSent d.ctl tag with
  | none => d
  | some (s, c) =>
    let c := steerJoin c
    let d := { d with ctl := c }
    match s.cont with
    | .hello =>
      (match h with
       | some p =>
         if status == 2 then { d with ctl := onPair c (fun p => { p with helloSent := false }) }
         else if (c.pair.partner.bind (fun q => q.hello)).isNone then pairSettle d p else d
       | none => { d with ctl := onPair c (fun p => { p with helloSent := false }) })
    | .hallOp true _ k _ =>
      (match s.msg, tenantOf c.twin.side s with
       | .role _ (.hallAdd _ sh l side slot tg), some x =>
         settle { d with ctl := if status == 0 then emit (hallAddApply c k sh (side == c.twin.side) l slot tg) (.fmApi 0x5604 0 [])
                                else if status == 2 then { c with tenants := x :: c.tenants } else emit c (.fmApi 0x5604 2 []) }
       | _, _ => d)
    | .hallOp false _ k ld =>
      (match c.releases.find? (fun x => x.hall == k && x.ld == ld && x.phase == .partner) with
       | some x => settle { d with ctl := releaseEnd c x }
       | none => d)
    | .xfer k => xferAnswer d k status
    | .galFence _ _ => settle { d with ctl := incompleteReturn (xferGo c) }
    | .resync =>
      (match c.pair.rejoin, s.msg with
       | .sendingMap n b k, .role _ (.mapChunk _ _) =>
         let next := n + 32
         if next < hallCount c then { d with ctl := mapSend (onPair c (fun p => { p with rejoin := .sendingMap next b k })) next } else resyncEnter d b k
       | .begun, .role _ .resyncBegin =>
         if status == 0 then startFinish { d with ctl := onBoot (onPair c (fun p => { p with rejoin := .receiving, role := 4, treadsDone := 0 })) (fun b => { b with phase := .ready }) } else d
       | _, _ => d)
    | _ => d

/-! ## Link-local messages (R180, R199, R200) -/

/-- HEARTBEAT (R199, R217). -/
def heartbeatIn (c : Ctl) (k st dbEff : Nat) (restoring : Bool) : Ctl :=
  let c := onLink c k (fun x => { x with hbRx := (x.hbRx + 1) % 2 ^ 32, hbTime := now c })
  let base : Partner := c.pair.partner.getD { hello := none, fenced := [], delayNs := 0, stall := false, state := 0, dbEff := 0, restoring := false }
  helloSend (onPair c (fun p => { p with partner := some { base with state := st, dbEff := dbEff, restoring := restoring } }))

/-! ## Role requests (R183) -/

/-- The effect of a ROLE_REQ and the status of its answer; none while the answer is still to come. Of two adds of one hall that cross, the one that
SIDE 1 sent is to be tried again (DESIGN CHOICE, log entry 114). -/
def roleIn (d : Dev) (k : Nat) (tag : Tag) (r : Role) : Dev × Option Nat :=
  let c := d.ctl
  match r with
  | .hello h =>
    let open_ := c.glb.mode == .solo || (c.glb.mode == .start && c.boot.phase == .pairing)
    let c := respond c k none tag (.roleRsp 1 (if c.pair.refused then 1 else if open_ then 0 else 2) tag (some (ownHello c)))
    (if open_ && !c.pair.refused && (c.pair.partner.bind (fun q => q.hello)).isNone then pairSettle { d with ctl := c } h else { d with ctl := c }, none)
  | .hallAdd hall sh ld side slot tg =>
    let x : TenOp := { add := true, ini := 0xFF, here := side == c.twin.side, ld := ld, hall := hall, shared := sh, tag := tg }
    if (hallAt c hall).sharers.any (fun s => s.here == x.here && s.ld == ld) then (d, some 0)
    else if c.twin.side == 0 && c.twin.sent.any (fun s => match s.cont with | .hallOp true _ j _ => j == hall | _ => false) then (d, some 2)
    else if addCode c x != 0 then (d, some 1)
    else ({ d with ctl := hallAddApply c hall sh x.here ld slot tg }, some 0)
  | .hallRelease hall ld side =>
    let x : Release := { hall := hall, here := side == c.twin.side, ld := ld, phase := .waiting, reply := none, rsp := some (k, tag) }
    (settle { d with ctl := { c with releases := c.releases ++ [x] } }, none)
  | .homeXfer hall gen side => let (c, st) := xferIn c hall gen side; (settle { d with ctl := c }, some st)
  | .promoted => (if lossOpen c then partnerLost d 1 else d, none)
  | .resyncBegin =>
    if c.pair.rejoin == .awaiting then ({ d with ctl := mapSend (onPair c (fun p => { p with rejoin := .sendingMap 0 tag k })) 0 }, none) else (d, some 2)
  | .diverged =>
    ({ d with ctl := if c.pair.diverged then c else raiseF (onPair c (fun p => { p with diverged := true, role := if c.glb.mode == .solo then 6 else p.role })) 0x20F 0 }, some 0)
  | .ldFence ld lift =>
    if lift then (d, some 0)
    else ({ d with ctl := raiseAt (ldFenceOp c ld) (srcHead (ld / 4) 5) 0 0 ld 9 }, some 0)
  | .sanitizeMark hall set => ({ d with ctl := hallMod c hall (fun h => { h with sanitize := set }) }, some 0)
  | .galFence g fenced =>
    let c := onPair c (fun p => { p with
      partner := p.partner.map (fun q => { q with fenced := if fenced then sins q.fenced g else sdel q.fenced g }),
      changed := if fenced then some (p.changed.getD TreadSet.empty) else p.changed,
      rejoin := if !fenced && p.rejoin == .none && p.changed.isSome then .sending else p.rejoin })
    let c := (hallsOfGal c g).foldl (fun c h => hallEvent c h (if fenced then 5 else 6)) c
    let c := if fenced then c else staleSend c false
    (settle { d with ctl := resyncEnd c }, some 0)
  | .mapChunk first es =>
    let put (c : Ctl) (i : Nat) : Ctl := match es[i]? with
      | some e => if first + i < hallCount c then hallDirty (mapEntIn c (first + i) e) (first + i) else c
      | none => c
    ({ d with ctl := (List.range es.length).foldl put c }, some 0)
  | .staleMap _ ts => ({ d with ctl := onPair c (fun p => { p with stale := ts.foldl (fun s t => s.insert t) p.stale }) }, some 0)
  | .staleMapEnd _ full =>
    let c := if full then onPair c (fun p => { p with stale := TreadSet.full, staleGot := [] }) else c
    ({ d with ctl := onGlb c (fun g => { g with restoring := g.restoring || (g.mode.service && !restoredAll c) }) }, some 0)

/-! ## Numbered messages (R187 to R190) -/

/-- The request of a message from the partner enters the tracker. -/
def proxyIn (d : Dev) (k : Nat) (tag : Tag) (ini haddr : Nat) (mirror : Bool) (op : ReqOp) (f : Req → Req) : Dev :=
  submit d (f (Req.fresh (.proxy k tag ini mirror) ini op 0 (haddr / 64 * 64)))

/-- A message of this generation is refused (R190): its STALE goes ahead of any ACK. -/
def hgenBad (c : Ctl) (haddr hgen : Nat) : Bool := (hallAt c (hallOf haddr)).gen != hgen

/-- A committed flight holds a line against this message (R347). -/
def lineHeld (c : Ctl) (line ini : Nat) : Bool :=
  c.flights.any (fun f => f.held && (flightLines f).contains line && ini != 0x48 + f.slot / 32)

/-- A clean riser may not be dirtied at the ceiling, nor ahead of a write that has waited for room since before (R77, R78). -/
def roomWaits (c : Ctl) (haddr since : Nat) : Bool := !isDirty c haddr && (atCeiling c || c.reqs.any (fun q => q.wait == .stall && q.id < since))

/-- Mirror writes that must wait here: for the tread, for a flight, or for room below the ceiling (R47, R77, R78, R347). -/
def placeWaits (c : Ctl) (haddr ini since : Nat) : Bool :=
  (unrestored c (treadNo haddr) && !stale c (treadNo haddr)) || lineHeld c (lineNo haddr) ini || roomWaits c haddr since

/-- A message that waits for room (R78, R232). -/
def msgStalls (c : Ctl) (m : Msg) (since : Nat) : Bool :=
  match m with
  | .mirWr64 _ _ _ a .. | .mirWr256 _ _ _ a .. | .rsyData _ _ _ _ a _ => roomWaits c a since
  | _ => false

/-- A tread that a waiting message needs is fetched. -/
def wantTread (c : Ctl) (haddr : Nat) : Ctl :=
  if unrestored c (treadNo haddr) && !stale c (treadNo haddr) then fetchStart c (treadNo haddr) else c

/-- RSY_DATA (R230, R232, R237). A gallery whose memory is fenced takes none (R160). -/
def rsyIn (d : Dev) (poison : BitVec 4) (reconcile : Bool) (hgen haddr : Nat) (data : Riser) : Dev :=
  let c := d.ctl
  let k := hallOf haddr
  let h := hallAt c k
  let r := riserNo haddr
  let t := treadNo haddr
  let put (d : Dev) : Dev := storeRiser { d with ctl := markDirty (fillTouch d.ctl t) r } r data poison
  if galFenced c (galOf c haddr) then d
  else if reconcile then
    if hgen == h.gen && !h.home || (hgen + 65536 - h.gen) % 65536 - 1 < 32767 && hgen != h.gen then
      let d := put (treadEnsure d t)
      { d with ctl := hallMod d.ctl k (fun h => { h with gen := hgen, home := false }) }
    else d
  else
    let d := put d
    let c := onPair d.ctl (fun p => { p with staleGot := sins p.staleGot r, treadsDone := p.treadsDone })
    if (List.range 16).all (fun i => c.pair.staleGot.contains (16 * t + i)) then
      let c := onPair c (fun p => { p with stale := p.stale.erase t, staleGot := p.staleGot.filter (fun x => x / 16 != t), treadsDone := p.treadsDone + 1 })
      { d with ctl := restoreCheck (onSvr c (fun s => { s with unrestored := s.unrestored.erase t, missing := sdel s.missing t })) }
    else { d with ctl := c }

/-- The stream a numbered message belongs to: its space, its TAG, and whether a TAG numbers it. -/
def msgTag : Msg → Option (Space × Tag)
  | .mirWr64 _ _ t .. | .mirWr256 _ _ t .. | .jrnWr _ t .. | .jrnEnd _ t .. | .jrnDone _ t _ => some (.mir, t)
  | .prxRd _ _ _ t .. | .prxWr64 _ _ t .. | .prxWrPtl _ _ t .. | .prxCln _ t .. | .biFwd _ _ t .. | .role t _ => some (.req, t)
  | .rsyData _ _ _ t .. | .rsyDone _ t _ => some (.blk, t)
  | _ => none

/-- The journal of the partner's flight takes a chunk (R346). The message names neither its LD nor its ring: the model holds 0 (DESIGN CHOICE, log
entry 109). -/
def jrnIn (c : Ctl) (fgen slot joff : Nat) (bytes : List Byte) : Ctl :=
  let fresh : Flight := { own := false, slot := slot, fgen := fgen, ring := 0, desc := 0, ld := 0, st := .journal, commitSeq := 0, segs := [], journal := [] }
  let c := match flightAt c false slot with
    | some f => if f.fgen == fgen then c else { c with flights := delFirst (flightKey false slot) c.flights ++ [fresh] }
    | none => { c with flights := c.flights ++ [fresh] }
  onFlight c false slot (fun f =>
    let j := f.journal ++ List.replicate (16 * joff - f.journal.length) 0
    { f with journal := j.take (16 * joff) ++ bytes ++ j.drop (16 * joff + bytes.length) })

/-- JRN_END (R188, R346, R347): none while the journal does not hold all its units, or an overlapping flight holds it up. -/
def jrnEndIn (c : Ctl) (fgen slot jlen segs : Nat) : Option Ctl :=
  match flightAt c false slot with
  | none => none
  | some f =>
    if f.fgen != fgen || f.journal.length < 16 * jlen then none
    else if f.held then some c
    else
      let f := { f with segs := parseJournal f.journal segs }
      let clash := c.flights.any (fun g => g.own && (g.st == .sentEnd || g.st == .acked) && (flightLines g).any (fun l => (flightLines f).contains l))
      if flightOverlap c f || (c.twin.side == 0 && clash) then none
      else some { onFlight c false slot (fun _ => { f with st := .committed, commitSeq := c.commitSeq }) with commitSeq := c.commitSeq + 1 }

/-- A mirror write is placed: its riser is dirty, and its acknowledgement carries the throttle delay of one that was clean (R76, R78). -/
def mirPlace (d : Dev) (k : Nat) (t : Tag) (a : Nat) (m : Store) : Dev :=
  let c := d.ctl
  let delay := !isDirty c a && throttleNs c > 0
  { ctl := mirAck (bursts (markDirty (wakeGal c (galOf c a)) (riserNo a)) (galOf c a) 1) k t delay, mem := m }

/-- A message next in its stream is processed; none while it must wait (R188). `since` is the tracker number at its arrival (R78). -/
def process (d : Dev) (k : Nat) (m : Msg) (ecc : EccRes) (since : Nat) : Option Dev :=
  let c := d.ctl
  match m with
  | .mirWr64 p g t a ini data =>
    if hgenBad c a g then some { d with ctl := sendStale c k .mir (hallAt c (hallOf a)).home (hallAt c (hallOf a)).gen t a ini }
    else if galFenced c (galOf c a) then some { d with ctl := mirAck c k t false }
    else if placeWaits c a ini since then none
    else some (mirPlace d k t a (putLine d.mem a data p))
  | .mirWr256 p g t a ini data =>
    if hgenBad c a g then some { d with ctl := sendStale c k .mir (hallAt c (hallOf a)).home (hallAt c (hallOf a)).gen t a ini }
    else if galFenced c (galOf c a) then some { d with ctl := mirAck c k t false }
    else if placeWaits c a ini since then none
    else some (mirPlace d k t a (putRiser d.mem (riserNo a) data p))
  | .jrnWr g t joff slot _ n data => some { d with ctl := mirAck (jrnIn c g slot joff ((riserBytes data).take (16 * n))) k t false }
  | .jrnEnd g t jlen slot segs => (jrnEndIn c g slot jlen segs).map (fun c => { d with ctl := mirAck c k t false })
  | .jrnDone _ t slot => let d := flightRetire d false slot; some { d with ctl := mirAck d.ctl k t false }
  | .prxRd snp mirror g t a ini =>
    if hgenBad c a g && !(mirror && ini == 0x52) then some { d with ctl := sendStale c k .req (hallAt c (hallOf a)).home (hallAt c (hallOf a)).gen t a ini }
    else some (proxyIn d k t ini a mirror (.read snp) (fun r => { r with ecc := ecc }))
  | .prxWr64 p g t a ini data =>
    if hgenBad c a g then some { d with ctl := sendStale c k .req (hallAt c (hallOf a)).home (hallAt c (hallOf a)).gen t a ini }
    else some (proxyIn d k t ini a false .write (fun r => { r with data := data, poison := p }))
  | .prxWrPtl p g t a ini mask data =>
    if hgenBad c a g then some { d with ctl := sendStale c k .req (hallAt c (hallOf a)).home (hallAt c (hallOf a)).gen t a ini }
    else some (proxyIn d k t ini a false (.wrPtl mask) (fun r => { r with data := data, poison := p }))
  | .prxCln g t a ini =>
    if hgenBad c a g then some { d with ctl := sendStale c k .req (hallAt c (hallOf a)).home (hallAt c (hallOf a)).gen t a ini }
    else some (proxyIn d k t ini a false .cleanEvict id)
  | .biFwd snp g t a ini =>
    if hgenBad c a g then some { d with ctl := sendStale c k .req (hallAt c (hallOf a)).home (hallAt c (hallOf a)).gen t a ini }
    else
      let x : Holder := { here := true, ld := ini }
      let kind : SnpKind := if snp == 0 then .inv else if snp == 1 then .data else if snp == 2 then .invBlk2 else .invBlk
      if biReach c x then
        some { d with ctl := snoopPut c { kind := kind, holder := x, line := lineNo a, req := 0, fwd := some (t.orig, t.seq), sent := false, sweep := false } }
      else some { d with ctl := respond c k (some a) t (.biRsp 0 t a none false) }
  | .role t r =>
    let (e, st) := roleIn d k t r
    some (match st with
      | some n => { e with ctl := respond e.ctl k none t (.roleRsp (roleSub r) n t none) }
      | none => e)
  | .rsyData p rec g t a data =>
    if !rec && hgenBad c a g then some { d with ctl := sendStale c k .blk (hallAt c (hallOf a)).home (hallAt c (hallOf a)).gen t a 0 }
    else if lineHeld c (lineNo a) 0x52 || roomWaits c a since then none
    else let d := rsyIn d p rec g a data; some { d with ctl := sendAck d.ctl k .blk t }
  | .rsyDone rec t _ =>
    let d := { d with ctl := sendAck c k .blk t }
    some (if rec then
      (match c.pair.rejoin with
       | .reconcile ts s _ => reconcileEnd { d with ctl := onPair d.ctl (fun p => { p with rejoin := .reconcile ts s true }) }
       | _ => d)
    else { d with ctl := restoreCheck (onPair d.ctl (fun p => { p with rejoin := .none, role := 2, stale := TreadSet.empty, staleGot := [] })) })
  | _ => some d

/-- A message of a stream: processed in SEQ order, answered again when it is a duplicate, a protocol error beyond (R188). -/
def numbered (d : Dev) (k : Nat) (m : Msg) (ecc : EccRes) (since : Nat) : Option Dev :=
  match msgTag m with
  | none => some d
  | some (sp, t) =>
    let c := d.ctl
    let key := streamKey t.orig sp
    let want := tgetD c.twin.expSeq key 0
    if t.seq == want then
      let next (c : Ctl) : Ctl := onTwin c (fun x => { x with expSeq := tset x.expSeq key ((want + 1) % 2 ^ 30) })
      match process { d with ctl := next c } k m ecc since with
      | some e => some { e with ctl := rxFree e.ctl k m }
      | none => none
    else if seqLe t.seq want then
      let c := rxFree c k m
      let c := match sp with
        | .req => (match c.twin.answered.find? (fun x => x.1 == t) with
          | some (_, a, m) => (match respLink c k a with | some j => txPut c j m | none => c)
          | none => c)
        | .mir => sendAck c k sp { orig := t.orig, seq := (mirDone c t.orig + 2 ^ 30 - 1) % 2 ^ 30 }
        | .blk => sendAck c k sp { orig := t.orig, seq := (want + 2 ^ 30 - 1) % 2 ^ 30 }
      some { d with ctl := c }
    else some { d with ctl := protocolError c k }

/-! ## Barriers and order (R192, R194) -/

/-- Messages of this link and channel wait: behind a barrier, or behind one that already waits. -/
def queued (c : Ctl) (k : Nat) (m : Msg) : Bool :=
  c.twin.barriers.any (fun b => b.vc == msgVc m && b.arrived.contains k) || c.twin.held.any (fun x => x.link == k && msgVc x.msg == msgVc m)

/-- The tread that a waiting mirror write needs is fetched. -/
def wantFor (c : Ctl) (m : Msg) : Ctl :=
  match m with
  | .mirWr64 _ _ _ a .. | .mirWr256 _ _ _ a .. => wantTread c a
  | _ => c

/-- The loss of a partner that departed is declared once every message that arrived before is processed (R200). -/
def lossGo (d : Dev) : Dev :=
  if d.ctl.twin.departDue && d.ctl.twin.held.isEmpty && lossOpen d.ctl then partnerLost d d.ctl.pair.sepCause else d

/-- Waiting messages are tried again in order; of each link and channel the first that must wait holds up the rest. -/
def heldGo (d : Dev) : Dev :=
  let step (acc : Dev × List HeldMsg) (x : HeldMsg) : Dev × List HeldMsg :=
    let (d, kept) := acc
    if kept.any (fun y => y.link == x.link && msgVc y.msg == msgVc x.msg) || d.ctl.twin.barriers.any (fun b => b.vc == msgVc x.msg && b.arrived.contains x.link) then
      (d, kept ++ [{ x with stall := false }])
    else match numbered d x.link x.msg .clean x.since with
      | some e => (e, kept)
      | none => ({ d with ctl := wantFor d.ctl x.msg }, kept ++ [{ x with stall := msgStalls d.ctl x.msg x.since }])
  let (e, kept) := d.ctl.twin.held.foldl step ({ d with ctl := onTwin d.ctl (fun t => { t with held := [] }) }, [])
  lossGo { e with ctl := onTwin e.ctl (fun t => { t with held := kept ++ t.held }) }

/-- Waiting messages and waiting requests go on after room below the ceiling, a tread or a flight has come free (R47, R78, R347). -/
def wake (d : Dev) : Dev := if d.ctl.twin.held.isEmpty then settle d else settle (heldGo (settle d))

/-- A barrier arrives (R194): it waits for the links of MASK that carry or may still carry this session, not for those declared lost. -/
def barrierIn (d : Dev) (k vc : Nat) (mask : BitVec 4) (epoch : Nat) : Dev :=
  let c := rxFree d.ctl k (.barrier vc mask epoch)
  let up := (maskList 4 mask.toNat).filter (fun j => linkUp c j || (linkAt c j).state == .init)
  let b := (c.twin.barriers.find? (fun b => b.vc == vc && b.epoch == epoch)).getD { vc := vc, epoch := epoch, missing := up, arrived := [] }
  let b := { b with missing := sdel b.missing k, arrived := sins b.arrived k }
  let others := c.twin.barriers.filter (fun x => !(x.vc == vc && x.epoch == epoch))
  heldGo { d with ctl := onTwin c (fun t => { t with barriers := if b.missing.isEmpty then others else others ++ [b] }) }

/-- The wait for further departures is over (R200): barriers hold nothing back any more. -/
def departEnd (d : Dev) : Dev :=
  if d.ctl.twin.departing then heldGo { d with ctl := onTwin d.ctl (fun t => { t with departDue := true, barriers := [] }) } else d

/-- DEPART or PFAULT (R200): with the current epoch the loss follows when every ACTIVE link has carried one, or after 10 µs. -/
def departIn (d : Dev) (k epoch cause : Nat) : Dev :=
  let c := d.ctl
  if epoch != c.pair.epoch then d
  else
    let c := raiseF (onLink c k (fun x => { x with departed := true })) (srcLink k 11) 0
    if !lossOpen c then { d with ctl := c }
    else
      let c := onPair (onTwin c (fun t => { t with departing := true })) (fun p => { p with sepCause := cause })
      if (List.range 4).all (fun j => (linkAt c j).state != .active || (linkAt c j).departed) then departEnd { d with ctl := c } else { d with ctl := c }

/-- What waited behind a barrier goes on when a link has gone down (R194). -/
def afterLink (d : Dev) : Dev := heldGo d

/-! ## A message arrives -/

/-- A message on a link (R180). A device that has sent DEPART or PFAULT answers RETRY_REQ only (R201). PROMOTED is a loss of the partner without a
cause of its own in TWN_PAIR_STATUS: SEP_CAUSE reads 0x01 (R200, R221; DESIGN CHOICE, log entry 106). -/
def msgIn (d : Dev) (k : Nat) (m : Msg) (ecc : EccRes) : Dev :=
  let c := d.ctl
  if (linkAt c k).state != .active then d
  else if c.twin.holding then
    match m with
    | .ack sp t _ _ => { d with ctl := lateAck c sp t }
    | _ => d
  else
    let heldSlots := (c.twin.held.filter (fun y => y.link == k && msgVc y.msg == msgVc m)).foldl (fun n y => n + 1 + msgLen y.msg) 0
    if msgVc m != 4 && heldSlots + (linkAt c k).rxDue.getD (msgVc m) 0 + 1 + msgLen m > rxSize (msgVc m) then { d with ctl := protocolError c k }
    else
    let c := onLink c k (fun x => { x with rxSlots := lmod x.rxSlots (msgVc m) (fun n => (n + 1 + msgLen m) % 2 ^ 64) })
    let d := { d with ctl := c }
    match m with
    | .nop => d
    | .heartbeat st _ _ _ db rs => { d with ctl := heartbeatIn c k st db rs }
    | .ack sp t dl stl => heldGo (ackIn d sp t dl stl)
    | .stale sp _ _ t _ _ => staleIn d k sp t
    | .depart _ e => departIn d k e 2
    | .pfault e _ _ => departIn d k e 3
    | .role _ .promoted => let d := { d with ctl := rxFree d.ctl k m }; if lossOpen d.ctl then partnerLost d 1 else d
    | .barrier vc mask e => barrierIn d k vc mask e
    | .prxRdData st _ t data => let d := rdDataIn d t st data; heldGo { d with ctl := rxFree d.ctl k m }
    | .prxCmp st t => let d := cmpIn d t st; { d with ctl := rxFree d.ctl k m }
    | .biRsp r t _ data p => let d := biRspIn d t r data p; { d with ctl := rxFree d.ctl k m }
    | .roleRsp _ st t h => let d := roleRspIn d t st h; { d with ctl := rxFree d.ctl k m }
    | _ =>
      let keep (c : Ctl) (stall : Bool) : Ctl := onTwin c (fun t => { t with held := t.held ++ [{ link := k, since := c.nextReq, stall := stall, msg := m }] })
      if queued c k m then { d with ctl := keep c false }
      else match numbered d k m ecc c.nextReq with
        | some e => heldGo e
        | none => { d with ctl := keep (wantFor c m) (msgStalls c m c.nextReq) }

/-! ## Flits (R176 to R179, R197, R198) -/

/-- RETRY_REQ leaves. Eight for the same FSEQ that have brought no progress start a fast retrain in place of a ninth (R197, R198). -/
def retryOut (c : Ctl) (k : Nat) : Ctl :=
  let x := linkAt c k
  if x.retryReqs ≥ 8 then retrainStart (raiseF c (srcLink k 5) 0) k true
  else emit (onLink c k (fun x => { x with awaiting := true, retryReqs := x.retryReqs + 1 })) (.ctrl k (.retryReq (facked x) x.nextExp))

/-- Uncorrectable codewords: more than 100 within 1 s raise FEC_UNCORR (R205). -/
def codewords (c : Ctl) (k corrected uncorr : Nat) : Ctl :=
  let new := winAdd (linkAt c k).uncorrWin (now c) uncorr 65536
  let c := onLink c k (fun x => { x with
    cwCorrected := (x.cwCorrected + corrected) % 2 ^ 32, cwUncorr := satAdd x.cwUncorr uncorr 0xFFFFFFFF, uncorrWin := new })
  if winSum new > 100 && winSum new - uncorr ≤ 100 then raiseF c (srcLink k 4) 0 else c

/-- Flits of the replay buffer go again with REPLAY set (R197); more than 1000 within 1 ms start a fast retrain (R198). -/
def replayOut (c : Ctl) (k : Nat) (l : List TxFlit) : Ctl :=
  let c := l.foldl (fun c f => emit c (.fehel k f.fseq f.fack true f.credits f.msg)) c
  let win := winAdd (linkAt c k).replayWin (now c) l.length 65
  let c := onLink c k (fun x => { x with replays := satAdd x.replays l.length 0xFFFFFFFF, replayWin := win })
  if winSum win > 1000 then retrainStart (raiseF (onLink c k (fun x => { x with replayWin := [] })) (srcLink k 5) 0) k true else txPump c k

/-- With no DATA flit to send, or none allowed, CTRL IDLE carries the FACK (R179, R186, R197). -/
def idleOut (c : Ctl) (k sent : Nat) : Ctl :=
  let x := linkAt c k
  if x.state == .active && x.nextSend == sent then emit c (.ctrl k (.idle (facked x))) else c

/-- A flit that is discarded: RETRY_REQ asks for it again, unless one is out already or the device has sent DEPART (R197, R201). -/
def flitDrop (c : Ctl) (k : Nat) : Ctl := if (linkAt c k).awaiting || c.twin.holding then c else retryOut c k

/-- A DATA flit (R176 to R178, R197). -/
def flitIn (d : Dev) (k : Nat) (hdr : Word) (slots : List Slot) (crc : Word) (corrected uncorr : Nat) : Dev :=
  if (linkAt d.ctl k).state != .active then d
  else
    let c := codewords d.ctl k corrected uncorr
    let x := linkAt c k
    if uncorr != 0 || slots.length != 31 || flitCrc hdr slots != crc.toNat then { d with ctl := flitDrop c k }
    else if hdrType hdr == 1 then { d with ctl := txPump (fackIn c k (hdrFack hdr)) k }
    else if hdrType hdr != 0 then { d with ctl := protocolError c k }
    else if hdrFseq hdr != x.nextExp || (x.awaiting && !hdrReplay hdr) then { d with ctl := flitDrop c k }
    else
      let sent := x.nextSend
      let done (d : Dev) : Dev := { d with ctl := idleOut d.ctl k sent }
      let c := onLink c k (fun x => { x with nextExp := (x.nextExp + 1) % 4096, awaiting := false, retryReqs := 0 })
      let c := txPump (creditIn (fackIn c k (hdrFack hdr)) k (hdrCredits hdr)) k
      if hdrCont hdr != Nat.min x.contSlots 31 then { d with ctl := protocolError c k }
      else
        let have_ := x.rxCont ++ slots.take (hdrCont hdr)
        let first := if x.contSlots == 0 then [] else match have_ with
          | h :: l => (msgOf h l).toList
          | [] => []
        match walk 32 (slots.drop (hdrCont hdr)) with
        | .ok ms rest left =>
          let c := onLink c k (fun x => { x with rxCont := rest, contSlots := left })
          done ((first ++ ms).foldl (fun d m => msgIn d k m .clean) { d with ctl := c })
        | .bad ms =>
          let d := (first ++ ms).foldl (fun d m => msgIn d k m .clean) { d with ctl := c }
          done { d with ctl := protocolError d.ctl k }

/-- RETRY_REQ as the transmitter takes it (R197, R198): every buffered flit from the FSEQ goes again with REPLAY set. -/
def retryIn (c : Ctl) (k fack expected : Nat) : Ctl :=
  if (linkAt c k).state != .active then c
  else
    let c := fackIn c k fack
    let x := linkAt c k
    let again := x.replayBuf.dropWhile (fun f => f.fseq != expected)
    if again.isEmpty && expected != x.nextSend then protocolError c k else replayOut c k again

/-- The fields of an INIT pass the checks of R175. -/
def initOk (c : Ctl) (k : Nat) (f : InitFields) : Bool :=
  f.version == 1 && f.pairId == c.twin.pairId && f.side.toNat != c.twin.side && f.tl.toNat == k

/-- INIT is complete on this side when it has sent INIT, received the other's INIT and its INIT_ACK (R174): the link is ACTIVE. With FAST on both
sides flits, sequence numbers and credits go on from the point that the other side reports; otherwise they start anew, and what the link still owes
goes again (R175). -/
def initDone (d : Dev) (k : Nat) (f : InitFields) : Dev :=
  let c := d.ctl
  let x := linkAt c k
  if !(x.initSent && x.initRcvd && x.initAcked) then d
  else
    let tx := lanesUsed (maskList 4 f.rxLanes.toNat)
    let w := widthOf (maskList 4 f.rxLanes.toNat)
    let rx := lanesUsed (goodLanes x)
    if w == 0 || (goodLanes x).length < 2 then afterLink { d with ctl := linkLose c k .lost 8 }
    else
      let fast := x.fast && f.fast
      let again := if fast then x.replayBuf.dropWhile (fun y => y.fseq != f.nextExp.toNat) else []
      let c := onLink c k (fun x => { x with
        state := .active, txLanes := tx, rxLanes := rx, txWidth := w, rxWidth := widthOf (goodLanes x), fast := false, time := now c,
        credit := if fast then x.credit else (f.credits.map (fun v => v.toNat)), departed := false,
        nextSend := if fast then x.nextSend else 0, nextExp := if fast then x.nextExp else 0,
        rxCont := if fast then x.rxCont else [], contSlots := if fast then x.contSlots else 0,
        rxDue := if fast then x.rxDue else [0, 0, 0, 0], replayBuf := again })
      let c := if fast then replayOut c k again else (c.twin.sent.filter (fun s => s.link == k)).foldl (fun c s => txPut c k s.msg) c
      { d with ctl := helloSend (txPump (steerJoin c) k) }

/-- INIT arrives (R174, R175): its checks decide; a failed one fences the link with MISWIRED. -/
def initIn (d : Dev) (k : Nat) (f : InitFields) : Dev :=
  let c := d.ctl
  let x := linkAt c k
  if x.state != .init && x.state != .retrain then d
  else if !initOk c k f then { d with ctl := raiseF (onLink c k (fun x => { x with downCause := 3 })) (srcLink k 3) 0 }
  else
    let c := onLink (fackIn c k f.fack.toNat) k (fun x => { x with initRcvd := true, peerTl := f.tl.toNat, peerSide := f.side.toNat })
    let c := if x.initSent then c else initSend c k
    let c := emit c (.ctrl k (.initAck (initFields c k)))
    initDone { d with ctl := c } k f

/-- INIT_ACK arrives (R174). -/
def initAckIn (d : Dev) (k : Nat) (f : InitFields) : Dev :=
  let c := d.ctl
  let x := linkAt c k
  if (x.state == .init || x.state == .retrain) && x.initSent && initOk c k f then
    initDone { d with ctl := onLink (fackIn c k f.fack.toNat) k (fun x => { x with initAcked := true }) } k f
  else d

/-- HEARTBEAT leaves (R199). -/
def heartbeatOut (c : Ctl) (k : Nat) : Ctl :=
  if (linkAt c k).state != .active || c.twin.holding then c
  else
    let rx := listMask 4 ((List.range 4).filter (fun j => (linkAt c j).state == .active))
    let n := (linkAt c k).hbTx
    let c := onLink c k (fun x => { x with hbTx := (x.hbTx + 1) % 65536 })
    txPut c k (.heartbeat (modeCode c.glb.mode) rx c.pair.epoch n (Nat.min (dbEffGib c) 255) c.glb.restoring)

/-! ## The commands -/

/-- LANE_SER_WINDOW (R202): a window of 10 ms ends with this symbol error ratio. -/
def laneWindow (c : Ctl) (k lane errs ppm : Nat) : Ctl :=
  if !linkUp c k then c
  else
    let high := decide (ppm > c.twin.serLimit)
    let c := onLink c k (fun x => { x with lanes := lmod x.lanes lane (fun l =>
      { l with ser := Nat.min ppm 0xFFFF, errs := satAdd l.errs errs 0xFFFFFFFFFF, overRow := if high then l.overRow + 1 else 0 }) })
    let l := ((linkAt c k).lanes[lane]?).getD Lane.reset
    if l.overRow ≥ 3 && !l.failed then laneFail c k lane else c

/-- The twin SerDes power down after DEPART or PFAULT (R201). -/
def departDown (c : Ctl) : Ctl :=
  if !c.twin.holding then c
  else
    let c := streamsDrop (domStop c ((List.range 4).map (· + 0x30)))
    let c := (List.range 4).foldl (fun c k => if (linkAt c k).state == .disabled then c else linkDown c k .disabled 6) c
    onTwin c (fun t => { t with holding := false })

/-- LANE_SER_WINDOW (R202). -/
def execLaneSerWindow (tl lane : Fin 4) (errs ppm : Nat) (s : State) : Host.Outcome State Fault Refusal :=
  onDev s (fun d => afterLink { d with ctl := laneWindow d.ctl tl lane errs ppm })

/-- LINK_LOST_TIMEOUT (R193). -/
def execLinkLostTimeout (tl : Fin 4) (s : State) : Host.Outcome State Fault Refusal :=
  onDev s (fun d => afterLink { d with ctl := linkLost d.ctl tl 1 })

/-- LINK_RESET (R206). -/
def execLinkReset (ini : Byte) (tl : Fin 4) (s : State) : Host.Outcome State Fault Refusal :=
  onDev s (fun d => 
    afterLink { d with ctl := regWrite d.ctl ini.toNat (0x300000 + tl * 0x10000) 8 (fun c => linkResetOp c tl) })

/-- DEPART_HOLD_EXPIRY (R201). -/
def execDepartHoldExpiry (s : State) : Host.Outcome State Fault Refusal :=
  onCtl s (fun c => departDown c)

/-- DEPART_WAIT_EXPIRY (R200). -/
def execDepartWaitExpiry (s : State) : Host.Outcome State Fault Refusal := onDev s departEnd

/-- DATA_FLIT (R176 to R178, R197). -/
def execDataFlit (tl : Fin 4) (hdr : Word) (slots : List Slot) (crc : Word) (corrected uncorr : Nat) (s : State) : Host.Outcome State Fault Refusal :=
  onDev s (fun d => flitIn d tl hdr slots crc corrected uncorr)

/-- CTRL_IDLE (R179, R197): its FACK frees the replay buffer. -/
def execCtrlIdle (tl : Fin 4) (fack : BitVec 12) (s : State) : Host.Outcome State Fault Refusal :=
  onCtl s (fun c => if (linkAt c tl).state == .active then txPump (fackIn c tl fack.toNat) tl else c)

/-- RETRY_REQ (R197, R198). -/
def execRetryReq (tl : Fin 4) (fack expected : BitVec 12) (s : State) : Host.Outcome State Fault Refusal :=
  onCtl s (fun c => retryIn c tl fack.toNat expected.toNat)

/-- RETRY_REQ_REPEAT (R197). -/
def execRetryReqRepeat (tl : Fin 4) (s : State) : Host.Outcome State Fault Refusal :=
  onCtl s (fun c => if (linkAt c tl).state == .active && (linkAt c tl).awaiting && !c.twin.holding then retryOut c tl else c)

/-- INIT (R174, R175). -/
def execCtrlInit (tl : Fin 4) (f : InitFields) (s : State) : Host.Outcome State Fault Refusal :=
  onDev s (fun d => afterLink (initIn d tl f))

/-- INIT_ACK (R174). -/
def execInitAck (tl : Fin 4) (f : InitFields) (s : State) : Host.Outcome State Fault Refusal :=
  onDev s (fun d => afterLink (initAckIn d tl f))

/-- HEARTBEAT_SEND (R199). -/
def execHeartbeatSend (tl : Fin 4) (s : State) : Host.Outcome State Fault Refusal :=
  onCtl s (fun c => heartbeatOut c tl)

/-- NOP (R180). -/
def execFehelNop (tl : Fin 4) (s : State) : Host.Outcome State Fault Refusal :=
  onDev s (fun d => 
    msgIn d tl (.nop) .clean)

/-- HEARTBEAT (R199). -/
def execHeartbeat (tl : Fin 4) (st rxUp : BitVec 4) (epoch count : BitVec 16) (dbEff : Byte) (restoring : Bool) (s : State) : Host.Outcome State Fault Refusal :=
  onDev s (fun d => 
    msgIn d tl (.heartbeat st.toNat rxUp.toNat epoch.toNat count.toNat dbEff.toNat restoring) .clean)

/-- ACK (R189). -/
def execAck (tl : Fin 4) (space : Space) (tag : Tag) (delayNs : BitVec 32) (stall : Bool) (s : State) : Host.Outcome State Fault Refusal :=
  onDev s (fun d => 
    msgIn d tl (.ack space tag delayNs.toNat stall) .clean)

/-- STALE (R190, R211). -/
def execStale (tl : Fin 4) (space : Space) (homeHere : Bool) (hgen : BitVec 16) (tag : Tag) (haddr : BitVec 46) (init : Byte) (s : State) : Host.Outcome State Fault Refusal :=
  onDev s (fun d => 
    msgIn d tl (.stale space homeHere hgen.toNat tag haddr.toNat init.toNat) .clean)

/-- DEPART (R200). -/
def execDepart (tl : Fin 4) (cause : Byte) (epoch : BitVec 16) (s : State) : Host.Outcome State Fault Refusal :=
  onDev s (fun d => 
    msgIn d tl (.depart cause.toNat epoch.toNat) .clean)

/-- PFAULT (R200). -/
def execPfault (tl : Fin 4) (epoch : BitVec 16) (source : BitVec 10) (kind : BitVec 6) (s : State) : Host.Outcome State Fault Refusal :=
  onDev s (fun d => 
    msgIn d tl (.pfault epoch.toNat source.toNat kind.toNat) .clean)

/-- MIR_WR64 (R45, R188). -/
def execMirWr64 (tl : Fin 4) (poison : Bool) (hgen : BitVec 16) (tag : Tag) (haddr : BitVec 46) (init : Byte) (data : Line) (s : State) : Host.Outcome State Fault Refusal :=
  onDev s (fun d => 
    msgIn d tl (.mirWr64 poison hgen.toNat tag haddr.toNat init.toNat data) .clean)

/-- MIR_WR256 (R45, R188). -/
def execMirWr256 (tl : Fin 4) (poison : BitVec 4) (hgen : BitVec 16) (tag : Tag) (haddr : BitVec 46) (init : Byte) (data : Riser) (s : State) : Host.Outcome State Fault Refusal :=
  onDev s (fun d => 
    msgIn d tl (.mirWr256 poison hgen.toNat tag haddr.toNat init.toNat data) .clean)

/-- JRN_WR (R346): up to 16 units of 16 B. -/
def execJrnWr (tl : Fin 4) (fgen : BitVec 16) (tag : Tag) (joff : BitVec 24) (slot init : Byte) (bytes : List Byte) (s : State) : Host.Outcome State Fault Refusal :=
  onDev s (fun d => 
    msgIn d tl (.jrnWr fgen.toNat tag joff.toNat slot.toNat init.toNat (((bytes.take 256).length + 15) / 16) (BitVec.ofNat 2048 (ofBytes (bytes.take 256)))) .clean)

/-- JRN_END (R346, R347). -/
def execJrnEnd (tl : Fin 4) (fgen : BitVec 16) (tag : Tag) (jlen : BitVec 24) (slot : Byte) (segs : BitVec 10) (s : State) : Host.Outcome State Fault Refusal :=
  onDev s (fun d => 
    msgIn d tl (.jrnEnd fgen.toNat tag jlen.toNat slot.toNat segs.toNat) .clean)

/-- JRN_DONE (R345). -/
def execJrnDone (tl : Fin 4) (fgen : BitVec 16) (tag : Tag) (slot : Byte) (s : State) : Host.Outcome State Fault Refusal :=
  onDev s (fun d => 
    msgIn d tl (.jrnDone fgen.toNat tag slot.toNat) .clean)

/-- BARRIER_MIR (R194). -/
def execBarrierMir (tl : Fin 4) (mask : BitVec 4) (epoch : Byte) (s : State) : Host.Outcome State Fault Refusal :=
  onDev s (fun d => 
    msgIn d tl (.barrier 0 mask epoch.toNat) .clean)

/-- BARRIER_REQ (R194). -/
def execBarrierReq (tl : Fin 4) (mask : BitVec 4) (epoch : Byte) (s : State) : Host.Outcome State Fault Refusal :=
  onDev s (fun d => 
    msgIn d tl (.barrier 1 mask epoch.toNat) .clean)

/-- BARRIER_BLK (R194). -/
def execBarrierBlk (tl : Fin 4) (mask : BitVec 4) (epoch : Byte) (s : State) : Host.Outcome State Fault Refusal :=
  onDev s (fun d => 
    msgIn d tl (.barrier 3 mask epoch.toNat) .clean)

/-- PRX_RD (R212, R216). -/
def execPrxRd (tl : Fin 4) (snp : Snp) (mirror : Bool) (hgen : BitVec 16) (tag : Tag) (haddr : BitVec 46) (init : Byte) (ecc : EccRes) (s : State) : Host.Outcome State Fault Refusal :=
  onDev s (fun d => 
    msgIn d tl (.prxRd snp mirror hgen.toNat tag haddr.toNat init.toNat) ecc)

/-- PRX_WR64 (R212). -/
def execPrxWr64 (tl : Fin 4) (poison : Bool) (hgen : BitVec 16) (tag : Tag) (haddr : BitVec 46) (init : Byte) (data : Line) (s : State) : Host.Outcome State Fault Refusal :=
  onDev s (fun d => 
    msgIn d tl (.prxWr64 poison hgen.toNat tag haddr.toNat init.toNat data) .clean)

/-- PRX_WRPTL (R212). -/
def execPrxWrptl (tl : Fin 4) (poison : Bool) (hgen : BitVec 16) (tag : Tag) (haddr : BitVec 46) (init : Byte) (mask : Mask) (data : Line) (s : State) : Host.Outcome State Fault Refusal :=
  onDev s (fun d => 
    msgIn d tl (.prxWrPtl poison hgen.toNat tag haddr.toNat init.toNat mask data) .clean)

/-- PRX_CLN (R212). -/
def execPrxCln (tl : Fin 4) (hgen : BitVec 16) (tag : Tag) (haddr : BitVec 46) (init : Byte) (s : State) : Host.Outcome State Fault Refusal :=
  onDev s (fun d => 
    msgIn d tl (.prxCln hgen.toNat tag haddr.toNat init.toNat) .clean)

/-- BI_FWD (R214). -/
def execBiFwd (tl : Fin 4) (snp : Fin 4) (hgen : BitVec 16) (tag : Tag) (haddr : BitVec 46) (init : Byte) (s : State) : Host.Outcome State Fault Refusal :=
  onDev s (fun d => 
    msgIn d tl (.biFwd snp hgen.toNat tag haddr.toNat init.toNat) .clean)

/-- PRX_RD_DATA (R212, R213, R216). -/
def execPrxRdData (tl : Fin 4) (status grant : BitVec 2) (tag : Tag) (data : Line) (s : State) : Host.Outcome State Fault Refusal :=
  onDev s (fun d => 
    msgIn d tl (.prxRdData status.toNat grant.toNat tag data) .clean)

/-- PRX_CMP (R213, R215). -/
def execPrxCmp (tl : Fin 4) (status : BitVec 2) (tag : Tag) (s : State) : Host.Outcome State Fault Refusal :=
  onDev s (fun d => 
    msgIn d tl (.prxCmp status.toNat tag) .clean)

/-- BI_RSP (R214). -/
def execBiRsp (tl : Fin 4) (resp : Fin 3) (tag : Tag) (haddr : BitVec 46) (data : Option Line) (poison : Bool) (s : State) : Host.Outcome State Fault Refusal :=
  onDev s (fun d => 
    msgIn d tl (.biRsp resp tag haddr.toNat data poison) .clean)

/-- HELLO (R183, R217). -/
def execHello (tl : Fin 4) (tag : Tag) (hello : Hello) (s : State) : Host.Outcome State Fault Refusal :=
  onDev s (fun d => 
    msgIn d tl (.role tag (.hello hello)) .clean)

/-- HALL_ADD (R94, R95). -/
def execHallAdd (tl : Fin 4) (tag : Tag) (hall : BitVec 16) (shared : Bool) (dld : Fin 64) (side : Fin 2) (slot : Fin 64) (etag : BitVec 128) (s : State) : Host.Outcome State Fault Refusal :=
  onDev s (fun d => 
    msgIn d tl (.role tag (.hallAdd hall.toNat shared dld side slot etag.toNat)) .clean)

/-- HALL_RELEASE (R96). -/
def execHallRelease (tl : Fin 4) (tag : Tag) (hall : BitVec 16) (dld : Fin 64) (side : Fin 2) (s : State) : Host.Outcome State Fault Refusal :=
  onDev s (fun d => 
    msgIn d tl (.role tag (.hallRelease hall.toNat dld side)) .clean)

/-- HOME_XFER (R235). -/
def execHomeXfer (tl : Fin 4) (tag : Tag) (hall hgen : BitVec 16) (side : Fin 2) (s : State) : Host.Outcome State Fault Refusal :=
  onDev s (fun d => 
    msgIn d tl (.role tag (.homeXfer hall.toNat hgen.toNat side)) .clean)

/-- PROMOTED (R200). -/
def execPromoted (tl : Fin 4) (tag : Tag) (s : State) : Host.Outcome State Fault Refusal :=
  onDev s (fun d => 
    msgIn d tl (.role tag (.promoted)) .clean)

/-- RESYNC_BEGIN (R229). -/
def execResyncBegin (tl : Fin 4) (tag : Tag) (s : State) : Host.Outcome State Fault Refusal :=
  onDev s (fun d => 
    msgIn d tl (.role tag (.resyncBegin)) .clean)

/-- DIVERGED (R218). -/
def execDiverged (tl : Fin 4) (tag : Tag) (s : State) : Host.Outcome State Fault Refusal :=
  onDev s (fun d => 
    msgIn d tl (.role tag (.diverged)) .clean)

/-- LD_FENCE (R104). -/
def execLdFence (tl : Fin 4) (tag : Tag) (dld : Fin 64) (lift : Bool) (s : State) : Host.Outcome State Fault Refusal :=
  onDev s (fun d => 
    msgIn d tl (.role tag (.ldFence dld lift)) .clean)

/-- SANITIZE_MARK (R127). -/
def execSanitizeMark (tl : Fin 4) (tag : Tag) (hall : BitVec 16) (set : Bool) (s : State) : Host.Outcome State Fault Refusal :=
  onDev s (fun d => 
    msgIn d tl (.role tag (.sanitizeMark hall.toNat set)) .clean)

/-- GAL_FENCE (R161, R163). -/
def execGalFence (tl : Fin 4) (tag : Tag) (g : Fin 8) (fenced : Bool) (s : State) : Host.Outcome State Fault Refusal :=
  onDev s (fun d => 
    msgIn d tl (.role tag (.galFence g fenced)) .clean)

/-- MAP_CHUNK (R229). -/
def execMapChunk (tl : Fin 4) (tag : Tag) (first : BitVec 32) (ents : List MapEnt) (s : State) : Host.Outcome State Fault Refusal :=
  onDev s (fun d => 
    msgIn d tl (.role tag (.mapChunk first.toNat (ents.take 32))) .clean)

/-- STALE_MAP (R229): one bit a tread, 2,048 treads a chunk. -/
def execStaleMap (tl : Fin 4) (tag : Tag) (chunk : BitVec 32) (bits : BitVec 2048) (s : State) : Host.Outcome State Fault Refusal :=
  onDev s (fun d => 
    msgIn d tl (.role tag (.staleMap chunk.toNat ((maskList 2048 bits.toNat).map (fun i => chunk.toNat * 2048 + i)))) .clean)

/-- STALE_MAP_END (R229). -/
def execStaleMapEnd (tl : Fin 4) (tag : Tag) (count : BitVec 32) (full : Bool) (s : State) : Host.Outcome State Fault Refusal :=
  onDev s (fun d => 
    msgIn d tl (.role tag (.staleMapEnd count.toNat full)) .clean)

/-- ROLE_RSP (R183). -/
def execRoleRsp (tl : Fin 4) (sub : Byte) (status : BitVec 16) (tag : Tag) (hello : Option Hello) (s : State) : Host.Outcome State Fault Refusal :=
  onDev s (fun d => 
    msgIn d tl (.roleRsp sub.toNat status.toNat tag hello) .clean)

/-- RSY_DATA (R230, R237). -/
def execRsyData (tl : Fin 4) (poison : BitVec 4) (reconcile : Bool) (hgen : BitVec 16) (tag : Tag) (haddr : BitVec 46) (data : Riser) (s : State) : Host.Outcome State Fault Refusal :=
  onDev s (fun d => 
    msgIn d tl (.rsyData poison reconcile hgen.toNat tag haddr.toNat data) .clean)

/-- RSY_DONE (R229, R237). -/
def execRsyDone (tl : Fin 4) (reconcile : Bool) (tag : Tag) (treads : BitVec 40) (s : State) : Host.Outcome State Fault Refusal :=
  onDev s (fun d => 
    msgIn d tl (.rsyDone reconcile tag treads.toNat) .clean)

end Sys2Proof.Machine
end

