-- ==== Sys2Proof/Machine/Vault.lean ====
section
/-! DEFINITION. Machine/Vault.lean: the vault: its zones and rates, the cleaner's slabs, erases, reads, compaction, checkpoints, wear and fences (R73, R79, R157, R263, R285 to R319). -/
namespace Sys2Proof.Machine

/-! ## Wear (R79, R312 to R314) -/

/-- n_pe in use. -/
def nPeUsed (v : Vlt) : Nat := if v.tlcPe != 0 then v.tlcPe else v.nPe

/-- The allowance rate a in B/s (R79). -/
def allowanceRate (v : Vlt) : Nat :=
  let d := v.tLife * 31557600 * v.fComp
  if d == 0 then 0 else nPeUsed v * archBytes v * 100 / d

/-- Bytes appended in the window (R313). -/
def windowBytes (v : Vlt) : Nat := v.buckets.foldl (fun n b => n + b) 0

/-- The cleaner is held to the allowance (R79). -/
def paceSet (c : Ctl) : Ctl :=
  { c with budget := { c.budget with wearPaced := allowanceRate c.vlt != 0 && decide (windowBytes c.vlt ≥ 86400 * allowanceRate c.vlt) } }

/-- Appended bytes are charged (R313). -/
def chargeAppend (c : Ctl) (n : Nat) : Ctl :=
  let t := now c
  paceSet (onVlt c (fun v => { v with
    buckets := lmod v.buckets 0 (fun b => b + n), ckptBytes := v.ckptBytes + n,
    appends := v.appends.filter (fun x => within x.1 t 65536) ++ [(t, n)] }))

/-- Archive blocks in the block table that are closed. -/
def closedBlocks (v : Vlt) : List (Nat × Block) := v.blocks.filter (fun x => x.2.use == 1 && x.2.closed && !x.2.bad)

/-- Free archive blocks in ten-thousandths of the archive (R306). -/
def freeParts (v : Vlt) : Nat :=
  let total := lunCount v * archBlocks v
  if total == 0 then 10000 else 10000 - (closedBlocks v).length * 10000 / total

/-- The average cycle count of the archive's blocks, in hundredths (R314). -/
def archAvg (v : Vlt) : Nat :=
  let total := lunCount v * archBlocks v
  let extra := v.blocks.foldl (fun n x => if x.2.use == 1 then n + (x.2.pe - 1) else n) 0
  if total == 0 then 0 else 100 * (total + extra) / total

/-- The largest overlay of a gallery in hundredths of LOG_MAX (R305, R306). -/
def logPct (c : Ctl) : Nat :=
  let sizes := (List.range 8).map (fun g => (c.vlt.log.filter (fun x => galOf c (x.1 * 256) == g)).length * 256)
  let m := sizes.foldl Nat.max 0
  if c.vlt.logMax == 0 then 0 else m * 100 / (c.vlt.logMax * 2 ^ 30)

/-- ARCH_FULL and WEAR_HIGH follow what they report (R306, R314). -/
def wearConds (c : Ctl) : Ctl :=
  let c := setCond c 0x267 0 0 (decide (freeParts c.vlt < 50))
  setCond c 0x25F 0 0 (nPeUsed c.vlt != 0 && decide (archAvg c.vlt * 10 ≥ nPeUsed c.vlt * 900))

/-! ## Blocks (R312, R314, R315, R319) -/

/-- A block is erase-incomplete (R319): it is erased again before any use. -/
def eraseRedo (c : Ctl) (k : Nat) : Ctl :=
  let c := onVlt (eraseAdd c k) (fun v => { v with redone := satInc v.redone 0xFFFFFFFF })
  raiseAt c 0x24F 0 (vaddrK c k) 0xFF 0

/-- A spare of the LUN goes into use; below 16 of them SPARE_LOW is raised (R315). -/
def spareTake (c : Ctl) (l use : Nat) : Ctl :=
  let k := spareKey c.vlt l
  let c := onLun (onBlock c k (fun b => { b with use := use })) l (fun x => { x with spares := x.spares - 1 })
  if (lunAt c.vlt l).spares < 16 then beginCond c 0x257 0 (vaddrK c k) else c

/-! ## The record area (R252, R294) -/

/-- The record area as first initialisation lays it out: a block on LUN indexes 0 and 8 for copy A, on 7 and 15 for copy B (R252, R290). -/
def recAreaFresh (v : Vlt) : List RecBlk := [0, 8, 7, 15].map (fun l => { key := physOf v (blockKey l (landBlocks v + sysBlocks l)), page := 0 })

def recBlkAt (v : Vlt) (i : Nat) : RecBlk := (v.recArea[i]?).getD (((recAreaFresh v)[i]?).getD { key := 0, page := 0 })

/-- The block that a copy writes to: copy 0 is A, copy 1 is B. -/
def recCur (v : Vlt) (copy : Nat) : Nat := 2 * copy + b2n (if copy == 0 then v.recCurA else v.recCurB)

def onRecBlk (c : Ctl) (i : Nat) (f : RecBlk → RecBlk) : Ctl :=
  onVlt c (fun v => { v with recArea := (List.range 4).map (fun j => if j == i then f (recBlkAt v j) else recBlkAt v j) })

/-- The LUNs of the channels that a replacement is sought on (R294): the block's own channel unless it is fenced or has no spare, then the
nearest that holds no other record-area block, upward for copy A and downward for copy B. -/
def recSpareLun (c : Ctl) (i : Nat) : Option Nat :=
  let v := c.vlt
  let ch := (recBlkAt v i).key / 65536 % 16
  let others := ((List.range 4).filter (fun j => j != i)).map (fun j => (recBlkAt v j).key / 65536 % 16)
  let away := if i < 2 then (List.range (15 - ch)).map (fun n => ch + 1 + n) else (List.range ch).map (fun n => ch - 1 - n)
  let free (x : Nat) : Option Nat := (List.range (lunCount v)).find? (fun l => l % 16 == x && !lunFenced c l && (lunAt v l).spares != 0)
  (ch :: away.filter (fun x => !others.contains x)).findSome? free

/-- The VAULT record names the record area's blocks as they are (R294). -/
def recAreaSet (c : Ctl) : Ctl :=
  match recOf c 0x01 with
  | some (.vault r) =>
    let keys := (List.range 4).map (fun i => (recBlkAt c.vlt i).key)
    if r.recArea == keys then c else recSync c 0x01 (.vault { r with recArea := keys })
  | _ => c

/-- A record-area block is replaced (R294). Its pages go along when they can still be read (R315). -/
def recReplace (c : Ctl) (i : Nat) : Ctl :=
  match recSpareLun c i with
  | some l =>
    let old := recBlkAt c.vlt i
    let k := spareKey c.vlt l
    let keep := !lunFenced c (old.key / 65536)
    let c := onRecBlk (spareTake c l 4) i (fun b => { key := k, page := if keep then b.page else 0 })
    recAreaSet (onSvr c (fun s => { s with saves := s.saves.map (fun r =>
      { r with blkA := if r.blkA == old.key && keep then k else r.blkA, blkB := if r.blkB == old.key && keep then k else r.blkB,
               copyA := r.copyA && (keep || r.blkA != old.key), copyB := r.copyB && (keep || r.blkB != old.key) }) }))
  | none => c

/-- Record-area blocks on fenced LUNs are replaced (R294). -/
def recAreaMend (c : Ctl) : Ctl :=
  (List.range 4).foldl (fun c i => if lunFenced c ((recBlkAt c.vlt i).key / 65536) then recReplace c i else c) c

/-- The other block of a copy's pair is erased and becomes current (R252); at the endurance of SLC mode it is replaced first (R294). -/
def recTurn (c : Ctl) (copy : Nat) : Ctl :=
  let i := 4 * copy + 1 - recCur c.vlt copy
  let c := if (blockAt c.vlt (recBlkAt c.vlt i).key).pe ≥ c.vlt.slcPe then recReplace c i else c
  let k := (recBlkAt c.vlt i).key
  let c := intentSet (onVlt c (fun v => { v with esn := v.esn + 1 })) c.vlt.batch
  let c := onBlock c k (fun b => { b with pe := b.pe + 1, esn := c.vlt.esn, headerOk := true, time := 0, erased := now c })
  let c := onRecBlk c i (fun b => { b with page := 0 })
  let c := onVlt c (fun v => if copy == 0 then { v with recCurA := !v.recCurA } else { v with recCurB := !v.recCurB })
  onSvr c (fun s => { s with saves := s.saves.map (fun r =>
    { r with copyA := r.copyA && (copy != 0 || r.blkA != k), copyB := r.copyB && (copy == 0 || r.blkB != k) }) })

/-- A copy of the save record takes the next free page of its current block (R252). -/
def recPage (c : Ctl) (copy : Nat) : Ctl :=
  let c := if (recBlkAt c.vlt (recCur c.vlt copy)).page ≥ slcPages c.vlt then recTurn c copy else c
  onRecBlk c (recCur c.vlt copy) (fun b => { b with page := b.page + 1 })

/-- The block where a copy of the save record was written last, and whether it can be read. -/
def recHome (c : Ctl) (copy : Nat) : Nat := (recBlkAt c.vlt (recCur c.vlt copy)).key
def recWhole (c : Ctl) (copy : Nat) : Bool := !lunFenced c (recHome c copy / 65536)

/-- A block is retired as grown-bad and a spare of its LUN takes its role (R315); a record-area block is replaced under R294. -/
def retireBlock (c : Ctl) (k : Nat) : Ctl :=
  let l := k / 65536
  if (blockAt c.vlt k).bad then c
  else
    let use := (blockAt c.vlt k).use
    let c := onBlock c k (fun b => { b with bad := true, refresh := true, closed := true })
    let c := onVlt c (fun v => { v with badGrown := v.badGrown + 1 })
    let c := onLun c l (fun x => { x with bad := x.bad + 1, openBlock := if x.openBlock == some (k % 65536) then none else x.openBlock,
                                          openWl := if x.openBlock == some (k % 65536) then 0 else x.openWl })
    match (List.range 4).find? (fun i => (recBlkAt c.vlt i).key == k) with
    | some i => recReplace c i
    | none =>
      if (lunAt c.vlt l).spares == 0 then raiseAt c (srcVch (l % 16) 4) 0 (vaddrK c k) 0xFF 0
      else
        let c := onVlt c (fun v => { v with roles := tset v.roles (nominalOf v k) (spareKey v l) })
        spareTake c l use

/-- A free archive block of a LUN: of the archive zone, not bad, not closed, not waiting to be erased. -/
def blockFree (v : Vlt) (l b : Nat) : Bool :=
  let x := blockAt v (blockKey l b)
  !x.bad && !x.closed && (lunAt v l).openBlock != some b && !v.eraseQ.contains (blockKey l b) && !v.batch.contains (blockKey l b)

/-- The free archive block with the lowest cycle count (R314), the lowest number first; spares in the role of others come at their places (R315). -/
def blockPick (v : Vlt) (l : Nat) : Option Nat :=
  ((List.range (archBlocks v)).map (fun i => physOf v (blockKey l (archBase v l + i)) % 65536)).foldl (fun best b =>
    if blockFree v l b then
      match best with
      | some a => if (blockAt v (blockKey l b)).pe < (blockAt v (blockKey l a)).pe then some b else best
      | none => some b
    else best) none

/-- A LUN opens a log block (R304); blocks whose header is not valid are erased again first (R319). -/
def blockOpen : Nat → Ctl → Nat → Ctl
  | 0, c, _ => c
  | n + 1, c, l =>
    if (lunAt c.vlt l).openBlock.isSome then c
    else match blockPick c.vlt l with
      | some b =>
        if (blockAt c.vlt (blockKey l b)).headerOk then onLun c l (fun x => { x with openBlock := some b, openWl := 0 })
        else blockOpen n (eraseRedo c (blockKey l b)) l
      | none => c

/-! ## Slabs and wordlines (R302 to R304) -/

def Slab.blank (id g : Nat) : Slab := { id := id, gal := g, firstAsn := 0, risers := [] }

/-- The next LUN in index order that is not fenced. -/
def lunNext (c : Ctl) : Option Nat :=
  let n := lunCount c.vlt
  ((List.range n).map (fun i => (c.vlt.nextLun + i) % n)).find? (fun l => !lunFenced c l)

/-- The dirty table is frozen, and no archive append is issued (R247). -/
def dirtyFrozen (c : Ctl) : Bool := c.glb.mode == .save && !serving c

/-- A wordline of three slabs is programmed on the LUN whose turn it is, when that LUN is free (R304). -/
def wordlineGo (c : Ctl) : Ctl :=
  if c.vlt.closed.length < 3 || dirtyFrozen c then c
  else match lunNext c with
    | none => c
    | some l =>
      let c := blockOpen 8 c l
      let x := lunAt c.vlt l
      match x.openBlock, x.op with
      | some b, none =>
        let slabs := c.vlt.closed.take 3
        let c := onLun c l (fun x => { x with op := some (.wordline b slabs) })
        onVlt c (fun v => { v with closed := v.closed.drop 3, nextLun := (l + 1) % lunCount v })
      | _, _ => c

/-- A lane closes its slab: its risers take the next ASNs in order (R302, R303). -/
def slabClose (c : Ctl) (g : Nat) : Ctl :=
  match if dirtyFrozen c then none else tget c.vlt.openSlab g with
  | some s =>
    wordlineGo (onVlt c (fun v => { v with
      openSlab := tdel v.openSlab g, closed := v.closed ++ [{ s with firstAsn := v.nextAsn }], nextAsn := v.nextAsn + s.risers.length }))
  | none => c

/-- The cleaner may append (R247, R306). -/
def cleanerRuns (c : Ctl) : Bool := c.vlt.mount == 2 && serving c && decide (freeParts c.vlt ≥ 50)

/-- A gallery's overlay holds all the risers that LOG_MAX allows (R305). -/
def overlayFull (c : Ctl) (g : Nat) : Bool :=
  decide (c.vlt.logMax * 2 ^ 22 ≤ (c.vlt.log.filter (fun x => galOf c (x.1 * 256) == g)).length)

/-- The cleaner copies a dirty riser in C slots into its tracker and its lane's slab (R29, R146, R157, R304). -/
def cleanerCopyOp (d : Dev) (g r : Nat) : Dev :=
  let c := d.ctl
  let x := galAt c g
  if cleanerRuns c && !overlayFull c g && galOf c (r * 256) == g && !x.fenced && x.dirty.contains r && !x.inFlight.any (fun f => f.riser == r)
      && !unrestored c (r / 16) && !stale c (r / 16) then
    let s := (tget c.vlt.openSlab g).getD (Slab.blank c.vlt.nextSlab g)
    let isNew := (tget c.vlt.openSlab g).isNone
    let c := onGal (bursts (wakeGal c g) g 2) g (fun y => { y with inFlight := y.inFlight ++ [{ riser := r, data := riserData d r, redirty := false, slab := s.id }] })
    let s := { s with risers := s.risers ++ [riserCopy d r] }
    let c := onVlt c (fun v => { v with openSlab := tset v.openSlab g s, nextSlab := if isNew then v.nextSlab + 1 else v.nextSlab })
    { d with ctl := if s.risers.length ≥ 62 then slabClose c g else c }
  else d

/-- A log copy enters the overlay when it is newer (R305). -/
def logPut (c : Ctl) (l b asn : Nat) (x : RiserCopy) : Ctl :=
  match tget c.vlt.log x.riser with
  | some y => if y.asn ≥ asn then c else onVlt c (fun v => { v with log := tset v.log x.riser { asn := asn, data := x.data, poison := x.poison, lun := l, block := b } })
  | none => onVlt c (fun v => { v with log := tset v.log x.riser { asn := asn, data := x.data, poison := x.poison, lun := l, block := b } })

/-- The risers of a list with their positions. -/
def withIndex {α : Type} (l : List α) : List (Nat × α) := (List.range l.length).zip l

/-- A checkpoint is written (R307). With it, closed blocks far below the average count are marked for levelling (R314, which gives no time for the
mark: DESIGN CHOICE, log entry 110). -/
def checkpointWrite (c : Ctl) : Ctl :=
  let avg := archAvg c.vlt
  let low (b : Block) : Bool := b.use == 1 && b.closed && 100 * b.pe + 10 * nPeUsed c.vlt < avg
  wearConds (onVlt c (fun v => { v with
    ckptSeq := v.ckptSeq + 1, ckptTime := now c, ckptBytes := 0,
    blocks := v.blocks.map (fun x => if low x.2 then (x.1, { x.2 with level := true }) else x) }))

/-- A summary follows every 256 slabs of a gallery (R307). -/
def summaryCount (c : Ctl) (g : Nat) : Ctl := onVlt c (fun v => { v with summaries := tmod v.summaries g 0 (fun n => (n + 1) % 256) })

/-- The appends of one slab are programmed (R157, R304). -/
def slabDone (c : Ctl) (l b : Nat) (s : Slab) : Ctl :=
  let c := (withIndex s.risers).foldl (fun c x => logPut c l b (s.firstAsn + x.1) x.2) c
  let x := galAt c s.gal
  let clean := if dirtyFrozen c then [] else (x.inFlight.filter (fun f => f.slab == s.id && !f.redirty)).map (fun f => f.riser)
  let c := clean.foldl clearDirty c
  let c := onGal c s.gal (fun y => { y with inFlight := y.inFlight.filter (fun f => f.slab != s.id) })
  if s.risers.isEmpty then c else summaryCount (chargeAppend c (256 * s.risers.length)) s.gal

/-- A wordline's program ends (R157, R304, R315). -/
def programDone (d : Dev) (l : Nat) (pass : Bool) : Dev :=
  let c := d.ctl
  match (lunAt c.vlt l).op with
  | some (.wordline b slabs) =>
    let k := blockKey l b
    let c := onLun c l (fun x => { x with op := none, openWl := x.openWl + 1 })
    let c := onBlock c k (fun y => { y with time := now c })
    let full := decide ((lunAt c.vlt l).openWl + 1 ≥ c.vlt.wordlines)
    let c := if full then onBlock (onLun c l (fun x => { x with openBlock := none, openWl := 0 })) k (fun y => { y with closed := true }) else c
    let c := if pass then ackNews (slabs.foldl (fun c s => slabDone c l b s) c)
      else
        let c := onVch c (l % 16) (fun x => { x with progFail := satInc x.progFail 0xFFFF })
        let c := raiseAt c (srcVch (l % 16) 0) 0 (vaddrK c k) 0xFF 0
        let c := slabs.foldl (fun c s => onGal c s.gal (fun y => { y with inFlight := y.inFlight.filter (fun f => f.slab != s.id) })) c
        retireBlock c k
    let c := if c.vlt.ckptBytes ≥ 2 ^ 32 then checkpointWrite c else wearConds c
    wake { d with ctl := wordlineGo c }
  | _ => d

/-! ## Erases (R263, R317 to R319) -/

/-- In SERVICE the next stripe goes to be erased while the reserve is short (R263). -/
def landQueue (c : Ctl) : Ctl :=
  if c.glb.mode.service && decide (c.svr.reserve < reserveTarget c) && c.svr.landStripe.isNone && stripeFree c then
    (stripeBlocks c (stripeNext c)).foldl eraseAdd (onSvr c (fun s => { s with landStripe := some (stripeNext c) }))
  else c

/-- The reserve grows when every block of the stripe is erased (R263, R293). -/
def landCheck (c : Ctl) : Ctl :=
  match c.svr.landStripe with
  | some b =>
    if (stripeBlocks c b).any (fun k => c.vlt.eraseQ.contains k || c.vlt.batch.contains k) then c
    else onSvr c (fun s => { s with landStripe := none, reserve := s.reserve + stripeUnits c.vlt })
  | none => c

/-- ERASE_BATCH_ISSUE (R318): the intent is committed, then up to 255 waiting blocks are erased; only one batch is outstanding. -/
def eraseIssue (c : Ctl) : Ctl :=
  if c.vlt.mount != 2 || !(c.glb.mode == .start || c.glb.mode.service) || !c.vlt.batch.isEmpty || c.vlt.eraseQ.isEmpty then c
  else
    let b := c.vlt.eraseQ.take 255
    let c := onVlt c (fun v => { v with batch := b, eraseQ := v.eraseQ.drop 255, esn := v.esn + 1 })
    intentSet c b

/-- With no other block waiting, the landing's next stripe is queued first (R263). -/
def eraseTurn (c : Ctl) : Ctl := if c.vlt.mount == 2 && c.vlt.batch.isEmpty && c.vlt.eraseQ.isEmpty then eraseIssue (landQueue (landShort c)) else eraseIssue c

/-- The next block of the batch on a LUN. -/
def eraseNext (c : Ctl) (l : Nat) : Option Nat := c.vlt.batch.find? (fun k => k / 65536 == l)

/-- An erase ends and its header is programmed (R315, R317, R318). From a cut-off on, an erase is suspended until the next mount (R311). -/
def eraseDone (c : Ctl) (l : Nat) (pass : Bool) : Ctl :=
  match if c.vlt.mount == 2 && (c.glb.mode == .start || serving c) then eraseNext c l else none with
  | none => c
  | some k =>
    let c := onVlt c (fun v => { v with batch := delFirst (fun x => x == k) v.batch })
    let c := if pass then
        onBlock c k (fun b => { b with pe := b.pe + 1, esn := c.vlt.esn, closed := false, refresh := false, level := false, headerOk := true, time := 0, erased := now c })
      else
        let c := onVch c (l % 16) (fun x => { x with eraseFail := satInc x.eraseFail 0xFFFF })
        retireBlock (raiseAt c (srcVch (l % 16) 1) 0 (vaddrK c k) 0xFF 0) k
    let c := if c.vlt.batch.isEmpty then intentSet c [] else c
    wordlineGo (wearConds (landCheck c))

/-! ## Reads (R298 to R301, R310) -/

/-- A codeword that was hard to read marks its block for refresh, once (R300). -/
def refreshMark (c : Ctl) (k : Nat) : Ctl :=
  if (blockAt c.vlt k).refresh then c
  else raiseAt (onBlock c k (fun b => { b with refresh := true })) (srcVch (k / 65536 % 16) 2) 0 (vaddrK c k) 0xFF 0

/-- A codeword read ends (R298, R300, R301, R315). No hard decode takes more than RETRY_STEPS retry steps. -/
def cwRead (c : Ctl) (l b : Nat) (res : CwRes) (access : Nat) : Ctl :=
  let k := blockKey l b
  match res with
  | .hard 0 => c
  | .hard n =>
    if n > c.vlt.retrySteps then c
    else
      let c := onVlt c (fun v => { v with retried := satInc v.retried 0xFFFFFFFF })
      if n ≥ c.vlt.refreshSteps then refreshMark c k else c
  | .soft =>
    let c := refreshMark (onVlt c (fun v => { v with soft := satInc v.soft 0xFFFFFFFF })) k
    if within (blockAt c.vlt k).time (now c) (30 * 86400 * 65536) then retireBlock c k else c
  | .uncorrectable =>
    let c := onVch c (l % 16) (fun x => { x with ue := satInc x.ue 0xFFFF })
    raiseAt c (srcVch (l % 16) 3) 0 (vaddrK c k) 0xFF access

/-- The vault answers reads. -/
def vaultReads (c : Ctl) : Bool := c.vlt.mount == 2 && (c.glb.mode == .start || c.glb.mode.service)

/-! ## Compaction (R301, R306) -/

/-- A live save holds a riser of the tread (R306). -/
def inLiveSave (c : Ctl) (t : Nat) : Bool := (liveSaves c).any (fun s => s.data.any (fun x => x.riser / 16 == t))

/-- The treads with valid content in a block, and its valid codewords: one of each overlay riser and sixteen of a base (R306). -/
def treadsIn (v : Vlt) (k : Nat) : List Nat :=
  (v.bases.filter (fun x => blockKey x.2.lun x.2.block == k)).map (fun x => x.1)
    ++ (v.log.filter (fun x => blockKey x.2.lun x.2.block == k)).map (fun x => x.1 / 16)
def validIn (v : Vlt) (k : Nat) : Nat :=
  16 * (v.bases.filter (fun x => blockKey x.2.lun x.2.block == k)).length + (v.log.filter (fun x => blockKey x.2.lun x.2.block == k)).length

/-- A block marked for refresh or levelling that still has valid content (R300, R306, R314). -/
def marked (v : Vlt) (x : Nat × Block) : Bool := x.2.use == 1 && (x.2.refresh || x.2.level) && validIn v x.1 != 0

/-- Compaction is started (R306). -/
def compactDue (c : Ctl) : Bool :=
  decide (freeParts c.vlt < 200) || decide (logPct c > 75) || c.vlt.blocks.any (marked c.vlt)

/-- A block that compaction passes over: it holds a tread of a live save (R306). -/
def victimHeld (c : Ctl) (k : Nat) : Bool := (treadsIn c.vlt k).any (inLiveSave c)

/-- The victim (R306): the marked block, otherwise the closed block with the fewest valid codewords; of several the lowest (DESIGN CHOICE, log entry
124). -/
def victim (c : Ctl) : Option Nat :=
  let ok := c.vlt.blocks.filter (fun x => x.2.use == 1 && validIn c.vlt x.1 != 0 && !victimHeld c x.1)
  match ok.find? (marked c.vlt) with
  | some x => some x.1
  | none => (bestBy (fun a b : Nat × Block => decide (validIn c.vlt a.1 < validIn c.vlt b.1)) (ok.filter (fun x => x.2.closed))).map (fun x => x.1)

/-- The tread has valid content in the victim. -/
def inVictim (c : Ctl) (t : Nat) : Bool :=
  match victim c with
  | some k => (treadsIn c.vlt k).contains t
  | none => false

/-- A closed block without valid content goes to the erase queue; a bad one stays out of use. -/
def blocksSweep (c : Ctl) : Ctl :=
  let usedBy (k : Nat) : Bool := c.vlt.log.any (fun x => blockKey x.2.lun x.2.block == k) || c.vlt.bases.any (fun x => blockKey x.2.lun x.2.block == k)
  (closedBlocks c.vlt).foldl (fun c x => if usedBy x.1 then c else eraseAdd c x.1) c

/-- The base of a tread is written anew (R306): its ASN is reserved, its copies are read, and overlay entries below that ASN go. -/
def baseWrite (d : Dev) (t : Nat) (poisoned : List Nat) : Dev :=
  let c := d.ctl
  match lunNext c with
  | none => d
  | some l =>
    let c := blockOpen 8 c l
    match (lunAt c.vlt l).openBlock with
    | none => { d with ctl := c }
    | some b =>
      let asn := c.vlt.nextAsn
      let copyOf (i : Nat) : RiserCopy :=
        let r := 16 * t + i
        match archCopy c r with
        | some (_, v, p) => { riser := r, data := v, poison := if poisoned.contains i then 15 else p }
        | none => { riser := r, data := 0, poison := if poisoned.contains i then 15 else 0 }
      let fromDram (i : Nat) : RiserCopy := if poisoned.contains i then copyOf i else riserCopy d (16 * t + i)
      let clean := !unrestored c t && (List.range 16).all (fun i => !isDirty c (t * 4096 + 256 * i))
      let c := if clean then fillTouch c t else c
      let base : Base := { asn := asn, risers := (List.range 16).map (if clean then fromDram else copyOf), lun := l, block := b }
      let c := onVlt c (fun v => { v with
        nextAsn := asn + 1, bases := tset v.bases t base, log := v.log.filter (fun x => x.1 / 16 != t || x.2.asn ≥ asn),
        compacts := v.compacts.filter (fun x => within x.1 (now c) 65536) ++ [(now c, 4096)] })
      { d with ctl := blocksSweep c }

/-- COMPACTION_TREAD (R301, R306): the codewords of the risers named cannot be read. -/
def compactTread (d : Dev) (t : Nat) (bad : List Nat) : Dev :=
  let c := d.ctl
  let tracked := c.gals.any (fun g => g.inFlight.any (fun f => f.riser / 16 == t))
  if c.vlt.mount != 2 || !c.glb.mode.service || !inVictim c t || inLiveSave c t || tracked || !compactDue c then d
  else
    let clean := !unrestored c t && !stale c t && (List.range 16).all (fun i => !isDirty c (t * 4096 + 256 * i))
    if bad.isEmpty || clean then baseWrite d t []
    else if mirrored c (galOfTread c t) then { d with ctl := bad.foldl (fun c i => pullRiser c (16 * t + i)) c }
    else
      let m := bad.foldl (fun m i => (List.range 4).foldl (fun m j => setPoison m (t * 4096 + 256 * i + 64 * j) true) m) d.mem
      baseWrite { ctl := r63Now c (t * 4096), mem := m } t bad

/-! ## Fences (R311, R316) -/

/-- The LUN of the copy of a riser that R270 chooses; none for a riser with no copy. -/
def copyLun (c : Ctl) (r : Nat) : Option Nat :=
  let l := tget c.vlt.log r
  let b := tget c.vlt.bases (r / 16)
  let arch : Option (Nat × Nat) := match l, b with
    | some x, some y => if x.asn ≥ y.asn then some (x.asn, x.lun) else some (y.asn, y.lun)
    | some x, none => some (x.asn, x.lun)
    | none, some y => some (y.asn, y.lun)
    | none, none => none
  (liveSaves c).foldl (fun acc s =>
    if s.data.any (fun x => x.riser == r) && (arch.map (fun a => decide (s.asnCut > a.1))).getD true then
      ((s.placed.find? (fun u => u.2.contains r)).map (fun u => u.1 % lunCount c.vlt)).or acc
    else acc) (arch.map (fun a => a.2))

/-- Every riser with a copy somewhere. -/
def copyRisers (c : Ctl) : List Nat :=
  let logs : List Nat := c.vlt.log.map (fun x => x.1)
  let bases : List Nat := c.vlt.bases.flatMap (fun x => (List.range 16).map (fun i => 16 * x.1 + i))
  let saved : List Nat := (liveSaves c).flatMap (fun s => s.data.map (fun x => x.riser))
  (logs ++ bases ++ saved).eraseDups

/-- Rescue rewrites a restored clean tread from DRAM into the archive, charged to the allowance (R313, R316). -/
def rescueTread (d : Dev) (t : Nat) : Dev :=
  match lunNext d.ctl with
  | none => d
  | some l =>
    let c := blockOpen 8 d.ctl l
    let b := (lunAt c.vlt l).openBlock.getD 0
    let asn := c.vlt.nextAsn
    let c := onVlt (fillTouch c t) (fun v => { v with nextAsn := asn + 16, bases := tdel v.bases t })
    let c := (List.range 16).foldl (fun c i => onVlt c (fun v =>
      let x := riserCopy d (16 * t + i)
      { v with log := tset v.log x.riser { asn := asn + i, data := x.data, poison := x.poison, lun := l, block := b } })) c
    { d with ctl := chargeAppend c 4096 }

/-- What the fence of some LUNs brings (R316). -/
def lunsFenced (d : Dev) (ls : List Nat) : Dev :=
  let c := d.ctl
  let hit := (copyRisers c).filter (fun r => (copyLun c r).any (fun l => ls.contains l))
  let slabs := ls.flatMap (fun l => match (lunAt c.vlt l).op with | some (.wordline _ s) => s | _ => [])
  let c := slabs.foldl (fun c s => onGal c s.gal (fun y => { y with inFlight := y.inFlight.filter (fun f => f.slab != s.id) })) c
  let c := ls.foldl (fun c l => onLun c l (fun x => { x with fenced := true, op := none, openBlock := none, openWl := 0 })) c
  let c := onVlt c (fun v => { v with eraseQ := v.eraseQ.filter (fun k => !ls.contains (k / 65536)), batch := v.batch.filter (fun k => !ls.contains (k / 65536)) })
  let c := landCheck (recAreaMend c)
  let treads := (hit.map (fun r => r / 16)).eraseDups
  let clean (t : Nat) : Bool := !unrestored c t && !stale c t && (List.range 16).all (fun i => !isDirty c (t * 4096 + 256 * i))
  let lost := hit.filter (fun r => unrestored c (r / 16))
  let c := onSvr c (fun s => { s with lostRisers := lost.foldl sins s.lostRisers })
  let d := (treads.filter clean).foldl rescueTread { d with ctl := c }
  { d with ctl := wordlineGo (ackNews (rSaveSet d.ctl)) }

/-- A LUN is fenced (R316). -/
def lunFenceOp (d : Dev) (l : Nat) : Dev := if (lunAt d.ctl.vlt l).fenced then d else lunsFenced d [l]

/-- A channel is fenced with all its LUNs (R316). -/
def chanFenceOp (d : Dev) (ch : Nat) : Dev :=
  lunsFenced { d with ctl := onVch d.ctl ch (fun x => { x with fenced := true, rate := 0 }) } (lunsOf d.ctl ch)

/-- The newest copy of a riser lies in a live save (R270). -/
def fromSave (c : Ctl) (r : Nat) : Bool := (newestSaveOf c r).isSome

/-- The landing unit that holds a riser's copy; 0 for a riser in no save. -/
def unitOfRiser (c : Ctl) (r : Nat) : Nat :=
  (((liveSaves c).flatMap (fun s => s.placed)).findRev? (fun u => u.2.contains r)).elim 0 (fun u => u.1)

/-- LANDING_UE for the first of some risers whose unreadable copy lies in a landing unit, read by the restore engine (R8, R281). -/
def landingUe (c : Ctl) (rs : List Nat) : Ctl :=
  match rs.find? (fromSave c) with
  | some r => raiseAt c 0x2D2 0x02 (unitOfRiser c r) 0x52 0xB
  | none => c

/-! ## The commands -/

/-- CLEANER_COPY (R157, R304). -/
def execCleanerCopy (g : Fin 8) (riser : BitVec 38) (s : State) : Host.Outcome State Fault Refusal :=
  onDev s (fun d => cleanerCopyOp d g riser.toNat)

/-- SLAB_CLOSE_TIMEOUT (R304). -/
def execSlabCloseTimeout (g : Fin 8) (s : State) : Host.Outcome State Fault Refusal := onCtl s (fun c => slabClose c g)

/-- WORDLINE_FILL_TIMEOUT (R304): empty slabs complete the wordline. R304 gives their COUNT only; they carry gallery 0 and ASN 0 (DESIGN CHOICE, log
entry 111). -/
def execWordlineFillTimeout (s : State) : Host.Outcome State Fault Refusal :=
  onCtl s (fun c =>
    if c.vlt.closed.isEmpty || c.vlt.closed.length ≥ 3 || dirtyFrozen c then c
    else
      let n := 3 - c.vlt.closed.length
      wordlineGo (onVlt c (fun v => { v with
        closed := v.closed ++ (List.range n).map (fun i => Slab.blank (v.nextSlab + i) 0), nextSlab := v.nextSlab + n })))

/-- VAULT_PROGRAM_DONE (R157, R304, R315). -/
def execVaultProgramDone (lun : Fin 512) (pass : Bool) (s : State) : Host.Outcome State Fault Refusal := onDev s (fun d => programDone d lun pass)

/-- VAULT_ERASE_DONE (R315, R317, R318). -/
def execVaultEraseDone (lun : Fin 512) (pass : Bool) (s : State) : Host.Outcome State Fault Refusal := onCtl s (fun c => eraseDone c lun pass)

/-- ERASE_BATCH_ISSUE (R318). -/
def execEraseBatchIssue (s : State) : Host.Outcome State Fault Refusal := onCtl s eraseTurn

/-- VAULT_CODEWORD_READ_DONE (R298, R300, R301): an uncorrectable copy of a riser not yet restored is lost (R281). -/
def execVaultCodewordReadDone (lun : Fin 512) (block : BitVec 16) (res : CwRes) (riser : BitVec 38) (s : State) : Host.Outcome State Fault Refusal :=
  onCtl s (fun c =>
    if !vaultReads c || lunFenced c lun || lunCount c.vlt ≤ lun.val then c
    else
      let c := cwRead c lun block.toNat res 0xB
      if res == .uncorrectable && unrestored c (riser.toNat / 16) && copyLun c riser.toNat == some lun.val then
        landingUe (onSvr c (fun s => { s with lostRisers := sins s.lostRisers riser.toNat })) [riser.toNat]
      else c)

/-- LUN_READY_TIMEOUT (R311): the LUN is fenced with LUN_FAIL. -/
def execLunReadyTimeout (lun : Fin 512) (s : State) : Host.Outcome State Fault Refusal :=
  onCtl s (fun c =>
    let l := lun.val
    let busy := (lunAt c.vlt l).op.isSome || (eraseNext c l).isSome
    if c.vlt.mount == 2 && busy && !lunFenced c l then
      let b := match (lunAt c.vlt l).op, eraseNext c l with
        | some (.wordline b _), _ => b
        | none, some k => k % 65536
        | none, none => 0
      raiseAt c (srcVch (l % 16) 4) 0 (vaddrK c (blockKey l b)) 0xFF 0
    else c)

/-- BUSY_STALL_TIMEOUT (R310). -/
def execBusyStallTimeout (lun : Fin 512) (s : State) : Host.Outcome State Fault Refusal :=
  onCtl s (fun c =>
    let l := lun.val
    if c.vlt.mount == 2 && ((lunAt c.vlt l).op.isSome || (eraseNext c l).isSome) then
      let c := onVch c (l % 16) (fun x => { x with stalls := satInc x.stalls 0xFFFF })
      raiseAt c (srcVch (l % 16) 6) 0 (vaddrK c (blockKey l ((eraseNext c l).getD 0 % 65536))) 0xFF 0
    else c)

/-- VAULT_PATROL_READ (R300). -/
def execVaultPatrolRead (lun : Fin 512) (block : BitVec 16) (res : CwRes) (s : State) : Host.Outcome State Fault Refusal :=
  onCtl s (fun c => if c.vlt.mount == 2 && c.glb.mode.service && !lunFenced c lun && lun.val < lunCount c.vlt then cwRead c lun block.toNat res 0xF else c)

/-- COMPACTION_TREAD (R301, R306). -/
def execCompactionTread (tread : BitVec 34) (bad : List (Fin 16)) (s : State) : Host.Outcome State Fault Refusal :=
  onDev s (fun d => compactTread d tread.toNat (bad.map (fun i => i.val)))

/-- CHECKPOINT_TIMER (R307). -/
def execCheckpointTimer (s : State) : Host.Outcome State Fault Refusal :=
  onCtl s (fun c => if c.vlt.mount == 2 && c.glb.mode.service then checkpointWrite c else c)

/-- ALLOWANCE_BUCKET_TIMER (R313): a new bucket of 15 min begins. -/
def execAllowanceBucketTimer (s : State) : Host.Outcome State Fault Refusal :=
  onCtl s (fun c => if c.glb.mode.service then paceSet (onVlt c (fun v => { v with buckets := 0 :: v.buckets.take 95 })) else c)

end Sys2Proof.Machine
end

