-- ==== Sys2Proof/Machine/Save.lean ====
section
/-! DEFINITION. Machine/Save.lean: the cut-off, the landing, the save record with what follows it, and the restore of treads (R49 to R53, R227, R236, R245 to R262, R270 to R276, R281). -/
namespace Sys2Proof.Machine

/-! ## Restore (R271 to R275, R281) -/

/-- A partner can supply what is lost of a tread (R281). -/
def partnerSupplies (c : Ctl) (t : Nat) : Bool :=
  mirrored c (galOfTread c t) || (c.glb.mode == .start && [2, 3, 4].contains c.pair.outcome && c.pair.partner.isSome && !c.pair.refused)

/-- The sources of a tread have been read, the risers named unreadably: the tread is filled, or its lost risers are asked for (R271, R281). -/
def treadDone (d : Dev) (t : Nat) (bad : List Nat) : Dev :=
  let c := d.ctl
  let c := onSvr c (fun s => { s with lostRisers := bad.foldl (fun l i => sins l (16 * t + i)) s.lostRisers })
  let c := landingUe c (bad.map (fun i => 16 * t + i))
  let lost := lostIn c t
  if !lost.isEmpty && partnerSupplies c t then
    let c := onSvr c (fun s => { s with pulls := sins s.pulls t })
    { d with ctl := lost.foldl (fun c i => pullRiser c (16 * t + i)) c }
  else
    let d := treadFill { d with ctl := c } t []
    wake { d with ctl := saveRetire (fetchEnd d.ctl t) }

/-- DEMAND_FETCH_DONE (R272, R281). -/
def demandDone (d : Dev) (t us : Nat) (bad : List Nat) : Dev :=
  let c := d.ctl
  if (serving c || c.glb.mode == .start) && c.svr.fetches.contains t && !c.svr.pulls.contains t then
    let c := onSvr c (fun s => { s with dfCount := (s.dfCount + 1) % 2 ^ 32, dfMax := Nat.max s.dfMax (Nat.min us 0xFFFF) })
    if unrestored c t then treadDone { d with ctl := c } t bad else wake { d with ctl := fetchEnd c t }
  else d

/-- DEMAND_FETCH_DONE (R272). -/
def execDemandFetchDone (tread : BitVec 34) (us : Nat) (bad : List (Fin 16)) (s : State) : Host.Outcome State Fault Refusal :=
  onDev s (fun d => demandDone d tread.toNat us (bad.map (fun i => i.val)))

/-- The restore engine may fill this tread (R161, R273): it skips stale treads, treads on their way and fenced galleries. -/
def restorable (c : Ctl) (t : Nat) : Bool :=
  c.glb.mode.service && c.glb.restoring && t < treadCount c && unrestored c t && !stale c t && !c.svr.fetches.contains t
    && !c.svr.pulls.contains t && !galFenced c (galOfTread c t)

/-- The group of a tread in the order of R273. Group 4 is empty: the model restores every tread of the tracked metadata in step 7 of R266. -/
def restoreGroup (c : Ctl) (t : Nat) : Nat :=
  if (liveSaves c).getLast?.any (fun s => s.data.any (fun x => x.riser / 16 == t)) then 1
  else if (hallAt c (t / 262144)).mode != .unassigned then 2 else 3

/-- The treads of the device that are not restored, rising. -/
def restoreLeft (c : Ctl) : List Nat :=
  if c.svr.unrestored.all then (List.range (treadCount c)).filter (unrestored c) else c.svr.unrestored.xs

/-- The tread is the next that the restore engine takes in its gallery (R273): none of a lower group, or of its own group and a lower address, is
left there. -/
def restoreNext (c : Ctl) (t : Nat) : Bool :=
  restorable c t && !(restoreLeft c).any (fun u =>
    galOfTread c u == galOfTread c t && (restoreGroup c u < restoreGroup c t || (restoreGroup c u == restoreGroup c t && u < t)) && restorable c u)

/-- RESTORE_TREAD_DONE (R273, R275). -/
def execRestoreTreadDone (tread : BitVec 34) (bad : List (Fin 16)) (s : State) : Host.Outcome State Fault Refusal :=
  onDev s (fun d =>
    if restoreNext d.ctl tread.toNat then treadDone d tread.toNat (bad.map (fun i => i.val))
    else { d with ctl := saveRetire (restoreCheck d.ctl) })

/-! ## The tracked metadata at a start (R266 step 7, R269) -/

/-- Risers of the tracked metadata of some galleries that have a copy. -/
def metaRisers (c : Ctl) (gs : List Nat) : List Nat := (copyRisers c).filter (fun r => isMeta (256 * r) && gs.contains (galOf c (256 * r)))

/-- A riser is one of a map copy's. -/
def isMapRiser (c : Ctl) (r : Nat) : Bool := match metaUse c r with | .map _ => true | _ => false

/-- A riser of the metadata is written from its newest copy, and taken into the hall map's working copy. -/
def metaFill (d : Dev) (r : Nat) : Dev := let x := newestCopy d.ctl r; storeRiser d r x.1 x.2

/-- The tracked metadata of some galleries is restored from the vault; the map itself, where it is asked for, from G4's copy and then from G0's, so
that the latter counts where both can be read (R209). -/
def metaRestore (d : Dev) (gs : List Nat) (map : Bool) : Dev :=
  let rs := metaRisers d.ctl gs
  let d := (rs.filter (fun r => !isMapRiser d.ctl r)).foldl metaFill d
  let maps := if map then rs.filter (isMapRiser d.ctl) else []
  [4, 0].foldl (fun d g => (maps.filter (fun r => galOf d.ctl (256 * r) == g)).foldl metaFill d) d

/-- The Label Storage Areas of a gallery that returns to service are restored from the vault; its hall tables follow the working copy (R164, R209). -/
def metaReturn (d : Dev) (g : Nat) : Dev := ((metaRisers d.ctl [g]).filter (fun r => metaUse d.ctl r == .other)).foldl metaFill d

/-! ## The cut-off (R49 to R53, R247) -/

/-- Treads of home halls with a write not acknowledged or a mirror message not covered by an ACK (R236). -/
def unsettledNow (c : Ctl) : List Nat :=
  let writes := (c.reqs.filter Req.isWrite).map (fun r => treadNo r.haddr)
  let mirrors := c.twin.sent.filterMap (fun s => match s.msg with
    | .mirWr64 _ _ _ a _ _ => some (treadNo a)
    | .mirWr256 _ _ _ a _ _ => some (treadNo a)
    | _ => none)
  ((writes ++ mirrors).filter (fun t => (hallAt c (t / 262144)).home)).foldl sins []

/-- The dirty risers of a gallery that are saved (R249): those of treads that are restored and not stale. -/
def saveRisers (c : Ctl) (g : Nat) : List Nat :=
  (galAt c g).dirty.filter (fun r => !unrestored c (r / 16) && !stale c (r / 16))

/-- The risers of a DATA stream in units of 64. -/
def chunks64 : Nat → List Nat → List (List Nat)
  | 0, _ => []
  | n + 1, l => if l.isEmpty then [] else l.take 64 :: chunks64 n (l.drop 64)

/-- DATA and EXTRACT units of a gallery (R254, R255): 64 risers, and 452 entries of 64 KiB blocks. -/
def galJobs (c : Ctl) (g : Nat) : List SaveJob :=
  let rs := saveRisers c g
  let blocks := (rs.map (fun r => r / 256)).eraseDups.length
  (chunks64 rs.length rs).map (fun l => { kind := 1, gal := g, risers := l })
    ++ (plainJobs 2 ((blocks + 451) / 452)).map (fun j => { j with gal := g })

/-- A flight takes its place in ascending COMMIT_SEQ. -/
def seqInsert (f : Flight) : List Flight → List Flight
  | [] => [f]
  | g :: l => if f.commitSeq < g.commitSeq then f :: g :: l else g :: seqInsert f l

/-- The FLIGHT stream (R248): committed flights whose journal this device holds, in ascending COMMIT_SEQ. -/
def flightStream (c : Ctl) : List Flight := (c.flights.filter Flight.held).foldl (fun l f => seqInsert f l) []

/-- Every unit of the save (R248, R254, R258). -/
def saveJobs (c : Ctl) (r : SaveRec) : List SaveJob :=
  let flights := (flightStream c).flatMap (fun f => plainJobs 3 (flightUnits f))
  let map := plainJobs 4 ((8 * hallCount c + 16383) / 16384)
  let uns := plainJobs 5 ((4 * r.unsettled.length + 16383) / 16384)
  let chg := if r.changed.isSome || r.staleMap.isSome then plainJobs 6 ((treadCount c / 8 + 16383) / 16384) else []
  withUnitMap 0 (flights ++ (List.range 8).flatMap (galJobs c) ++ map ++ uns ++ chg)

/-- The ceiling in force as the save record holds it (R259): where the save began in SERVICE.SOLO, the solo DB or the SOLO ceiling above it. -/
def dbEffOf (c : Ctl) (solo : Bool) : Nat :=
  let db := Nat.max 1 (if solo then dbBase c * soloEighths c / 8 else dbBase c)
  let ramp := if solo then (c.budget.ramp.getD 0 / 2 + risersPerGib - 1) / risersPerGib else 0
  Nat.min 255 (Nat.max db ramp)

/-- The fields of the save record that the cut-off decides (R258, R259). -/
def saveRecord (c : Ctl) (r : SaveRec) : SaveRec :=
  let u := unsettledNow c
  { r with
    seq := ringValue c 1, pred := c.svr.live.getLastD 0, restoring := c.glb.restoring, asnCut := c.vlt.nextAsn, tCutoff := now c
    pairEpoch := c.pair.epoch, incomplete := (List.range 8).filter (galFenced c), dbEff := dbEffOf c (r.fromSt == 9), halls := hallCount c
    dimmGib := c.dimm.capGib, map := (List.range (hallCount c)).map (mapEntOf c), unsettled := if u.length > 16384 then [] else u
    unsettledOvf := decide (u.length > 16384), changed := c.pair.changed, soloOps := c.pair.soloOps
    staleMap := if c.pair.changed.isNone && !c.pair.stale.none (treadCount c) then some c.pair.stale else none }

/-- DEPART or PFAULT leaves on every ACTIVE link; the device holds its links up until DEPART_HOLD_EXPIRY takes them down (R51, R201). -/
def departSend (c : Ctl) (r : SaveRun) : Ctl :=
  let cause := if r.saved.cause == 0x20 then 2 else if r.saved.cause == 0x21 then 3 else 1
  let m : Msg := if r.saved.cause == 0x10 then .pfault c.pair.epoch r.source r.kind else .depart cause c.pair.epoch
  onTwin (sendAll c m) (fun t => { t with holding := true, links := t.links.map (fun x => { x with txq := x.txq.filter (fun m => msgVc m == 4) }) })

/-- Flights at the cut-off (R247, R348): committed ones are kept, and own ones whose JRN_END waits for its ACK may still commit. -/
def flightsCut (c : Ctl) : Ctl :=
  { c with flights := c.flights.filter (fun f => f.held || (f.own && (f.st == .sentEnd || f.st == .acked))) }

/-- A flight whose JRN_END the partner has acknowledged counts as committed (R247, R348). -/
def flightsCount (c : Ctl) (paired : Bool) : Ctl :=
  if !paired then { c with flights := c.flights.filter (fun f => !(f.own && f.st == .acked)) }
  else c.flights.foldl (fun c f =>
    if f.own && f.st == .acked then
      { onFlight c true f.slot (fun f => { f with st := .committed, commitSeq := c.commitSeq }) with commitSeq := c.commitSeq + 1 }
    else c) c

/-- CUT_OFF (R49 to R53, R150, R201, R236, R239, R247, R258, R341, R357): the mark caches reach their dirty tables (R156), and no append that has not
been issued is (R247). -/
def cutOff (c : Ctl) (ns : Nat) : Ctl :=
  match c.svr.run with
  | some r =>
    if c.glb.mode != .save || r.cut then c
    else
      let c := flightsCount (flightsCut c) r.saved.pairedSave
      let c := ringBump c 1
      let s := saveRecord c r.saved
      let c := if c.pair.yielding then onSvr c (fun x => { x with reportDue := (changedLds c).foldl sins x.reportDue }) else c
      let c := onSvr c (fun x => { x with run := some { r with saved := s, cut := true, jobs := saveJobs c s }, cutoffNs := Nat.min ns 0xFFFF, savePhase := 1 })
      let c := recUrgent c 0x03 (.attempt { seq := s.seq, cause := s.cause, time := s.tTrigger })
      let c := headsDown (departSend (ringsStopAll c 6) r)
      let c := { c with reqs := [], snoops := [], releases := [], tenants := [], gals := c.gals.map (fun g => { g with doze := false, dir := [], cache := [] }) }
      seqStart c .shed
  | none => c

/-- CUT_OFF (R49). -/
def execCutOff (ns : Nat) (s : State) : Host.Outcome State Fault Refusal := onCtl s (fun c => cutOff c ns)

/-! ## The landing (R248, R249, R252, R265, R293) -/

/-- The next erased unit that does not lie on a fenced LUN (R293). -/
def unitNext (c : Ctl) : Option Nat :=
  let n := lunCount c.vlt
  let u := landUnits c.vlt
  ((List.range (Nat.min n (stripeRest c + c.svr.reserve))).map (fun i => (c.svr.nextUnit + i) % u)).find? (fun k => !lunFenced c (k % n))

/-- The physical block in which a landing unit lies (R293). -/
def unitBlock (v : Vlt) (u : Nat) : Nat := physOf v (blockKey (u % lunCount v) (u / lunCount v / slcPages v))

/-- The unit counter passes a unit; the reserve shrinks by a stripe when a stripe is begun (R293). -/
def unitTake (c : Ctl) (u : Nat) : Ctl :=
  let s := stripeUnits c.vlt
  let fresh := stripeRest c ≤ (u + landUnits c.vlt - c.svr.nextUnit) % landUnits c.vlt
  onSvr c (fun x => { x with nextUnit := (u + 1) % landUnits c.vlt, reserve := if fresh then x.reserve - s else x.reserve })

/-- SAVE_PHASE before a job of this kind. -/
def phaseOf (j : Option SaveJob) : Nat :=
  match j with
  | none => 6
  | some j => if j.kind == 3 then 2 else if j.kind ≤ 2 then 3 else if j.kind == 7 then 5 else 4

/-- A riser as the save takes it: uncorrectable lines carry poison (R116, R265). -/
def savedCopy (d : Dev) (bad : List Nat) (r : Nat) : RiserCopy :=
  let x := riserCopy d r
  { x with poison := (List.range 4).foldl (fun p i => if bad.contains (4 * r + i) then p ||| BitVec.twoPow 4 i else p) x.poison }

/-- A landing unit is programmed, or fails and is written again under the next number (R248, R265, R315). -/
def unitDone (d : Dev) (pass : Bool) (bad : List Nat) : Dev :=
  let c := d.ctl
  match c.svr.run with
  | none => d
  | some r =>
    match r.jobs, unitNext c with
    | j :: rest, some u =>
      if c.glb.mode != .save || !r.cut || c.vlt.mount != 2 then d
      else
        let c := unitTake c u
        let k := unitBlock c.vlt u
        if !pass then
          let c := onVch c (k / 65536 % 16) (fun x => { x with progFail := satInc x.progFail 0xFFFF })
          { d with ctl := retireBlock (raiseAt c (srcVch (k / 65536 % 16) 0) 0 (vaddrK c k) 0x51 0xA) k }
        else
          let hit := bad.filter (fun l => j.risers.contains (l / 4))
          let c := hit.foldl (fun c l => eccFail c (64 * l) 0x51 0xA) c
          let s := { r.saved with
            data := r.saved.data ++ j.risers.map (savedCopy d hit), units := r.saved.units ++ [u], kinds := r.saved.kinds ++ [(j.kind, j.gal)]
            placed := if j.kind == 1 then r.saved.placed ++ [(u, j.risers)] else r.saved.placed }
          { d with ctl := onSvr c (fun x => { x with run := some { r with saved := s, jobs := rest }, savePhase := phaseOf rest.head? }) }
    | _, _ => d

/-- LANDING_UNIT_PROGRAMMED (R248). -/
def execLandingUnitProgrammed (pass : Bool) (badLines : List (BitVec 40)) (s : State) : Host.Outcome State Fault Refusal :=
  onDev s (fun d => unitDone d pass (badLines.map (fun l => l.toNat)))

/-! ## The save record (R248, R251, R259 to R262, R276) -/

/-- A committed flight as its record holds it (R256, R349). -/
def flightRec (c : Ctl) (f : Flight) : FlightRec :=
  { commitSeq := f.commitSeq, origin := if f.own then c.twin.side else 1 - c.twin.side, slot := f.slot, ld := f.ld, ring := f.ring, segs := f.segs }

/-- A warm token is due (R276). -/
def tokenDue (r : SaveRec) : Bool := (r.cause == 0x20 || r.cause == 0x21) && r.incomplete.isEmpty

/-- The 64 KiB blocks of a gallery's tracked addresses: its halls and, behind them, its part of the tables (R18, R255; log entry 31). -/
def galBlocks (c : Ctl) : Nat := (c.dimm.perGal * hallBytes + 2 ^ 26) / 65536

/-- The dirty summary of a gallery (R156): a bit for each block, lowest first. -/
def summaryBytes (c : Ctl) (rs : List Nat) : List Byte :=
  (List.range ((galBlocks c + 7) / 8)).map (fun i => BitVec.ofNat 8 (listMask 8 ((List.range 8).filter (fun j => rs.any (fun r => r / 256 == 8 * i + j)))))

/-- The lines of its dirty table with a bit set (R156): 32 treads a line, a bit for each riser. -/
def tableBytes (rs : List Nat) : List Byte :=
  (((rs.map (fun r => r / 512)).foldl sins []).flatMap (fun k => bytesOf 64 (listMask 512 ((rs.filter (fun r => r / 512 == k)).map (fun r => r % 512)))))

/-- What a warm token records of a gallery's dirty table (R276): its CRC-64 over the summary and the lines, in this order (DESIGN CHOICE, log entry
118). -/
def tokenCrc (c : Ctl) (g : Nat) : Word :=
  let rs := (galAt c g).dirty.map (fun r => gAddr c (256 * r) / 256)
  BitVec.ofNat 64 (crc64 (summaryBytes c rs ++ tableBytes rs))

/-- The warm token; its nonce is an open value (R276). -/
def tokenIssue (c : Ctl) (seq : Nat) : Ctl :=
  let t : Token := { seq := seq, nonce := freeWord c, crcs := (List.range 8).map (tokenCrc c) }
  let c := onSvr (useFree c) (fun x => { x with token := some t, tokenState := 1 })
  onSeq c (fun x => { x with rails := x.rails.map (fun r => { r with lost := false }) })

/-- Where a gallery's metadata region holds the token (R276; the place is the model's, log entry 31). -/
def tokenAddr (g : Nat) : Nat := metaBase + g * metaGal + 2 ^ 26

def Token.bytes (t : Token) : List Byte := bytesOf 8 t.seq ++ bytesOf 8 t.nonce.toNat ++ t.crcs.flatMap (fun x => bytesOf 8 x.toNat)

/-- The token is written into each gallery's metadata region (R276). -/
def tokenStore (d : Dev) : Dev :=
  match d.ctl.svr.token with
  | some t => { d with mem := { d.mem with dram := (List.range 8).foldl (fun m g => cwrite 0 m (tokenAddr g) t.bytes) d.mem.dram } }
  | none => d

/-- A save whose units may be erased keeps its record only. -/
def SaveRec.retired (s : SaveRec) : SaveRec := { s with data := [], placed := [], flights := [] }

/-- The save record is committed later than its bound (R251): the units before the record, the time since t0 in ms, and r_save in MB/s. -/
def saveSlow (c : Ctl) (units ms : Nat) : Bool :=
  c.budget.rSave != 0 && decide ((ms - 20) * c.budget.rSave * 1000 > 16384 * units)

/-- The save record is written in two copies, then LANDING and PAIR in one commit (R217, R248, R261, R262). -/
def recordWrite (c : Ctl) (r : SaveRun) (ms : Nat) : Ctl :=
  let live := r.saved.pred :: [r.saved.seq]
  let c := recPage (recPage c 0) 1
  let s := { r.saved with tRecord := now c, flights := (flightStream c).map (flightRec c), warm := tokenDue r.saved, copyA := recWhole c 0, copyB := recWhole c 1,
                            blkA := recHome c 0, blkB := recHome c 1 }
  let n := s.units.length + 1
  let c := onSvr c (fun x => { x with
    saves := s :: x.saves.map (fun y => if live.contains y.seq then y else y.retired)
    live := live.filter (fun q => q != 0), landSaves := (x.landSaves + 1) % 2 ^ 32, unsettled := s.unsettled, unsettledOvf := s.unsettledOvf
    lastCause := s.cause, lastSeq := s.seq, lastTime := s.tTrigger, lastUnits := Nat.min n 0x1FFFFFF, lastIncomplete := s.incomplete
    durationMs := Nat.min ms 0xFFFF, savePhase := 7, run := none })
  let c := if saveSlow c s.units.length ms then raiseF c 0x2D0 0 else c
  let c := bufPut c (.record 0x02 (.landing (landingRec c)))
  let c := commitBuf (bufPut c (.record 0x05 (.pair { (pairRec c) with pending := s.pairedSave })))
  if s.warm then tokenIssue c s.seq else c

/-- SAVE_RECORD_PROGRAMMED (R245, R246, R248, R282): DOWN, VAULT.HOLD or the warm reset follows. -/
def recordDone (d : Dev) (ms : Nat) : Dev :=
  match d.ctl.svr.run with
  | none => d
  | some r =>
    if d.ctl.glb.mode != .save || !r.cut || !r.jobs.isEmpty then d
    else
      let c := recordWrite d.ctl r ms
      if r.downAfter || c.seq.offPending then { d with ctl := downStart c 0x38 r.ini }
      else
        let d := tokenStore { d with ctl := c }
        if r.saved.cause == 0x21 then startEntry { d with ctl := transition (seqStop d.ctl) .start 0x3A r.ini } true
        else { d with ctl := holdEntry d.ctl 0x39 r.ini }

/-- SAVE_RECORD_PROGRAMMED (R248). -/
def execSaveRecordProgrammed (ms : Nat) (s : State) : Host.Outcome State Fault Refusal := onDev s (fun d => recordDone d ms)

/-! ## The slot frame (R150) -/

/-- The frame in force after a switch: SAVE from the cut-off on, SERVICE in SERVICE, START in VAULT.START from the end of
training on. -/
def frameGo (c : Ctl) : Ctl :=
  let n := if c.glb.mode == .save && (c.svr.run.map (fun r => r.cut)).getD false then some 2 else if c.glb.mode.service then some 0
    else if c.glb.mode == .start && modeFrame c == 1 then some 1 else none
  match n with
  | some n => { c with gals := c.gals.map (fun g => if g.fenced || g.resetting then g else { g with frame := n, doze := if n == 2 then false else g.doze }) }
  | none => c

/-- FRAME_SWITCH (R150). -/
def execFrameSwitch (s : State) : Host.Outcome State Fault Refusal := onCtl s frameGo

end Sys2Proof.Machine
end

