-- ==== Sys2Proof/Machine/Faults.lean ====
section
/-! DEFINITION. Machine/Faults.lean: how the fault collector decides a message, fences a unit and reacts (R391 to R414). -/
namespace Sys2Proof.Machine

/-! ## The decision (R397 to R404) -/

/-- DOWN runs: the last column of R391. -/
def goingDown (c : Ctl) : Bool := c.glb.mode == .standby || c.glb.mode == .off || c.seq.running == .down

/-- The result of R398 for a message that no other step takes. -/
inductive Verdict where
  | collector | fatal | stale | consequential (cause : Nat) | fenced | react (cls : FClass)
  /-- A fault in the collector is in force: the message is only logged (R413). -/
  | deaf
  deriving DecidableEq, Repr

/-- The earliest open window among whose dependents the message is (R402). -/
def windowOf (c : Ctl) (m : FMsg) : Option Win := c.fcu.windows.find? (fun w => dependent c.vlt.targets w.ev m.source m.addr)

/-- The root's decision (R398, R413). -/
def verdict (c : Ctl) (m : FMsg) : Verdict :=
  let cls := classOf c m.source
  let u := unitOf c.vlt.targets m.source m.addr
  if m.source == 0x2DF then (if c.fcu.self then .deaf else .collector)
  else if c.fcu.self then (if fixedClass m.source && cls == .s3 then .fatal else .deaf)
  else if cls == .s3 then .fatal
  else if m.rgen != (unitAt c u).rgen then .stale
  else match windowOf c m with
    | some w => .consequential w.cause
    | none => if unitFenced c u && (cls == .s1 || cls == .s2) then .fenced else .react cls

/-- The REACTION value of a verdict (R407). -/
def reactionOf (c : Ctl) (m : FMsg) (v : Verdict) : Nat :=
  let s2 : Nat := if goingDown c then 6 else if c.glb.mode.service then 3 else if c.glb.mode == .start then 4 else 6
  match v with
  | .collector => 7
  | .fatal => 5
  | .stale | .consequential _ | .fenced => 0
  | .deaf => 6
  | .react .s0 => 0
  | .react .s1 =>
    if goingDown c then 6
    else if m.source < 0x100 && m.source % 16 == 5 then (if m.ini < 64 then 2 else 0)
    else if fenceable (unitOf c.vlt.targets m.source m.addr) then 1 else 0
  | .react .s2 => s2
  | .react .s3 => 5

/-- The log entry of a decided message (FCU_LOG). -/
def entryOf (c : Ctl) (m : FMsg) (v : Verdict) (reaction : Nat) : LogEntry :=
  { LogEntry.blank with
    time := now c, rgen := m.rgen, access := m.access, addr := m.addr, seq := c.fcu.entries, rep := m.rep, ini := m.ini, kind := m.kind
    source := m.source, cause := (match v with | .consequential s => s | _ => 0x3FF), reaction := reaction, forced := m.forced
    fenced := v == .fenced, conseq := (match v with | .consequential _ => true | _ => false)
    stale := v == .stale || (v == .fatal && m.rgen != (unitAt c (unitOf c.vlt.targets m.source m.addr)).rgen), cls := (classOf c m.source).code }

/-- The first-error capture (R406). -/
def captureAdd (c : Ctl) (v : Verdict) (e : LogEntry) : Ctl :=
  let clean : Bool := !e.stale && (match v with | .consequential _ | .fenced | .stale => false | _ => true)
  if e.cls ≥ c.fcu.captureMin && clean then
    match c.fcu.captured with
    | none => { c with fcu := { c.fcu with captured := some e } }
    | some _ => { c with fcu := { c.fcu with captureMore := true } }
  else c

/-- An S0 message whose source has a log entry within the last 1 ms is only counted (R408). -/
def loggedLately (c : Ctl) (m : FMsg) : Bool :=
  c.fcu.log.any (fun x => x.2.source == m.source && !x.2.fromAlcove && within x.2.time (now c) 65)

/-- A message is entered: LATCHED, capture, log (R393, R406 to R408, R410). -/
def messageLog (c : Ctl) (m : FMsg) (v : Verdict) (reaction : Nat) : Ctl :=
  let e := entryOf c m v reaction
  let c := onSrc c m.source (fun x => { x with active := x.condition, latched := x.latched || !e.stale })
  let c := if m.source == 0x2E8 || m.source == 0x2EC then onAlc c (fun a => { a with faulted := true }) else c
  let c := captureAdd c v e
  if classOf c m.source == .s0 && loggedLately c m then countUnlogged c
  else logAdd c e (reaction == 3 || (reaction == 7 && c.glb.mode.service))

/-! ## Reactions -/

/-- The event of a unit's fence (R401). -/
def fenceEvent (u : Nat) : WinEv :=
  if u < 0x10 then .headFence u
  else if u < 0x18 then .galFence (u - 0x10)
  else if u < 0x20 then .ringFence (u - 0x18)
  else if u < 0x24 then .linkFence (u - 0x20)
  else if u < 0x38 then .vchFence (u - 0x28)
  else .lunFence (u - 0x40)

/-- The effect of a fence on its unit (R400). -/
def fenceEffect (d : Dev) (u s : Nat) (forced : Bool) : Dev :=
  if u < 0x10 then headFence d u
  else if u < 0x18 then
    let k := (s - 0x100) % 32
    let d := galFenceOp d (u - 0x10) (galFenceCause s forced)
    { d with ctl := onGal d.ctl (u - 0x10) (fun g => { g with dchFenced := if k < 24 then [k / 6] else [], resetting := false }) }
  else if u < 0x20 then settle { d with ctl := engineFence d.ctl (u - 0x18) }
  else if u < 0x24 then afterLink { d with ctl := linkFenced d.ctl (u - 0x20) (if s % 16 == 3 then 3 else 4) }
  else if u < 0x38 then chanFenceOp d (u - 0x28)
  else lunFenceOp d (u - 0x40)

/-- The device is in VAULT.HOLD or the vestibule. -/
def resting (c : Ctl) : Bool := c.glb.mode == .hold || c.glb.mode == .vestibule

/-- An S1 reaction (R391, R400, R403): in STANDBY and while DOWN runs the message is only logged. -/
def reactS1 (d : Dev) (m : FMsg) : Dev :=
  let u := unitOf d.ctl.vlt.targets m.source m.addr
  if goingDown d.ctl then d
  else if m.source < 0x100 && m.source % 16 == 5 then
    if m.ini < 64 && !(ldAt d.ctl m.ini).biFenced then { d with ctl := ldFenceOp d.ctl m.ini } else d
  else if fenceable u then
    let d := fenceEffect { d with ctl := fenceUnit d.ctl u m.source (fenceEvent u) } u m.source m.forced
    if resting d.ctl then { d with ctl := tokenDrop d.ctl } else d
  else d

/-- An S2 reaction (R391): a save, VAULT.HOLD without one, or nothing. -/
def reactS2 (c : Ctl) (m : FMsg) : Ctl :=
  if goingDown c then c
  else if c.glb.mode.service then saveBegin c 0x10 0xFF m.source m.kind
  else if c.glb.mode == .start then
    holdEntry (onBoot (seqStop c) (fun b => { b with phase := .none, stage := .idle })) 0x15 0xFF
  else c

/-- An S3 reaction (R366, R404): the messages still waiting are logged with REACTION 0x6. -/
def reactS3 (c : Ctl) : Ctl :=
  let rest := c.fcu.waiting
  let c := { c with fcu := { c.fcu with waiting := [] } }
  let c := if c.glb.fatal then c else tripReact c 5 0 0 0xFF
  rest.foldl (fun c m => messageLog c m (if classOf c m.source == .s3 then .fatal else .deaf) (if classOf c m.source == .s3 then 5 else 6)) c

/-- A self-fault (R413): it reacts as S2 through its own path. -/
def reactSelf (c : Ctl) (m : FMsg) : Ctl := reactS2 { c with fcu := { c.fcu with self := true } } m

/-- A stale message of a source whose condition holds is raised again under the current generation (R397). -/
def raiseAgain (c : Ctl) (m : FMsg) : Ctl :=
  if (srcAt c m.source).condition then raiseMsg c m.source m.kind m.addr m.ini m.access m.forced else c

/-- The root decides one message. -/
def decideMsg (d : Dev) (m : FMsg) : Dev :=
  let v := verdict d.ctl m
  let c := messageLog d.ctl m v (reactionOf d.ctl m v)
  let d : Dev := { d with ctl := c }
  match v with
  | .collector => { d with ctl := reactSelf c m }
  | .fatal | .react .s3 => { d with ctl := reactS3 c }
  | .stale => { d with ctl := raiseAgain c m }
  | .consequential _ | .fenced | .deaf | .react .s0 => d
  | .react .s1 => reactS1 d m
  | .react .s2 => { d with ctl := reactS2 c m }

/-- The message the root takes when one of this source is due: a waiting S3 message goes ahead (R385). -/
def msgDue (c : Ctl) (s : Nat) : Option FMsg :=
  if c.fcu.waiting.any (fun m => m.source == s) then
    match c.fcu.waiting.find? (fun m => classOf c m.source == .s3) with
    | some m => some m
    | none => c.fcu.waiting.find? (fun m => m.source == s)
  else none

/-- A message of a source is decided (R398). -/
def faultIn (d : Dev) (s : Nat) : Dev :=
  match if aonOn d.ctl then msgDue d.ctl s else none with
  | some m =>
    decideMsg { d with ctl := { d.ctl with fcu := { d.ctl.fcu with waiting := delFirst (fun x => x == m) d.ctl.fcu.waiting } } } m
  | none => d

/-- FAULT_MESSAGE (R398). -/
def execFaultMessage (source : Fin 768) (s : State) : Host.Outcome State Fault Refusal := onDev s (fun d => faultIn d source.val)

/-- CONSEQUENTIAL_WINDOW_EXPIRY (R401). -/
def execConsequentialWindowExpiry (ev : WinEv) (s : State) : Host.Outcome State Fault Refusal :=
  onCtl s (fun c => { c with fcu := { c.fcu with windows := c.fcu.windows.filter (fun w => w.ev != ev) } })

/-! ## Register writes (R394, R405, R406) -/

/-- A write of FCU_SRC.FORCE (R394). -/
def forceOp (c : Ctl) (ini s : Nat) : Ctl :=
  if !srcDefined s then c
  else if classOf c s == .s3 then
    if c.fcu.armed then raiseMsg { c with fcu := { c.fcu with armed := false } } s 0x3F 0 ini 0x6 true else illegal c ini
  else raiseMsg c s 0x3F 0 ini 0x6 true

/-- FORCE (R394). -/
def execFcuForce (ini : Byte) (source : Fin 768) (s : State) : Host.Outcome State Fault Refusal :=
  onCtl s (fun c => regWrite c ini.toNat (0x701000 + 8 * source.val) 8 (fun c => forceOp c ini.toNat source.val))

/-- A write of ARM_FATAL (R394). -/
def armOp (c : Ctl) : Ctl := { c with fcu := { c.fcu with armed := true } }

/-- ARM_FATAL (R394). -/
def execArmFatal (ini : Byte) (s : State) : Host.Outcome State Fault Refusal :=
  onCtl s (fun c => regWrite c ini.toNat 0x700008 8 armOp)

/-- ARM_FATAL_EXPIRY (R394). -/
def execArmFatalExpiry (s : State) : Host.Outcome State Fault Refusal :=
  onCtl s (fun c => { c with fcu := { c.fcu with armed := false } })

/-- The capture is cleared (R406). -/
def captureClear (c : Ctl) : Ctl := { c with fcu := { c.fcu with captured := none, captureMore := false } }

/-- CAPTURE_CLR (R406). -/
def execCaptureClr (ini : Byte) (s : State) : Host.Outcome State Fault Refusal :=
  onCtl s (fun c => regWrite c ini.toNat 0x700008 8 captureClear)

/-- FCU_HEAD_UNFENCE (R405): the heads named that are fenced; a write that names none is counted. -/
def headUnfenceOp (c : Ctl) (ini : Nat) (hs : List Nat) : Ctl :=
  let f := hs.filter (headFenced c)
  if f.isEmpty then illegal c ini else f.foldl (fun c h => liftFence c h true) c

/-- FCU_HEAD_UNFENCE (R405). -/
def execFcuHeadUnfence (ini : Byte) (heads : BitVec 16) (s : State) : Host.Outcome State Fault Refusal :=
  onCtl s (fun c => regWrite c ini.toNat 0x700018 8 (fun c => headUnfenceOp c ini.toNat (maskList 16 heads.toNat)))

/-! ## The collector's own checks (R412, R413) and units' errors (R381) -/

/-- A check of the collector finds a corrected log word, or a self-fault with its cause (R412, R413). -/
def selfCheckOp (c : Ctl) (cause : Nat) (corrected : Bool) : Ctl :=
  let c := if corrected then { c with fcu := { c.fcu with logCe := true } } else c
  if cause == 0 || c.fcu.self then c
  else
    let m : FMsg := { source := 0x2DF, kind := 0, addr := 0, ini := 0xFF, access := 0, rgen := 0, rep := 0, forced := false }
    let c := onSrc c 0x2DF (fun x => { x with count := satInc x.count 0xFFFF, lastKind := 0 })
    let c := { c with fcu := { c.fcu with self := true, selfCause := cause } }
    reactS2 (messageLog c m .collector 7) m

/-- COLLECTOR_SELF_CHECK (R412). -/
def execCollectorSelfCheck (cause : Fin 5) (corrected : Bool) (s : State) : Host.Outcome State Fault Refusal :=
  onCtl s (fun c => if aonOn c then selfCheckOp c cause.val corrected else c)

/-- 20 µs after an advance a held one takes effect (R396). -/
def genAdvanceOp (c : Ctl) (u : Nat) : Ctl :=
  if unitDefined u then
    onUnit c u (fun x => if x.held > 0 then { x with rgen := (x.rgen + 1) % 16, held := x.held - 1 } else { x with recent := false })
  else c

/-- ROLE_GENERATION_ADVANCE (R396). -/
def execRoleGenerationAdvance (unit : Fin 576) (s : State) : Host.Outcome State Fault Refusal :=
  onCtl s (fun c => if aonOn c then genAdvanceOp c unit.val else c)

/-- The block of a source is powered (R23). -/
def srcPowered (c : Ctl) (s : Nat) : Bool :=
  let island := c.glb.mode == .start || c.glb.mode.service || c.glb.mode == .save
  if s < 0x100 then headsLive c
  else if s < 0x200 then island || c.glb.mode == .hold
  else if s < 0x240 then twinPowered c
  else if s < 0x2C0 then island
  else aonOn c

/-- A directory entry of a gallery is lost: its hall becomes directory-cold (R165). -/
def dirLost (c : Ctl) (k : Nat) : Ctl :=
  let h := hallAt c k
  if h.mode == .shared && h.home then hallEvent (onHall c k (fun h => { h with cold := true, warm := [], swept := 0 })) k 3 else c

/-- The dirty-table line with this number in its gallery is lost: every riser of its 32 treads is marked dirty (R158). -/
def dirtyLost (c : Ctl) (g line : Nat) : Ctl :=
  (List.range 32).foldl (fun c i => (List.range 16).foldl (fun c j => markDirty c (16 * galTread c g (32 * line + i) + j)) c) c

/-- What an error of gallery g brings: DIR_UE names a line of the hall, DIRTY_META_UE a line of the dirty table, each by its gallery address (R158,
R165, R384). Elsewhere DIRTY_META_UE reports a summary word, which is rebuilt from the table and changes nothing (R158). -/
def galError (c : Ctl) (g k addr : Nat) : Ctl :=
  let table := c.dimm.perGal * hallBytes + tableBase
  if (galAt c g).fenced then c
  else if k == 25 && addr / hallBytes < c.dimm.perGal then dirLost c (g * c.dimm.perGal + addr / hallBytes)
  else if k == 26 && table ≤ addr && addr < table + 2 * 262144 * c.dimm.perGal then dirtyLost c g ((addr - table) / 64)
  else c

/-- What an error of the Alcove brings at a byte offset of the array (R416): a corrected word is rewritten and counted; an uncorrectable one makes a
copy invalid, a slot torn, or is lost (DEDUCED, log entry 126). -/
def alcError (c : Ctl) (s addr : Nat) : Ctl :=
  let off := addr % 2 ^ 19
  match s with
  | 0x2E1 => copyLost c off false
  | 0x2E2 => copyLost c 0x8000 true
  | 0x2E3 => recRebuild c off
  | 0x2E4 => slotTear c off
  | 0x2E7 => touchWords (onAlc c (fun a => { a with ce := satInc a.ce 0xFFFF })) off 1
  | 0x2E8 => wordLost c off
  | _ => c

/-- What an error brings beside its message: an Alcove error acts on its word (R416), RTC_PARITY marks the time untrusted (R440), CDC_OVERRUN counts a
merge (R464), and REPLAY_EXCESS means more than 1,000 replays of a head's flits (R128), how many more being free. -/
def errorEffect (c : Ctl) (s addr : Nat) : Ctl :=
  if s < 0x100 && s % 16 == 2 then useFree (onHead c (s / 16) (fun x => { x with replays := Nat.min 0xFFFF (x.replays + 1001 + freeNat c) })) else
  if 0x100 ≤ s && s < 0x200 then galError c ((s - 0x100) / 32) (s % 32) addr
  else if 0x2E0 ≤ s && s < 0x2F0 then alcError c s addr
  else if s == 0x2F6 then oscStop c
  else if s == 0x2F9 then { c with clk := { c.clk with overrun := satInc c.clk.overrun 0xFFFFFFFF, overrunLast := addr % 65536 } }
  else c

/-- A unit raises a fault of its own (R381, R393). Kinds from 0x14 on are never raised, or only by VIOL sources and a forced fault (R383). -/
def internalError (c : Ctl) (s kind addr ini access : Nat) : Ctl :=
  if !srcPowered c s || 0x13 < kind then c
  else
    let c := errorEffect c s addr
    if isCondition s then beginCond c s kind addr
    else raiseAt c s kind addr ini access

/-- INTERNAL_ERROR_DETECTED (R381). -/
def execInternalErrorDetected (source : Fin 768) (kind : BitVec 6) (addr : BitVec 52) (ini : Byte) (access : BitVec 4) (s : State) :
    Host.Outcome State Fault Refusal :=
  onCtl s (fun c => internalError c source.val kind.toNat addr.toNat ini.toNat access.toNat)

end Sys2Proof.Machine
end

