-- ==== Sys2Proof/Machine/Gallery.lean ====
section
/-! DEFINITION. Machine/Gallery.lean: training of the DRAM channels, the gallery reset, patrol scrub, DOZE and the DIMM sensors (R28, R29, R131 to R142, R159, R164, R165). -/
namespace Sys2Proof.Machine

/-! ## Training (R132 to R137) -/

/-- The organisations of R132: capacity in GiB, die (1 16 Gb, 2 24 Gb, 3 32 Gb), ranks, stack height and rb. -/
def dimmOrgs : List (Nat × Nat × Nat × Nat × Nat) :=
  [(32, 1, 1, 1, 0), (48, 2, 1, 1, 0), (64, 1, 2, 1, 1), (64, 3, 1, 1, 0), (96, 2, 2, 1, 1), (128, 3, 2, 1, 1), (128, 1, 2, 2, 2),
   (192, 2, 2, 2, 2), (256, 3, 2, 2, 2), (256, 1, 2, 4, 3), (384, 2, 2, 4, 3), (512, 3, 2, 4, 3)]

/-- rb of an organisation that R132 lists. -/
def orgRb (cap die ranks stack : Nat) : Option Nat :=
  (dimmOrgs.find? (fun x => x.1 == cap && x.2.1 == die && x.2.2.1 == ranks && x.2.2.2.1 == stack)).map (fun x => x.2.2.2.2)

/-- A transfer rate as GAL_STATUS.RATE encodes it. -/
def rateCode (mts : Nat) : Nat := if mts ≥ 6400 then 2 else if mts ≥ 5600 then 1 else 0

/-- The vault's record of its DIMMs, where one exists (R136): capacity, die, ranks, stack. -/
def dimmRecord (c : Ctl) : Option (List Nat) :=
  match recOf c 0x01 with
  | some (.vault v) => some v.dimms
  | _ => none

/-- The organisation that the SPD gives, as the record holds it. -/
def probeOrg (p : TrainProbe) : List Nat := [p.cap, p.die, p.ranks, p.stack]

/-- The RESULT of a channel trained with `rate` in force, and the rate it passed at (R135). -/
def trainResult (c : Ctl) (p : TrainProbe) (rate : Nat) : Nat × Nat :=
  if !p.detected then (8, 0)
  else if !p.spdOk || (orgRb p.cap p.die p.ranks p.stack).isNone then (9, 0)
  else if (dimmRecord c).any (fun l => l != probeOrg p) then (0xA, 0)
  else match p.pass with
    | none => (0xB, 0)
    | some r =>
      let r := Nat.min r.val rate
      (if r < rateCode c.img.dramRate then 4 else if p.rdMargin.toNat < 15 || p.wrMargin.toNat < 15 then 3 else 2, r)

/-- GAL_DCH_TRAIN of a trained channel (R135): its fields are valid as far as the channel got. -/
def dchTrained (x : Dch) (p : TrainProbe) (result rate : Nat) : Dch :=
  let spd := result != 8 && p.spdOk
  let pass := result ≤ 4
  { x with
    result := result, rate := if pass then rate else 0, rdMargin := if pass then p.rdMargin.toNat else 0, wrMargin := if pass then p.wrMargin.toNat else 0
    failStep := if result == 0xB then Nat.max 1 p.failStep.val else 0, cap := if spd then p.cap else 0, ranks := if spd then p.ranks else 0
    stack := if spd then p.stack else 0, die := if spd then (if p.die ≤ 3 then p.die else 0) else 0, serial := p.serial }

/-- The training record of a channel (R134). -/
def trainRec (c : Ctl) (ch : Nat) : Option TrainRec :=
  match recOf c (0x20 + ch) with
  | some (.train t) => some t
  | _ => none

/-- Failed-device marks of a channel that the Alcove keeps (R140). -/
def marksKept (c : Ctl) (ch : Nat) : List Nat :=
  match recOf c 0x0A with
  | some (.marks l) => (l.filter (fun m => m / 1024 == ch)).map (fun m => m % 1024)
  | _ => []

/-- What a new DIMM that matches the vault's record gives up (R136): its channel's cached parameters and failed-device marks. -/
def trainDiscard (c : Ctl) (ch : Nat) (p : TrainProbe) : Ctl :=
  let c := recGather (onDch c ch (fun x => { x with failed := [] })) (0x20 + ch) (.train { serial := p.serial, rate := 0, params := 0 })
  match recOf c 0x0A with
  | some (.marks l) => if (marksKept c ch).isEmpty then c else recGather c 0x0A (.marks (l.filter (fun m => m / 1024 != ch)))
  | _ => c

/-- The marks of a channel (R136, R140): those of the Alcove, but for a new DIMM that matches the record. A DIMM that is absent or differs from the
record changes nothing. -/
def trainKeep (c : Ctl) (ch : Nat) (p : TrainProbe) (result : Nat) : Ctl :=
  if 8 ≤ result && result != 0xB then c
  else match trainRec c ch with
    | some t => if t.serial == p.serial then onDch c ch (fun x => { x with failed := marksKept c ch }) else trainDiscard c ch p
    | none => onDch c ch (fun x => { x with failed := marksKept c ch })

/-- A channel has a RESULT (R133 to R137): a pass at a lower rate sends every other channel that passed back to training. -/
def channelTrained (c : Ctl) (ch : Nat) (p : TrainProbe) : Ctl :=
  let (res, rate) := trainResult c p c.dimm.rate
  let pass := res ≤ 4
  let c := if pass && rate < c.dimm.rate then
      { c with dimm := { c.dimm with rate := rate }, dchs := c.dchs.map (fun x => if 2 ≤ x.result && x.result ≤ 4 then { x with result := 1, rate := 0, rdMargin := 0, wrMargin := 0 } else x) }
    else c
  let c := trainKeep c ch p res
  let c := onDch c ch (fun x => dchTrained x p res rate)
  if pass then
    let c := recGather c (0x20 + ch) (.train { serial := p.serial, rate := rate, params := p.params })
    if res == 2 then c else raiseAt c (srcDch ch 1) 0 0 0xFF 0
  else raiseAt c (srcDch ch 0) 0 0 0xFF 0

/-- DCH_TRAINING_DONE (R135). -/
def execDchTrainingDone (ch : Fin 32) (p : TrainProbe) (s : State) : Host.Outcome State Fault Refusal :=
  onCtl s (fun c => if c.glb.mode == .start && c.boot.phase == .training && (dchAt c ch).result == 1 then channelTrained c ch p else c)

/-! ## The gallery reset (R131, R164) -/

/-- GAL_RESET starts (R131, R164, R396, R401, R405): the gallery's heads are reset, their fences lifted, and full training begins. -/
def galResetOp (d : Dev) (ini g : Nat) : Dev :=
  let x := galAt d.ctl g
  if !d.ctl.glb.mode.service || !x.fenced || x.resetting then { d with ctl := illegal d.ctl ini }
  else
    let d := headDrop (headDrop d (2 * g)) (2 * g + 1)
    let reset (c : Ctl) (h : Nat) : Ctl := advGen (liftFence c h false) h
    let c := reset (reset d.ctl (2 * g)) (2 * g + 1)
    let c := { c with fcu := { c.fcu with windows := c.fcu.windows ++ [{ ev := .galReset g, cause := (unitAt c (0x10 + g)).fenceSrc }] } }
    let c := (List.range 4).foldl (fun c i => onDch c (4 * g + i) (fun y => { Dch.reset with result := 1, failed := y.failed, serial := y.serial })) c
    let c : Ctl := { c with rst := { c.rst with lastKind := 4, time := now c } }
    { d with ctl := onGal c g (fun y => { y with resetting := true }) }

/-- GAL_RESET (R164). -/
def execGalReset (ini : Byte) (g : Fin 8) (s : State) : Host.Outcome State Fault Refusal :=
  onDev s (fun d =>
    let off := 0x200000 + 0x20000 * g.val
    match gateOf d.ctl ini.toNat off 8 true with
    | .ok => galResetOp d ini.toNat g
    | r => { d with ctl := gateFail d.ctl r ini.toNat off true })

/-- The LDs of this device to which a hall of the gallery is assigned. -/
def galLds (c : Ctl) (g : Nat) : List Nat :=
  ((hallsOfGal c g).flatMap (fun k => ((hallAt c k).sharers.filter (fun s => s.here)).map (fun s => s.ld))).eraseDups

/-- The reports of R63 for some LDs. -/
def reportLds (c : Ctl) (ds : List Nat) : Ctl := ds.foldl (fun c d => addEvent (dirtyCountUp c d) d .failure .dirtyShutdown) c

/-- The tables of a returned gallery follow the hall map's working copy: those whose newest copy differs are dirty (R209). -/
def tablesDirty (d : Dev) (g : Nat) : Dev :=
  let slots := (hallsOfGal d.ctl g).map (fun k => riserNo (slotsAddr d.ctl k))
  let maps := if g == 0 || g == 4 then (List.range ((hallCount d.ctl + 31) / 32)).map (fun i => riserNo (mapAddr g (32 * i))) else []
  let rs := ((slots ++ maps).eraseDups).filter (fun r => (newestCopy d.ctl r).1 != riserData d r)
  { d with ctl := rs.foldl markDirty d.ctl }

/-- The fence clears and the gallery's halls are restored from the vault as at a start (R164): its tracked metadata at once. In SERVICE.PAIRED the
treads changed since the fence come from the partner. -/
def galReturn (d : Dev) (g : Nat) : Dev :=
  let c := liftFence d.ctl (0x10 + g) true
  let rs := ((liveSaves c).flatMap (fun s => s.data.map (fun x => x.riser))).filter (fun r => galOf c (r * 256) == g)
  let c := onGal c g (fun x => { x with
    fenced := false, fenceCause := 0, dchFenced := [], resetting := false, frame := modeFrame c, dirty := rs.foldl sins [], cache := [] })
  let ks := hallsOfGal c g
  let c := onSvr c (fun s => { s with unrestored := (ks.flatMap hallTreads).foldl (fun t x => t.insert x) s.unrestored })
  let d := tablesDirty (metaReturn { d with ctl := promoteFlag (onGlb c (fun x => { x with restoring := x.restoring || c.glb.mode.service })) } g) g
  let c := d.ctl
  if c.glb.mode == .paired then
    let c := onPair (ks.foldl (fun c k => hallEvent c k 6) c) (fun p => { p with role := 4, treadsDone := 0 })
    { d with ctl := sendRole c (.galFence g false) (.galFence g false) }
  else if c.glb.mode == .solo then { d with ctl := reportLds c (galLds c g) }
  else d

/-- A channel passes at a lower rate: every channel of the device goes on at that rate (R133). In SERVICE the others retrain within the same command
and pass (DESIGN CHOICE, log entry 46). -/
def rateLower (c : Ctl) (rate : Nat) : Ctl :=
  if rate < c.dimm.rate then
    { c with dimm := { c.dimm with rate := rate }, dchs := c.dchs.map (fun x => if 2 ≤ x.result && x.result ≤ 4 then { x with result := 4, rate := rate } else x) }
  else c

/-- The gallery reset ends (R164): all channels must pass, at the rate the device runs at or at a lower one (R133). -/
def galResetEnd (d : Dev) (g : Nat) (ps : List TrainProbe) : Dev :=
  if !(galAt d.ctl g).resetting then d
  else
    let step (acc : Ctl × Bool) (x : Nat × TrainProbe) : Ctl × Bool :=
      let (c, ok) := acc
      let ch := 4 * g + x.1
      let (res, rate) := trainResult c x.2 c.dimm.rate
      let c := onDch (trainKeep (if res ≤ 4 then rateLower c rate else c) ch x.2 res) ch (fun y => dchTrained y x.2 res rate)
      if res ≤ 4 then
        let c := recGather c (0x20 + ch) (.train { serial := x.2.serial, rate := rate, params := x.2.params })
        (if res == 2 then c else raiseAt c (srcDch ch 1) 0 0 0xFF 0, ok)
      else (raiseAt c (srcDch ch 0) 0 0 0xFF 0, false)
    let (c, ok) := (withIndex ps).foldl step (d.ctl, true)
    if ok then wake (galReturn { d with ctl := c } g) else { d with ctl := onGal c g (fun x => { x with resetting := false }) }

/-- GALLERY_RESET_DONE (R164). -/
def execGalleryResetDone (g : Fin 8) (p0 p1 p2 p3 : TrainProbe) (s : State) : Host.Outcome State Fault Refusal :=
  onDev s (fun d => galResetEnd d g [p0, p1, p2, p3])

/-! ## Scrub, DOZE and sensors -/

/-- Lines of a gallery's halls, and of its DRAM with the metadata region (R18, R142). -/
def hallLines (c : Ctl) : Nat := c.dimm.perGal * 2 ^ 24
def galLines (c : Ctl) : Nat := 4 * c.dimm.capGib * 2 ^ 24

/-- The address of a line of a gallery's DRAM. -/
def lineAddr (c : Ctl) (g n : Nat) : Nat :=
  if n < hallLines c then (g * hallLines c + n) * 64 else metaBase + g * metaGal + (n - hallLines c) * 64

/-- The scrub position moves on; a complete pass is counted (R142). -/
def scrubNext (c : Ctl) (g : Nat) : Ctl :=
  let t := now c
  let n := galLines c
  onGal c g (fun x =>
    if x.scrubPos + 1 ≥ n then { x with scrubPos := 0, scrubPasses := satInc x.scrubPasses 0xFFFFFFFF, scrubTime := t }
    else { x with scrubPos := x.scrubPos + 1 })

/-- Patrol scrub reads the next line (R142); it pauses in DOZE and under a fence and skips treads that are not restored. -/
def scrubOp (d : Dev) (g : Nat) (ecc : EccRes) : Dev :=
  let c := d.ctl
  let x := galAt c g
  if !c.glb.mode.service || x.fenced || x.doze || galLines c == 0 then d
  else
    let a := lineAddr c g x.scrubPos
    let c := scrubNext c g
    if unrestored c (treadNo a) || stale c (treadNo a) then { d with ctl := c }
    else submit { d with ctl := c } { Req.fresh (.scrub g) 0x53 (.read .none) a a with ecc := ecc }

/-- SCRUB_READ (R142). -/
def execScrubRead (g : Fin 8) (ecc : EccRes) (s : State) : Host.Outcome State Fault Refusal := onDev s (fun d => scrubOp d g ecc)

/-- Nothing is queued or in progress for a gallery (R28). -/
def galIdle (c : Ctl) (g : Nat) : Bool :=
  !c.reqs.any (fun r => galOf c r.haddr == g) && (galAt c g).inFlight.isEmpty
    && !(c.svr.fetches ++ c.svr.pulls ++ c.pair.rsyOut).any (fun t => galOfTread c t == g)

/-- A gallery enters DOZE (R28, R159). -/
def dozeOp (c : Ctl) (g : Nat) : Ctl :=
  let x := galAt c g
  if c.glb.mode.service && !x.fenced && !x.doze && galIdle c g then
    onGal (domStop c [0x08 + g, 0x10 + g]) g (fun x => { x with doze := true, dozeEntries := (x.dozeEntries + 1) % 65536 })
  else c

/-- DOZE_IDLE_EXPIRY (R28). -/
def execDozeIdleExpiry (g : Fin 8) (s : State) : Host.Outcome State Fault Refusal := onCtl s (fun c => dozeOp c g)

/-- DOZE_WAKE (R29). -/
def execDozeWake (g : Fin 8) (s : State) : Host.Outcome State Fault Refusal := onCtl s (fun c => wakeGal c g)

/-- A DIMM sensor exceeds 85 °C (R165). -/
def dimmHot (c : Ctl) (ch : Nat) : Ctl :=
  if srcPowered c (srcGal (ch / 4) 31) then raiseAt (onDch c ch (fun x => { x with hot := true })) (srcGal (ch / 4) 31) 0 0 0xFF 0 else c

/-- DIMM_THERMAL (R165). -/
def execDimmThermal (ch : Fin 32) (s : State) : Host.Outcome State Fault Refusal := onCtl s (fun c => dimmHot c ch)

end Sys2Proof.Machine
end

