-- ==== Sys2Proof/Machine/Image.lean ====
section
/-! DEFINITION. Machine/Image.lean: the configuration image in the flash: header, sections, parameters, frames, classes, and the choice of a slot (R146 to R149, R324, R392, R471, R476 to R483, R538). -/
namespace Sys2Proof.Machine

/-! ## Reading the flash -/

/-- The flash address of slot 1 (A) or 2 (B) (R470). -/
def slotBase (sl : Nat) : Nat := if sl == 2 then 0x4000000 else 0

/-- n bytes of the flash from an address, as a little-endian number. -/
def flNum (m : Store) (a n : Nat) : Nat := ofBytes (cread 0xFF m.flash a n)

/-- A header field of a slot (R476). -/
def hdrNum (m : Store) (sl off n : Nat) : Nat := flNum m (slotBase sl + off) n

def hdrSections (m : Store) (sl : Nat) : Nat := hdrNum m sl 0x00A 2
def hdrLen (m : Store) (sl : Nat) : Nat := hdrNum m sl 0x00C 4
def hdrVersion (m : Store) (sl : Nat) : Word := BitVec.ofNat 64 (hdrNum m sl 0x010 8)
def hdrKeySlot (m : Store) (sl : Nat) : Nat := hdrNum m sl 0x020 1

/-- The header is as an erase leaves it. -/
def hdrErased (m : Store) (sl : Nat) : Bool := (cread 0xFF m.flash (slotBase sl) 4096).all (fun b => b == 0xFF)

/-- MAGIC, FORMAT, SECTIONS, IMAGE_LEN and KEY_SLOT are as R476 and R481 want them. -/
def hdrForm (m : Store) (sl : Nat) : Bool :=
  hdrNum m sl 0 8 == 0x47414D494E4C564E && hdrNum m sl 8 2 == 1 && decide (1 ≤ hdrSections m sl) && decide (hdrSections m sl ≤ 32)
    && decide (hdrLen m sl ≤ 0x4000000) && decide (hdrKeySlot m sl ≤ 1)

/-- The key hash that KEY_SLOT names in page 0 is not all zero (R420, R481). -/
def keyHashSet (c : Ctl) (k : Nat) : Bool := (cread 0 c.alc.cells (0x30 + 48 * k) 48).any (fun b => b != 0)

/-- The boot controller authenticates under page 0 (R482). -/
def page0Auth (c : Ctl) : Bool := page0Class c == .written || page0Class c == .locked

/-- The header checks of R481 as BOOT_SLOT_STATUS.RESULT reports them; 0 when the header is authentic. -/
def hdrResult (c : Ctl) (m : Store) (sl : Nat) (v : SlotVerdict) : Nat :=
  if hdrErased m sl then 2
  else if !hdrForm m sl then 3
  else if !(page0Auth c && keyHashSet c (hdrKeySlot m sl) && v.key) then 4
  else if !v.sig then 5 else 0

/-! ## Sections (R478, R479) -/

/-- Section entry i of a slot: TYPE, OFFSET and LENGTH. -/
def secAt (m : Store) (sl i : Nat) : Nat × Nat × Nat :=
  (hdrNum m sl (0x100 + 64 * i) 2, hdrNum m sl (0x104 + 64 * i) 4, hdrNum m sl (0x108 + 64 * i) 4)

def sections (m : Store) (sl : Nat) : List (Nat × Nat × Nat) := (List.range (hdrSections m sl)).map (secAt m sl)

/-- Offset and length of the section of a type. -/
def secOf (m : Store) (sl ty : Nat) : Option (Nat × Nat) := ((sections m sl).find? (fun x => x.1 == ty)).map (fun x => x.2)

/-- n bytes of the section of a type from an offset in it, as a number. -/
def secNum (m : Store) (sl ty off n : Nat) : Nat :=
  match secOf m sl ty with
  | some (o, _) => flNum m (slotBase sl + o + off) n
  | none => 0

/-- The bytes of a section. -/
def secBytes (m : Store) (sl ty : Nat) : List Byte :=
  match secOf m sl ty with
  | some (o, n) => cread 0xFF m.flash (slotBase sl + o) n
  | none => []

/-- The section types and their lengths (R479). -/
def secFits (ty n : Nat) : Bool :=
  match ty with
  | 0x01 => n ≤ 0x300000
  | 0x02 => n % 8 == 0
  | 0x03 => n == 1424
  | 0x04 => n == 384
  | 0x05 => n == 768
  | 0x06 => n == 1024
  | 0x07 => true
  | 0x08 => n ≥ 8
  | 0x09 => n ≤ 0x400000
  | t => 0x80 ≤ t && t ≤ 0xFF

/-- Two sections do not overlap. -/
def secApart (x y : Nat × Nat × Nat) : Bool := x.2.1 + x.2.2 ≤ y.2.1 || y.2.1 + y.2.2 ≤ x.2.1

/-- Every element of a list stands in the relation to every later one. -/
def pairsAll {α : Type} (p : α → α → Bool) : List α → Bool
  | [] => true
  | a :: l => l.all (p a) && pairsAll p l

/-- The section table meets R478 and R479. -/
def secTableOk (m : Store) (sl : Nat) : Bool :=
  let l := sections m sl
  l.all (fun x => secFits x.1 x.2.2 && x.2.1 % 4096 == 0 && x.2.1 ≥ 4096 && x.2.2 ≥ 1 && x.2.1 + x.2.2 ≤ hdrLen m sl)
    && pairsAll secApart l && noRepeat ((l.map (fun x => x.1)).filter (fun t => t < 0x80))
    && [1, 2, 3].all (fun t => l.any (fun x => x.1 == t))

/-- The POWER section as a program (R479). -/
def powerProg (m : Store) (sl : Nat) : Option SeqProg :=
  match secOf m sl 3 with
  | none => none
  | some _ =>
    let w (off n : Nat) : Nat := secNum m sl 3 off n
    some { up := w 0x100 1, down := w 0x101 1, shed := w 0x102 1, trip := w 0x103 1
           rails := (List.range 16).map (fun r => { cfg := BitVec.ofNat 64 (w (16 * r) 8), pmb := BitVec.ofNat 64 (w (16 * r + 8) 8) })
           words := (List.range 256).map (fun i => BitVec.ofNat 32 (w (0x190 + 4 * i) 4))
           data := (List.range 64).map (fun i => BitVec.ofNat 16 (w (0x110 + 2 * i) 2)) }

/-- The owner byte of a ring names no owner, the default, or an LD of the ring's gallery's heads (R324, R479). -/
def ownerByteOk (r b : Nat) : Bool := b ≥ 0xFE || (b < 0x40 && b / 8 == r / 128)

/-- RING_OWNER is valid (R479). -/
def ownersOk (m : Store) (sl : Nat) : Bool :=
  (secOf m sl 6).isNone || (List.range 1024).all (fun r => ownerByteOk r (secNum m sl 6 r 1))

/-- RETRY holds the sets that its count names (R479). -/
def retryOk (m : Store) (sl : Nat) : Bool :=
  match secOf m sl 8 with
  | some (_, n) => secNum m sl 8 0 1 ≤ 15 && n == 8 + 4 * secNum m sl 8 0 1 && secNum m sl 8 2 2 == 0
  | none => true

/-! ## Parameters (R480, R538) -/

/-- A parameter: its ID, INDEX and VALUE. -/
abbrev Param := Nat × Nat × Nat

/-- The entries of the PARAM section. -/
def paramsOf (m : Store) (sl : Nat) : List Param :=
  match secOf m sl 2 with
  | some (_, n) => (List.range (n / 8)).map (fun i => (secNum m sl 2 (8 * i) 2, secNum m sl 2 (8 * i + 2) 1, secNum m sl 2 (8 * i + 4) 4))
  | none => []

/-- ID, number of indexes, and range of each parameter (R480, R538). -/
def paramRows1 : List (Nat × Nat × Nat × Nat) :=
  [(0x100, 1, 1, 128), (0x101, 1, 2, 8), (0x102, 1, 150, 10000), (0x103, 1, 50, 4000), (0x104, 1, 1, 100), (0x105, 1, 1, 10),
   (0x106, 1, 100, 400), (0x107, 1, 10, 10000), (0x108, 1, 1, 600), (0x109, 1, 1, 7), (0x10A, 1, 30, 600), (0x10B, 1, 25, 200),
   (0x10C, 1, 0, 3), (0x10D, 1, 1, 168)]
def paramRows2 : List (Nat × Nat × Nat × Nat) :=
  [(0x200, 16, 1, 4), (0x201, 16, 0, 15), (0x202, 16, 100, 10000), (0x203, 16, 1, 4), (0x300, 1, 4800, 6400), (0x301, 1, 8, 4096),
   (0x302, 1, 4, 168), (0x400, 4, 0, 1), (0x401, 4, 0, 1), (0x402, 16, 0, 0xFFFFFFFF), (0x403, 1, 10, 1000), (0x404, 1, 1, 255),
   (0x405, 1, 1, 255), (0x406, 1, 1, 255), (0x407, 1, 0, 1), (0x408, 1, 0, 0xFFFFFFFF), (0x409, 1, 0, 1), (0x40A, 1, 0, 10000), (0x40B, 1, 0, 1)]
def paramRows3 : List (Nat × Nat × Nat × Nat) :=
  [(0x500, 1, 500, 1000), (0x501, 1, 10, 100), (0x502, 1, 1, 40), (0x503, 1, 0, 1), (0x504, 1, 100, 10000), (0x505, 1, 100, 60000),
   (0x506, 1, 100, 400), (0x507, 1, 0, 1), (0x508, 1, 1000, 60000), (0x509, 1, 100, 50000), (0x50A, 1, 100, 4095), (0x50B, 1, 1, 168),
   (0x50C, 1, 16, 4095), (0x50D, 1, 1, 120)]
def paramRows4 : List (Nat × Nat × Nat × Nat) :=
  [(0x600, 1, 800, 3600), (0x601, 1, 0, 15), (0x602, 1, 1, 15), (0x603, 1, 7, 90), (0x604, 1, 4, 64), (0x605, 1, 0, 65535), (0x606, 1, 1000, 65535),
   (0x607, 1, 0, 1), (0x608, 1, 0, 10000), (0x700, 1, 0, 0xFFFFFFFF), (0x701, 1, 0, 2), (0x702, 1, 1, 168), (0x703, 1, 16, 4096)]
def paramRows : List (Nat × Nat × Nat × Nat) := paramRows1 ++ paramRows2 ++ paramRows3 ++ paramRows4

/-- The two's-complement value of a 32-bit VALUE. -/
def signed32 (v : Nat) : Int := if v ≥ 2 ^ 31 then (v : Int) - 2 ^ 32 else v

/-- What a value must meet beside its range. -/
def paramExtra (id v : Nat) : Bool :=
  match id with
  | 0x300 => [4800, 5600, 6400].contains v
  | 0x500 => v % 5 == 0
  | 0x506 => v == 100 || v == 400
  | 0x600 => v % 400 == 0
  | 0x605 => v == 0 || v ≥ 1000
  | 0x608 => v == 0 || v ≥ 100
  | 0x700 => -8192 ≤ signed32 v && signed32 v ≤ 8192
  | _ => true

/-- An entry names a listed parameter and index and its value lies in range. -/
def paramOk (p : Param) : Bool :=
  paramRows.any (fun x => x.1 == p.1 && p.2.1 < x.2.1 && x.2.2.1 ≤ p.2.2 && p.2.2 ≤ x.2.2.2) && paramExtra p.1 p.2.2

/-- The value of a parameter, or its default. -/
def pval (ps : List Param) (id idx d : Nat) : Nat := ((ps.find? (fun p => p.1 == id && p.2.1 == idx)).map (fun p => p.2.2)).getD d

/-- The PARAM section is valid (R480). -/
def paramsOk (ps : List Param) : Bool :=
  ps.all paramOk && noRepeat (ps.map (fun p => 256 * p.1 + p.2.1))
    && (pval ps 0x407 0 1 == 0 || (ps.any (fun p => p.1 == 0x408) && ps.any (fun p => p.1 == 0x409)))

/-- Byte 3 of every entry of the PARAM section is 0 (R480). -/
def paramZeros (m : Store) (sl : Nat) : Bool :=
  match secOf m sl 2 with
  | some (_, n) => (List.range (n / 8)).all (fun i => secNum m sl 2 (8 * i + 3) 1 == 0)
  | none => true

/-- The content of a slot's sections as RESULT reports it, 0 when it meets R478 to R480. -/
def contentResult (m : Store) (sl : Nat) : Nat :=
  if !secTableOk m sl || !(powerProg m sl).any progOk || secNum m sl 3 0x104 12 != 0 || !ownersOk m sl || !retryOk m sl then 7
  else if !paramsOk (paramsOf m sl) || !paramZeros m sl then 8 else 0

/-- The checks of R481 as BOOT_SLOT_STATUS.RESULT reports them. -/
def slotResult (c : Ctl) (m : Store) (sl : Nat) (v : SlotVerdict) : Nat :=
  let h := hdrResult c m sl v
  if h != 0 then h else if !v.hashes then 6 else if contentResult m sl != 0 then contentResult m sl else 1

/-! ## Frames (R147 to R149) -/

/-- The 256 slots of frame i of the FRAMES section. -/
def frameAt (m : Store) (sl i : Nat) : List Nat :=
  (List.range 128).flatMap (fun j => let b := secNum m sl 4 (128 * i + j) 1; [b % 16, b / 16])

def isRd (x : Nat) : Bool := x == 0 || x == 2 || x == 3
def isWr (x : Nat) : Bool := x == 1 || x == 10 || x == 11
def countSlots (l : List Nat) (x : Nat) : Nat := (l.filter (fun y => y == x)).length

/-- Between a slot of the first kind and the next of the second there are at least n gap or M slots, over a frame laid out twice. -/
def gapsOk (frm till : Nat → Bool) (n : Nat) : Option Nat → List Nat → Bool
  | _, [] => true
  | st, x :: l =>
    if till x && !frm x then (st.all (fun k => k ≥ n)) && gapsOk frm till n none l
    else if frm x then gapsOk frm till n (some 0) l
    else gapsOk frm till n (st.map (· + 1)) l

/-- A frame of kind 0 SERVICE, 1 START or 2 SAVE is valid (R147, R148). -/
def frameOk (kind : Nat) (l : List Nat) : Bool :=
  l.all (fun x => x % 8 ≤ 5 && (x < 8 || x == 10 || x == 11)) && countSlots l 5 ≥ 8
    && gapsOk isRd isWr 2 none (l ++ l) && gapsOk isWr isRd 4 none (l ++ l)
    && (if kind == 0 then countSlots l 0 ≥ 32 && countSlots l 1 ≥ 32 && [2, 10, 3, 11].all (fun x => countSlots l x ≥ 1)
        else countSlots l 0 == 0 && countSlots l 1 == 0)
    && (kind != 2 || countSlots l 2 ≥ 128)

/-- The default frames (R149). -/
def defaultFrame (kind : Nat) : List Nat :=
  let rep (n x : Nat) : List Nat := List.replicate n x
  match kind with
  | 0 => rep 4 5 ++ rep 152 0 ++ rep 8 2 ++ rep 6 3 ++ rep 4 4 ++ rep 64 1 ++ rep 8 10 ++ rep 2 11 ++ rep 4 4 ++ rep 4 5
  | 1 => rep 4 5 ++ rep 120 2 ++ rep 4 3 ++ rep 4 4 ++ rep 116 10 ++ rep 4 11 ++ rep 4 5
  | _ => rep 4 5 ++ rep 240 2 ++ rep 4 4 ++ rep 4 10 ++ rep 4 5

/-- The frames of a slot, with the default in place of an absent or invalid one (R148, R149). -/
def framesOf (m : Store) (sl : Nat) : List (List Nat) :=
  (List.range 3).map (fun k => if (secOf m sl 4).isSome && frameOk k (frameAt m sl k) then frameAt m sl k else defaultFrame k)

/-- Whether an image frame is invalid. -/
def framesBad (m : Store) (sl : Nat) : Bool := (secOf m sl 4).isSome && (List.range 3).any (fun k => !frameOk k (frameAt m sl k))

/-! ## Loading (R242, R392, R484) -/

/-- The parameters of the power section's blocks, which stage 0 loads (R242, R354, R501). -/
def loadPower (c : Ctl) (ps : List Param) : Ctl :=
  let ref := pval ps 0x701 0 0
  let c := { c with pwrImg := {
    pfTrip := pval ps 0x500 0 800, pfHyst := pval ps 0x501 0 40, pfFilter := pval ps 0x502 0 4, pfNEn := pval ps 0x503 0 1 == 1
    minOff := pval ps 0x504 0 500, wdog := pval ps 0x505 0 10000, pmbRate := pval ps 0x506 0 400, pmbPec := pval ps 0x507 0 1 == 1
    vmin := pval ps 0x508 0 12000, iTest := pval ps 0x509 0 10000, droop := pval ps 0x50A 0 1000, periodH := pval ps 0x50B 0 24
    scale := pval ps 0x50C 0 400, chargeWait := pval ps 0x50D 0 30 } }
  let c := onRtc c (fun r => { r with timeRef := ref, periodH := pval ps 0x702 0 24, windowS := pval ps 0x703 0 (if ref == 2 then 16 else 1024) })
  inputSettle (holdCheck c)

/-- The class table of the image (R392): a rejected entry leaves the default class and raises FCU_CONFIG. -/
def loadClasses (c : Ctl) (m : Store) (sl : Nat) : Ctl :=
  let c := { c with fcu := { c.fcu with cls := [], rejected := 0 } }
  match secOf m sl 5 with
  | none => c
  | some _ => (List.range 768).foldl (fun c s =>
      let b := secNum m sl 5 s 1
      let d := (defaultClass s).code
      if b == d then c
      else if b < 4 && b > d && !fixedClass s && (b != 1 || fenceable (unitOf c.vlt.targets s 0)) then
        { c with fcu := { c.fcu with cls := tset c.fcu.cls s (classOfCode b) } }
      else raiseAt { c with fcu := { c.fcu with rejected := satInc c.fcu.rejected 0xFFFF } } 0x2DE 0x0F s 0xFF 0) c

/-- The owner of a ring (R324): the table's LD or the default, where its head presents it. -/
def ringOwnerOf (c : Ctl) (m : Store) (sl r : Nat) : Option Nat :=
  let b := if (secOf m sl 6).isSome then secNum m sl 6 r 1 else 0xFE
  let d := if b == 0xFE then r / 16 else b
  if b != 0xFF && ldPresented c d then some d else none

/-- The PARAM section takes effect in its blocks (R480, R484). -/
def loadParams (c : Ctl) (ps : List Param) : Ctl :=
  let p (id d : Nat) : Nat := pval ps id 0 d
  let paired := p 0x407 1 == 1
  let c := loadPower c ps
  let img := { c.img with
    dozeIdle := p 0x107 100, bootStable := p 0x108 10, bootLimit := p 0x109 3, startMax := p 0x10A 300, xspiMhz := p 0x10B 200
    marginPeriod := p 0x10D 24, dramRate := p 0x300 6400, ceLimit := p 0x301 64, scrubPeriod := p 0x302 24, vaultRate := p 0x600 3600
    vaultAdopt := p 0x607 0 == 1, tlcTprog := p 0x608 0, trimInit := signed32 (p 0x700 0), params := ps }
  let budget := { c.budget with
    dbCfg := p 0x100 64, soloFactor := p 0x101 4 % 8, eFixed := p 0x102 150, pSave := p 0x103 400, throttleMax := p 0x104 10 }
  let vlt := { c.vlt with
    tLife := p 0x105 5, fComp := p 0x106 145, retrySteps := p 0x601 7, refreshSteps := p 0x602 4, patrolDays := p 0x603 30
    logMax := p 0x604 32, tlcPe := p 0x605 0, slcPe := p 0x606 30000 }
  let head (h : Nat) (x : Head) : Head := { x with
    ldCount := pval ps 0x200 h 1, mgmtLd := pval ps 0x201 h 0, biTimeout := pval ps 0x202 h 2000, maxRate := pval ps 0x203 h 4 }
  let link (k : Nat) (x : TLink) : TLink :=
    let on := paired && pval ps 0x400 k 1 == 1
    { x with enabled := on, media := pval ps 0x401 k 0, state := if on then x.state else .disabled, time := now c }
  let twin := { c.twin with
    side := p 0x409 0, pairId := BitVec.ofNat 32 (p 0x408 0), wMir := p 0x404 2, wReq := p 0x405 1, wBlk := p 0x406 1, serLimit := p 0x403 200
    links := Vector.ofFn (fun i : Fin 4 => link i.val (c.twin.links.get i)) }
  let pair := { c.pair with paired := paired, homeReturn := p 0x40B 1 == 1, pairWait := p 0x40A 1000 }
  let c := { c with
    img := img, budget := budget, vlt := vlt, twin := twin, pair := pair
    heads := Vector.ofFn (fun i : Fin 16 => head i.val (c.heads.get i))
    fcu := { c.fcu with captureMin := p 0x10C 1 } }
  let c := (List.range 4).foldl trainStart c
  if c.rtc.trimSrc == 0 then onRtc c (fun r => { r with trim := c.img.trimInit, trimSrc := 1 }) else c

/-- The sections of a slot beside STEWARD and POWER are loaded (R484). -/
def loadImage (c : Ctl) (m : Store) (sl : Nat) : Ctl :=
  let c := loadClasses (loadParams c (paramsOf m sl)) m sl
  let n := secNum m sl 8 0 1
  let img := { c.img with
    frames := framesOf m sl
    retryTable := if (secOf m sl 8).isSome then (List.range (n + 1)).map (fun i => BitVec.ofNat 32 (secNum m sl 8 (4 + 4 * i) 4)) else [] }
  let rings : Tbl Ring := (List.range 1024).filterMap (fun r => (ringOwnerOf c m sl r).map (fun d => (r, { Ring.reset with owner := some d })))
  let c := { c with img := img, rings := rings, pair := { c.pair with prefMap := if (secOf m sl 7).isSome then some (secBytes m sl 7) else none } }
  if framesBad m sl then (List.range 8).foldl (fun c g => raiseAt c (srcGal g 27) 0 0 0xFF 0) c else c

/-! ## The flash clock (R471, R477) -/

/-- Wait-state entry i of a slot: MAX_MHZ, VMIN_MV, DUMMY, MODE. -/
def waitAt (m : Store) (sl i : Nat) : Nat × Nat × Nat × Nat :=
  (hdrNum m sl (0x40 + 8 * i) 2, hdrNum m sl (0x42 + 8 * i) 2, hdrNum m sl (0x44 + 8 * i) 1, hdrNum m sl (0x45 + 8 * i) 1)

/-- The wait-state entry and clock chosen (R471): its index, dummy cycles, mode and clock; none keeps the safe default. -/
def waitPick (m : Store) (sl target mv : Nat) : Option (Nat × Nat × Nat × Nat) :=
  let ok := (List.range 16).filter (fun i => let e := waitAt m sl i; e.1 != 0 && e.2.1 ≤ mv)
  let at' := fun i => waitAt m sl i
  match bestBy (fun i j => decide ((at' i).2.2.1 < (at' j).2.2.1)) (ok.filter (fun i => target ≤ (at' i).1)) with
  | some i => some (i, (at' i).2.2.1, (at' i).2.2.2, target)
  | none =>
    match bestBy (fun i j => decide ((at' i).1 > (at' j).1)) ok with
    | some i => some (i, (at' i).2.2.1, (at' i).2.2.2, (at' i).1)
    | none => none

/-- BOOT_XSPI_CFG after stage 1 (R471). -/
def xspiSet (c : Ctl) (m : Store) (sl mv : Nat) : Ctl :=
  onBoot c (fun b =>
    let b := { b with vaonMv := mv % 65536 }
    match waitPick m sl c.img.xspiMhz mv with
    | some (i, d, mode, mhz) => { b with xEntry := i, xDummy := d, xDdr := mode == 1, xMhz := mhz }
    | none => { b with xEntry := 0xFF, xDummy := 8, xDdr := false, xMhz := 25 })

/-! ## The choice of a slot (R482, R483) -/

def slotSt (c : Ctl) (sl : Nat) : SlotSt := if sl == 2 then c.boot.slotB else c.boot.slotA
def onSlot (c : Ctl) (sl : Nat) (f : SlotSt → SlotSt) : Ctl :=
  onBoot c (fun b => if sl == 2 then { b with slotB := f b.slotB } else if sl == 1 then { b with slotA := f b.slotA } else b)

/-- A header is read (R483): its fields, and VERSION when it is authentic. -/
def slotRead (c : Ctl) (m : Store) (sl result : Nat) (auth : Bool) : Ctl :=
  let v := hdrVersion m sl
  onSlot c sl (fun x =>
    let x := { x with result := result, keySlot := hdrKeySlot m sl % 2, sections := hdrSections m sl % 256, lenKib := (hdrLen m sl + 1023) / 1024 % 2 ^ 17 }
    if auth then { x with version := v } else x)

/-- Stage 0 clears the rejection of a slot whose authentic header has another VERSION (R483). -/
def rejectDrop (c : Ctl) (sl : Nat) (auth : Bool) : Ctl :=
  if auth then onSlot c sl (fun x => { x with rejected := x.rejected && x.rejectVersion == x.version }) else c

/-- The slot that R483 runs; 0 for none. -/
def slotChoose (c : Ctl) (auth : List Nat) : Nat :=
  let cand := auth.filter (fun sl => !((slotSt c sl).rejected && (slotSt c sl).rejectVersion == (slotSt c sl).version))
  let cand := if cand.isEmpty then auth else cand
  if cand.isEmpty then 0
  else if c.boot.lastFailed && cand.contains 1 && cand.contains 2 then (if c.boot.lastSlot == 1 then 2 else 1)
  else if cand.contains 1 && (!cand.contains 2 || (slotSt c 2).version.toNat ≤ (slotSt c 1).version.toNat) then 1 else 2

/-- The program that the SEQ record holds (R356). -/
def seqRec (c : Ctl) : Option SeqProg :=
  match recOf c 0x0B with
  | some (.seq p) => if progOk p then some p else none
  | _ => none

/-- Stage 0 (R484): page 0 is classified, both headers are read, the slot chosen and its program loaded; where there is none the SEQ record
runs. It answers whether a program is loaded. -/
def stage0 (d : Dev) (sfdpOk : Bool) (va vb : SlotVerdict) : Dev × Bool :=
  let m := d.mem
  let c := onBoot d.ctl (fun b => { b with page0 := page0Class d.ctl, stage := .stage0 })
  let ra := hdrResult c m 1 va
  let rb := hdrResult c m 2 vb
  let keep (sl r : Nat) : Nat := if r != 0 then r else if (slotSt c sl).result == 1 then 1 else 0
  let c := if sfdpOk then slotRead (slotRead c m 1 (keep 1 ra) (ra == 0)) m 2 (keep 2 rb) (rb == 0) else c
  let c := if sfdpOk then rejectDrop (rejectDrop c 1 (ra == 0)) 2 (rb == 0) else c
  let auth := if sfdpOk then (if ra == 0 then [1] else []) ++ (if rb == 0 then [2] else []) else []
  let run := slotChoose c auth
  let cause := if !sfdpOk then 6 else match c.boot.page0 with
    | .blank => 1
    | .damaged => 2
    | _ => if run == 0 then 3 else 0
  let c := onBoot c (fun b => { b with runSlot := run, lastSlot := run, cause0 := cause })
  let hash := if run == 2 then vb.hashes else va.hashes
  match if run == 0 || !hash then none else (powerProg m run).filter progOk with
  | some p =>
    let c := onSeq c (fun s => { s with prog := some p, source := run })
    let c := if seqRec c == some p then c else recSync c 0x0B (.seq p)
    ({ d with ctl := if paramsOk (paramsOf m run) then loadPower c (paramsOf m run) else c }, true)
  | none =>
    let c := raiseF c 0x2C5 0x0F
    match seqRec c with
    | some p => ({ d with ctl := onSeq c (fun s => { s with prog := some p, source := 3 }) }, true)
    | none => ({ d with ctl := c }, false)

end Sys2Proof.Machine
end

