-- ==== Sys2Proof/Machine/Clocks.lean ====
section
/-! DEFINITION. Machine/Clocks.lean: the references, the clock monitor, domains on demand and the crossings (R459 to R469). -/
namespace Sys2Proof.Machine

def onClk (c : Ctl) (f : Clk → Clk) : Ctl := { c with clk := f c.clk }

/-- A core or Corridor PLL that runs loses lock (R461). -/
def pllLossOp (c : Ctl) (corr : Bool) : Ctl := if domRunning c (if corr then 4 else 3) then raiseF c 0x2FB 0x09 else c

/-- CORE_PLL_LOSS (R461). -/
def execCorePllLoss (corr : Bool) (s : State) : Host.Outcome State Fault Refusal := onCtl s (fun c => pllLossOp c corr)

/-- The 100 MHz reference disappears (R461): the PLLs on it enter holdover, every head loses its link and PCIE_REFCLK_LOSS is raised. -/
def refLossOp (d : Dev) : Dev :=
  if !aonOn d.ctl || !d.ctl.clk.ref100 then d
  else
    let c := onClk d.ctl (fun x => { x with ref100 := false, ref100Settled := false, holdover := coreRuns d.ctl })
    let lose (d : Dev) (h : Nat) : Dev :=
      if (headAt d.ctl h).linkUp then let d := headReset d h; { d with ctl := raiseF d.ctl (srcHead h 0) 0 } else d
    let d := (List.range 16).foldl lose { d with ctl := c }
    { d with ctl := beginCond d.ctl 0x2FC 0x09 0 }

/-- REFCLK100_LOSS (R461). -/
def execRefclk100Loss (s : State) : Host.Outcome State Fault Refusal := onDev s refLossOp

/-- The reference is present again, or has been present for 10 ms (R461). -/
def refReturnOp (c : Ctl) (settled : Bool) : Ctl :=
  if !aonOn c then c
  else if settled then onClk c (fun x => { x with ref100Settled := x.ref100 })
  else if c.clk.ref100 then c
  else endCond (onClk c (fun x => { x with ref100 := true, holdover := false })) 0x2FC

/-- REFCLK100_RETURN (R461). -/
def execRefclk100Return (settled : Bool) (s : State) : Host.Outcome State Fault Refusal := onCtl s (fun c => refReturnOp c settled)

/-- AON_CALIBRATION (R460). -/
def execAonCalibration (s : State) : Host.Outcome State Fault Refusal :=
  onCtl s (fun c => if aonOn c then onClk c (fun x => { x with aonCal := !c.rtc.oscStopped }) else c)

/-- The domains whose clock a PLL makes (R459). -/
def domPll (d : Nat) : Bool := d == 2 || d == 3 || d == 4 || (0x08 ≤ d && d < 0x19) || (0x20 ≤ d && d < 0x34)

/-- A running PLL output is compared with the calibrated oscillator (R461); CLK_MONITOR stands while a clock is off its frequency. -/
def monitorOp (c : Ctl) (d : Nat) (ppm : Int) : Ctl :=
  if aonOn c && c.clk.aonCal && !c.rtc.oscStopped && domPll d && domRunning c d then
    let p := if ppm > 32767 then 32767 else if ppm < -32768 then -32768 else ppm
    let c := onClk c (fun x => { x with doms := tmod x.doms d ClkDom.reset (fun y => { y with ppm := p, offFreq := decide (1000 < ppm.natAbs) }) })
    setCond c 0x2FD 0 0 (c.clk.doms.any (fun x => x.2.offFreq))
  else c

/-- CLOCK_MONITOR_CHECK (R461). -/
def execClockMonitorCheck (dom : Fin 54) (ppm : Int) (s : State) : Host.Outcome State Fault Refusal := onCtl s (fun c => monitorOp c dom ppm)

/-- XSPI_IDLE_STOP (R463): the domain stops while no command and no check uses the flash. -/
def xspiStopOp (c : Ctl) : Ctl :=
  if c.clk.xspiOn && c.boot.flashOp.isNone && c.boot.verifying.isNone then onClk (domStop c [2]) (fun x => { x with xspiOn := false }) else c

/-- XSPI_IDLE_STOP (R463). -/
def execXspiIdleStop (s : State) : Host.Outcome State Fault Refusal := onCtl s xspiStopOp

/-- An access, by its BAR2 offset or an internal address, ends after 4 µs (R468): its block's domain is stopped or held in reset. An LD gets UR. -/
def accessTimeoutOp (c : Ctl) (ini addr : Nat) : Ctl :=
  if aonOn c && !blkAnswers c (blkOf addr) addr then emitUr (cdcTimeout c ini addr) ini addr else c

/-- CDC_ACCESS_TIMEOUT (R468). -/
def execCdcAccessTimeout (ini : Byte) (addr : BitVec 32) (s : State) : Host.Outcome State Fault Refusal :=
  onCtl s (fun c => accessTimeoutOp c ini.toNat addr.toNat)

/-- Domain codes that R459 lists. -/
def domListed (d : Nat) : Bool := d ≤ 4 || (0x08 ≤ d && d ≤ 0x18) || (0x20 ≤ d && d ≤ 0x35)

/-- One side of a crossing enters reset or loses its clock and the items in flight are discarded (R466, R467). -/
def discardOp (c : Ctl) (src dst items : Nat) : Ctl :=
  if aonOn c && domListed src && domListed dst && src != dst && items != 0 then
    let n := 256 * src + dst
    raiseAt (onClk c (fun x => { x with drop := satAdd x.drop items 0xFFFFFFFF, dropLast := n })) 0x2FA 0 n 0xFF 0
  else c

/-- CROSSING_RESET_DISCARD (R466). -/
def execCrossingResetDiscard (src dst : Fin 54) (items : Nat) (s : State) : Host.Outcome State Fault Refusal :=
  onCtl s (fun c => discardOp c src dst items)

end Sys2Proof.Machine
end

