-- ==== Sys2Proof/Machine/Flash.lean ====
section
/-! DEFINITION. Machine/Flash.lean: the flash commands and VERIFY (R470 to R475, R481, R483, R490). -/
namespace Sys2Proof.Machine

/-! ## Flash commands (R470, R473 to R475, R490) -/

/-- Bytes that a command reads or changes. -/
def flashSpan : FlashOp → Nat
  | .read | .program => 256
  | .erase4k => 4096
  | .erase64k => 65536

/-- The bytes lie in the slot that the current start loaded (R475). -/
def inRunSlot (c : Ctl) (a n : Nat) : Bool :=
  c.boot.runSlot != 0 && a < slotBase c.boot.runSlot + 0x4000000 && slotBase c.boot.runSlot < a + n

/-- The slot that runs is protected in every state but STANDBY and VAULT.VESTIBULE (R475). -/
def flashProtected (c : Ctl) (op : FlashOp) : Bool :=
  op != .read && c.glb.mode != .standby && c.glb.mode != .vestibule && inRunSlot c c.boot.flashAddr.toNat (flashSpan op)

def flashResult (c : Ctl) (n : Nat) : Ctl := onBoot c (fun b => { b with flashResult := n })

/-- A command is written (R470, R473, R475, R490); `gate` says that the always-on supply lies below the flash-gate threshold. -/
def flashCmd (c : Ctl) (ini : Nat) (op : FlashOp) (gate : Bool) : Ctl :=
  if c.boot.flashOp.isSome then illegal c ini
  else if c.glb.mode == .save then flashResult c 6
  else if c.boot.flashAddr.toNat % flashSpan op != 0 then flashResult c 7
  else if flashProtected c op then illegal (flashResult c 3) ini
  else if gate && op != .read && !c.glb.mode.service then flashResult c 4
  else onBoot (xspiWake c) (fun b => { b with flashOp := some op, flashResult := 2 })

/-- BOOT_FLASH_CMD is written. -/
def flashWrite (s : State) (ini : Byte) (op : FlashOp) (gate : Bool) : Host.Outcome State Fault Refusal :=
  onCtl s (fun c => regWrite c ini.toNat 0x7E2040 8 (fun c => flashCmd c ini.toNat op gate))

/-- n free bytes. -/
def freeBytes (c : Ctl) (n : Nat) : List Byte := (List.range n).map (fun i => (Config.freeWord (c.free + i)).setWidth 8)

/-- The bytes of the page buffer. -/
def bufBytesOf (b : Boot) : List Byte := (List.range 32).flatMap (fun i => bytesOf 8 (tgetD b.buf i 0).toNat)

/-- A programmed page: an erased byte takes the buffer's; what a byte that was not erased becomes the spec does not say, and it is free. -/
def programmed (old new free : List Byte) : List Byte :=
  (List.range 256).map (fun i => if old.getD i 0xFF == 0xFF then new.getD i 0 else free.getD i 0)

/-- A program or erase takes its effect on the flash; one that the flash reports failed leaves free values (R474). -/
def flashEffect (d : Dev) (op : FlashOp) (ok : Bool) : Dev :=
  let c := d.ctl
  let a := c.boot.flashAddr.toNat
  let n := flashSpan op
  let free := freeBytes c n
  let bytes : List Byte := if !ok then free else match op with
    | .program => programmed (cread 0xFF d.mem.flash a 256) (bufBytesOf c.boot) free
    | _ => List.replicate n 0xFF
  match op with
  | .read => d
  | _ => { ctl := { c with free := c.free + n }, mem := { d.mem with flash := cwrite 0xFF d.mem.flash a bytes } }

/-- A read fills the page buffer. -/
def flashFill (d : Dev) (ok : Bool) : Dev :=
  let c := d.ctl
  let a := c.boot.flashAddr.toNat
  let word (i : Nat) : Word := if ok then BitVec.ofNat 64 (flNum d.mem (a + 8 * i) 8) else Config.freeWord (c.free + i)
  { d with ctl := { (onBoot c (fun b => { b with buf := (List.range 32).map (fun i => (i, word i)) })) with free := c.free + 32 } }

/-- The command in progress ends (R490). -/
def flashEnd (d : Dev) (ok : Bool) : Dev :=
  match d.ctl.boot.flashOp with
  | none => d
  | some op =>
    let d := if op == .read then flashFill d ok else flashEffect d op ok
    { d with ctl := onBoot d.ctl (fun b => { b with flashOp := none, flashOps := (b.flashOps + 1) % 2 ^ 32, flashResult := if ok then 1 else 5 }) }

/-- What a program or erase in progress does when its controller loses power or is reset: it completes (R474), but in SERVICE a power loss may
leave the sector undefined (R473). -/
def flashCut (d : Dev) (powerLoss : Bool) : Dev :=
  match d.ctl.boot.flashOp with
  | some op => if op == .read then d else flashEffect d op (!(powerLoss && d.ctl.glb.mode.service))
  | none => d

/-! ## VERIFY (R481, R483, R490) -/

/-- BOOT_CTRL.VERIFY names a slot (R490). -/
def verifyOp (c : Ctl) (ini sl : Nat) : Ctl :=
  if c.boot.verifying.isSome then illegal c ini
  else onSlot (onBoot (xspiWake c) (fun b => { b with verifying := some sl })) sl (fun x => { x with result := 9 })

/-- The checks end and RESULT is set (R481). -/
def verifyEnd (d : Dev) (v : SlotVerdict) : Dev :=
  match d.ctl.boot.verifying with
  | none => d
  | some sl =>
    let c := onBoot d.ctl (fun b => { b with verifying := none })
    { d with ctl := slotRead c d.mem sl (slotResult c d.mem sl v) (hdrResult c d.mem sl v == 0) }

/-! ## The commands -/

/-- VERIFY_SLOT_A (R490). -/
def execVerifySlotA (ini : Byte) (s : State) : Host.Outcome State Fault Refusal :=
  onCtl s (fun c => regWrite c ini.toNat 0x7E2008 8 (fun c => verifyOp c ini.toNat 1))

/-- VERIFY_SLOT_B (R490). -/
def execVerifySlotB (ini : Byte) (s : State) : Host.Outcome State Fault Refusal :=
  onCtl s (fun c => regWrite c ini.toNat 0x7E2008 8 (fun c => verifyOp c ini.toNat 2))

/-- VERIFY_DONE (R490). -/
def execVerifyDone (v : SlotVerdict) (s : State) : Host.Outcome State Fault Refusal := onDev s (fun d => if aonOn d.ctl then verifyEnd d v else d)

/-- FLASH_READ (R470). -/
def execFlashRead (ini : Byte) (s : State) : Host.Outcome State Fault Refusal := flashWrite s ini .read false

/-- FLASH_PROGRAM (R475). -/
def execFlashProgram (ini : Byte) (gate : Bool) (s : State) : Host.Outcome State Fault Refusal := flashWrite s ini .program gate

/-- FLASH_ERASE_4K (R475). -/
def execFlashErase4k (ini : Byte) (gate : Bool) (s : State) : Host.Outcome State Fault Refusal := flashWrite s ini .erase4k gate

/-- FLASH_ERASE_64K (R475). -/
def execFlashErase64k (ini : Byte) (gate : Bool) (s : State) : Host.Outcome State Fault Refusal := flashWrite s ini .erase64k gate

/-- FLASH_COMMAND_DONE (R490). -/
def execFlashCommandDone (ok : Bool) (s : State) : Host.Outcome State Fault Refusal := onDev s (fun d => if aonOn d.ctl then flashEnd d ok else d)

end Sys2Proof.Machine
end

