-- ==== Sys2Proof/Machine/Boot.lean ====
section
/-! DEFINITION. Machine/Boot.lean: the power-on resets and RESET_N, the ON request, the boot stages, warm resets and failed starts (R32 to R35, R41, R361, R410, R414, R431, R439, R448, R482 to R490, R493 to R501). -/
namespace Sys2Proof.Machine

/-! ## Power-on resets and RESET_N (R439, R493, R494, R501) -/

/-- The fault entries that the Alcove fault ring holds, oldest first (R410, R433). -/
def ringEntries (c : Ctl) : List LogEntry :=
  let a := aringAt c 5
  ((List.range 32).map (fun i => a.newest + 1 + i)).filterMap (fun s => match tget a.slots (s % 32) with
    | some (.valid q (.fault e)) => if q + 32 == s || q == s then some e else none
    | _ => none)

/-- The newest 8 entries of the Alcove fault ring enter the log from index 0 on (R410). -/
def logFromAlcove (c : Ctl) : Ctl :=
  let all := ringEntries c
  let es := (all.drop (all.length - 8)).map (fun e => { e with fromAlcove := true })
  { c with fcu := { c.fcu with log := withIndex es, next := es.length } }

/-- What the always-on reset leaves of the RTC: everything but the measurement and the reference's settings, which the image loads (R501). -/
def Rtc.aonKeep (r : Rtc) : Rtc :=
  { r with freezes := [], measCount := 0, measRes := .none, measTrim := 0, measTime := 0, refLost := false, timeRef := Rtc.reset.timeRef,
           periodH := Rtc.reset.periodH, windowS := Rtc.reset.windowS }

/-- The always-on domain and everything below it at its reset (R501), in STANDBY, with the Alcove recovered (R431). -/
def aonReset (c : Ctl) (senseGood pfN : Bool) : Ctl :=
  let good := senseGood && pfN
  let off := coreOff c
  let c := { off with
    glb := { Glb.reset with mode := .standby }
    img := Img.reset, dimm := Dimm.reset, fcu := Fcu.reset, rtc := c.rtc.aonKeep, alc := alcKeep c.alc, clk := Clk.reset, rst := Rst.reset
    boot := Boot.reset, seq := Seq.reset, pwrImg := PwrImg.reset, sns := Vector.replicate 17 Sns.reset, mgmt := Mgmt.reset, budget := Budget.reset
    pf := { Pf.reset with senseGood := senseGood, senseLow := !senseGood, pfN := pfN, inputGood := good }
    hold := Hold.reset
    svr := { Svr.reset with saves := c.svr.saves, missing := c.svr.missing, reportDue := c.svr.reportDue, nextUnit := c.svr.nextUnit,
                            reserve := c.svr.reserve } }
  let c := alcRecover c
  let m := holdRec c
  let c := onHold c (fun h => { h with inForce := m, result := b2n m.isSome })
  let c := onPair c (fun p => { p with epoch := (pairRec c).lastEpoch })
  let c := if c.rtc.oscStopped then beginCond c 0x2F0 0x09 0 else c
  logFromAlcove (if c.rtc.vbatLow then beginCond c 0x2F1 0x0E 0 else c)

/-- The always-on power-on reset releases (R32, R41, R493): the loss of the supply is recorded first. -/
def aonPor (c : Ctl) (senseGood pfN ref100 ref156 : Bool) : Ctl :=
  if c.glb.mode != .off then c
  else
    let lost := c.glb.lossDue
    let c := ringBump (aonReset c senseGood pfN) 2
    let c := { c with clk := { c.clk with ref100 := ref100, ref156 := ref156 }, rst := { c.rst with lastKind := 0, time := now c } }
    let c := if lost then recordTransition c 7 7 0x02 0xFF else c
    recordTransition c 7 0 0x01 0xFF

/-- ALWAYS_ON_POWER_ON_RESET (R32, R493). -/
def execAlwaysOnPowerOnReset (senseGood pfN ref100 ref156 : Bool) (s : State) : Host.Outcome State Fault Refusal :=
  onDev s (fun d => if d.ctl.glb.mode == .off then { ctl := aonPor d.ctl senseGood pfN ref100 ref156, mem := { d.mem with dram := [], poison := [] } } else d)

/-- The backup domain takes over when HALT is 1 as the always-on supply goes (R448). -/
def rtcSupplyLoss (r : Rtc) : Rtc :=
  let held := { r with freezes := [], measRes := if r.measRes == .running then .supplyLost else r.measRes }
  if r.halt then { held with halt := false, halted := false, wrote := false, heldSec := none, heldFrac := none, oscStopped := true } else held

/-- The always-on supply is lost (R32, R62, R279, R431, R448, R525): OFF, without a save. A commit is cut after the given step of R429. -/
def aonLoss (c : Ctl) (cut : Option Nat) (torn : Bool) : Ctl :=
  if c.glb.mode == .off then c
  else
    let c := alcLoss (lossReport c) cut torn
    let c := onSvr c (fun s => { s with run := none, token := none })
    let c := onSeq { c with alc := alcKeep c.alc, rtc := rtcSupplyLoss c.rtc } (fun s => { railsLow s with running := .none, wait := .none })
    coreOff { c with
      glb := { c.glb with mode := .off, resetHeld := none, lossDue := true, restoring := false, promoting := false, inputGood100 := false }
      pf := Pf.reset, hold := Hold.reset, clk := Clk.reset, boot := { c.boot with flashOp := none, verifying := none } }

/-- DRAM loses its data. -/
def dramLost (m : Store) : Store := { m with dram := [], poison := [] }

/-- ALWAYS_ON_SUPPLY_LOSS (R32, R473, R474). -/
def execAlwaysOnSupplyLoss (cut : Option (Fin 7)) (tornRing : Bool) (s : State) : Host.Outcome State Fault Refusal :=
  onDev s (fun d =>
    if d.ctl.glb.mode == .off then d
    else let d := flashCut d true; { ctl := aonLoss d.ctl (cut.map (fun n => n.val)) tornRing, mem := dramLost d.mem })

/-- The backup domain has lost both supplies and returns (R439): its registers take their reset values, and the loss counts as never seen
(R493: only code 0x01 follows). -/
def backupPor (c : Ctl) : Ctl :=
  let c := aonLoss c none false
  onGlb { c with rtc := Rtc.reset } (fun g => { g with lossDue := false })

/-- BACKUP_DOMAIN_POWER_ON_RESET (R439). -/
def execBackupDomainPowerOnReset (s : State) : Host.Outcome State Fault Refusal :=
  onDev s (fun d => let d := flashCut d true; { ctl := backupPor d.ctl, mem := dramLost d.mem })

/-- RESET_N is asserted (R494): enables drop, a save stops, the Alcove commits what it holds, and the state is kept for the release. -/
def resetAssert (c : Ctl) : Ctl :=
  if !aonOn c then c
  else
    let m := c.glb.mode
    let c := ringDrain (alcDueFlush (commitBuf (commitUrgent (lossReport c))))
    let c := coreStop (onSeq (holdAbort c 4) (fun s => { railsLow s with running := .none, wait := .none, warm := false, downCode := 0, offPending := false }))
    let c := onHold (onSvr c (fun s => { s with run := none, token := none })) (fun h => { h with loadEn := false })
    emit (onGlb (onBoot c (fun b => { b with flashOp := none })) (fun g => { g with mode := .standby, resetHeld := some m })) (.rail 0)

/-- RESET_N_ASSERT (R494). -/
def execResetNAssert (s : State) : Host.Outcome State Fault Refusal :=
  onDev s (fun d => if aonOn d.ctl then let d := flashCut d false; { ctl := resetAssert d.ctl, mem := dramLost d.mem } else d)

/-- RESET_N is released (R41, R494): a start as after an always-on power-on reset, with FATAL and the trip kept. -/
def resetRelease (c : Ctl) (senseGood pfN : Bool) : Ctl :=
  match c.glb.resetHeld with
  | none => c
  | some m =>
    let k := c
    let c := aonReset c senseGood pfN
    let c := onGlb c (fun g => { g with fatal := k.glb.fatal })
    let c := onSeq c (fun s => { s with
      tripCode := k.seq.tripCode, tripProg := k.seq.tripProg, tripPc := k.seq.tripPc, tripRail := k.seq.tripRail, tripCause := k.seq.tripCause,
      tripTime := k.seq.tripTime, tripN := k.seq.tripN })
    let c := { c with clk := { c.clk with ref100 := k.clk.ref100, ref156 := k.clk.ref156 }, rst := { c.rst with lastKind := 1, time := now c } }
    recordTransition c (modeCode m) 0 0x05 0xFF

/-- RESET_N_RELEASE (R494). -/
def execResetNRelease (senseGood pfN : Bool) (s : State) : Host.Outcome State Fault Refusal := onCtl s (fun c => resetRelease c senseGood pfN)

/-! ## The ON request and stage 0 (R33, R361, R484) -/

/-- The conditions of an ON request (R33), in STANDBY with no program running. -/
def onReady (c : Ctl) : Bool :=
  c.glb.mode == .standby && aonOn c && c.seq.running == .none && c.alc.ready && c.pf.inputGood && c.glb.inputGood100 && !c.glb.fatal && !c.glb.minOff

/-- An ON request is accepted (R361): stage 0 runs, then UP; with no program it is withdrawn and the minimum off time runs. -/
def onRequestOp (d : Dev) (sfdpOk : Bool) (a b : SlotVerdict) : Dev :=
  if !onReady d.ctl then d
  else
    let (d, loaded) := stage0 { d with ctl := xspiWake d.ctl } sfdpOk a b
    let c := d.ctl
    if loaded then { d with ctl := upStart (onBoot c (fun b => { b with stage := .up })) false }
    else { d with ctl := onGlb (onBoot c (fun b => { b with stage := .idle })) (fun g => { g with minOff := true }) }

/-- ON_REQUEST (R361). -/
def execOnRequest (sfdpOk : Bool) (a b : SlotVerdict) (s : State) : Host.Outcome State Fault Refusal := onDev s (fun d => onRequestOp d sfdpOk a b)

/-! ## Stage 1 (R471, R483, R484) -/

/-- What stage 1 finds in a slot: 0 when it is valid. -/
def stage1Result (m : Store) (sl : Nat) (hash : Bool) : Nat := if !hash then 6 else contentResult m sl

/-- The boot code has its slot: wait states, sections and firmware (R471, R484). -/
def stage1Load (d : Dev) (sl mv : Nat) : Dev :=
  let c := loadImage (onSlot d.ctl sl (fun x => { x with result := 1 })) d.mem sl
  { d with ctl := onBoot (xspiSet (xspiWake c) d.mem sl mv) (fun b => { b with stage := .stage2, phase := .none }) }

/-- Stage 1 falls back to the other slot (R483). -/
def stage1Fall (d : Dev) (sl mv : Nat) : Dev :=
  let c := onBoot d.ctl (fun b => { b with fallback := true, runSlot := sl, lastSlot := sl, fbProg := powerProg d.mem sl })
  stage1Load { d with ctl := c } sl mv

/-- The header of a slot was found authentic in stage 0. -/
def slotAuth (c : Ctl) (sl : Nat) : Bool := (sl == 1 || sl == 2) && page0Auth c && !([2, 3, 4, 5].contains (slotSt c sl).result)

/-- BOOT_STAGE_1 (R484): a start that stage 0 found nothing for fails with its cause. -/
def stage1Op (d : Dev) (mv : Nat) (hashA hashB fcuOk : Bool) : Dev :=
  let c := d.ctl
  if c.glb.mode != .start || c.boot.stage != .stage1 || c.seq.running != .none then d
  else if !fcuOk then startFailOp d 0x30
  else if c.boot.cause0 != 0 then startFailOp d c.boot.cause0
  else
    let run := c.boot.runSlot
    let other := 3 - run
    let hash (sl : Nat) : Bool := if sl == 2 then hashB else hashA
    let res := stage1Result d.mem run (hash run)
    if res == 0 then stage1Load d run mv
    else
      let c := onSlot c run (fun x => { x with result := res })
      let res2 := stage1Result d.mem other (hash other)
      if !slotAuth c other then startFailOp { d with ctl := c } 0x04
      else if res2 == 0 then stage1Fall { d with ctl := c } other mv
      else startFailOp { d with ctl := onSlot c other (fun x => { x with result := res2 }) } 0x04

/-- BOOT_STAGE_1 (R484). -/
def execBootStage1 (vaonMv : Nat) (hashA hashB fcuOk : Bool) (s : State) : Host.Outcome State Fault Refusal :=
  onDev s (fun d => stage1Op d vaonMv hashA hashB fcuOk)

end Sys2Proof.Machine
end

