-- ==== Sys2Proof/Machine/PowerCmds.lean ====
section
/-! DEFINITION. Machine/PowerCmds.lean: the commands of the rail sequencer, of rail supervision, of the hold-up meter, of the power-fail detector and of the thermal sensors (R33, R241 to R244, R351 to R380, R387, R534). -/
namespace Sys2Proof.Machine

/-! ## Sequencer instructions (R357 to R360) -/

/-- The instruction END (R357). -/
def seqEndOp (d : Dev) : Dev :=
  match seqFetch d.ctl with
  | some .fin =>
    match d.ctl.seq.running with
    | .up => upEnd d
    | .down => { d with ctl := downEnd d.ctl }
    | _ => { d with ctl := seqStop d.ctl }
  | _ => d

/-- END (R357). -/
def execSeqEnd (s : State) : Host.Outcome State Fault Refusal := onDev s seqEndOp

/-- The instruction ENABLE (R358, R359): SAVE_SHED and TRIP drive nothing high. -/
def seqEnableOp (c : Ctl) : Ctl :=
  match seqFetch c with
  | some (.enable level mask) =>
    if level && (c.seq.running == .shed || c.seq.running == .trip) then seqNext (raiseF c 0x2C5 0x0F)
    else seqNext (railsDrive c level mask)
  | _ => c

/-- ENABLE (R358). -/
def execSeqEnable (s : State) : Host.Outcome State Fault Refusal := onCtl s seqEnableOp

/-- The instruction WAIT starts its wait (R358). -/
def seqWaitOp (c : Ctl) : Ctl :=
  match seqFetch c with
  | some (.wait _ _) => onSeq c (fun s => { s with wait := .wait })
  | _ => c

/-- WAIT (R358). -/
def execSeqWait (s : State) : Host.Outcome State Fault Refusal := onCtl s seqWaitOp

/-- A running WAIT ends (R358). -/
def waitExpiryOp (c : Ctl) : Ctl := if c.seq.running != .none && c.seq.wait == .wait then seqNext c else c

/-- WAIT_EXPIRY (R358). -/
def execWaitExpiry (s : State) : Host.Outcome State Fault Refusal := onCtl s waitExpiryOp

/-- The instruction CHECK (R359): a discharge check of a rail not driven since UP began completes at once. -/
def seqCheckOp (c : Ctl) : Ctl :=
  match seqFetch c with
  | some (.check r disch _) =>
    if disch && !(railAt c r).driven then seqNext c else onSeq c (fun s => { s with wait := .check r disch })
  | _ => c

/-- CHECK (R359). -/
def execSeqCheck (s : State) : Host.Outcome State Fault Refusal := onCtl s seqCheckOp

/-- A sample lies where the check wants it (R359). -/
def checkGood (c : Ctl) (r : Nat) (disch : Bool) (code : Nat) : Bool :=
  let t := railCfg c r
  if disch then code ≤ railDisch t else railUv t ≤ code && code ≤ railOv t

/-- The sample that completes a running check passes it; an up check arms the rail (R359). -/
def checkPassOp (c : Ctl) (code : Nat) : Ctl :=
  match c.seq.wait with
  | .check r disch =>
    let c := snsSample c (railVSns (railCfg c r)) code
    if checkGood c r disch code then
      seqNext (if disch then c else onRail c r (fun x => { x with armed := x.en }))
    else c
  | _ => c

/-- CHECK_PASS (R359). -/
def execCheckPass (code : BitVec 12) (s : State) : Host.Outcome State Fault Refusal :=
  onCtl s (fun c => checkPassOp c code.toNat)

/-- A running check times out (R359). -/
def checkTimeoutOp (c : Ctl) (code : Nat) : Ctl :=
  match c.seq.wait with
  | .check r disch =>
    let c := snsSample c (railVSns (railCfg c r)) code
    let c := if disch then raiseAt (onRail c r (fun x => { x with stuck := true })) 0x2C4 0 r 0xFF 0
      else raiseAt (onRail c r (fun x => { x with fail := true })) 0x2C3 0 r 0xFF 0
    seqNext c
  | _ => c

/-- CHECK_TIMEOUT (R359). -/
def execCheckTimeout (code : BitVec 12) (s : State) : Host.Outcome State Fault Refusal :=
  onCtl s (fun c => checkTimeoutOp c code.toNat)

/-- The instruction JUMP_IF (R359): a taken jump of UP to the DOWN entry point abandons UP. -/
def jumpIfOp (c : Ctl) : Ctl :=
  match seqFetch c, c.seq.prog with
  | some (.jumpIf cond neg target), some p =>
    if seqCond c cond != neg then
      if c.seq.running == .up && target == p.down then upAbandon c 0xFF
      else onSeq c (fun s => { s with pc := target })
    else seqNext c
  | _, _ => c

/-- JUMP_IF (R359). -/
def execJumpIf (s : State) : Host.Outcome State Fault Refusal := onCtl s jumpIfOp

/-- The PMBus transaction of the current instruction is sent, with a LEN that R358 does not list as it stands (DESIGN CHOICE, log entry 123). -/
def pmbusSend (c : Ctl) (tries : Nat) : Ctl :=
  match c.seq.prog with
  | some p =>
    match (p.words[c.seq.pc]?).bind seqDecode with
    | some (.pmbus addr cmd len data) =>
      emit (onSeq c (fun s => { s with wait := .pmbus tries })) (.pmbus addr cmd len (p.data.getD data 0))
    | _ => c
  | none => c

/-- The instruction PMBUS (R369). -/
def seqPmbusOp (c : Ctl) : Ctl :=
  match seqFetch c with
  | some (.pmbus _ _ _ _) => pmbusSend c 0
  | _ => c

/-- PMBUS (R369). -/
def execSeqPmbus (s : State) : Host.Outcome State Fault Refusal := onCtl s seqPmbusOp

/-- A failed transaction is counted (PWR_PMB_STATUS). -/
def pmbusCount (c : Ctl) (ack : Bool) (addr : Nat) : Ctl :=
  onSeq c (fun s => { s with nack := if ack then s.nack else satInc s.nack 0xFFFF,
                             pecErr := if ack then satInc s.pecErr 0xFFFF else s.pecErr, lastAddr := addr })

/-- A transaction of a PMBUS instruction ends: it is retried twice, then PMBUS_FAIL is set (R369). -/
def pmbusEndOp (c : Ctl) (ack pec : Bool) : Ctl :=
  match c.seq.wait, (c.seq.prog.bind (fun p => p.words[c.seq.pc]?)).bind seqDecode with
  | .pmbus tries, some (.pmbus addr _ _ _) =>
    if ack && (pec || !c.pwrImg.pmbPec) then seqNext c
    else
      let c := pmbusCount c ack addr
      if tries < 2 then pmbusSend c (tries + 1)
      else seqNext (raiseF (onSeq c (fun s => { s with pmbusFail := true })) 0x2C7 0)
  | _, _ => c

/-- PMBUS_TRANSACTION_END (R369). -/
def execPmbusTransactionEnd (ack : Bool) (pec : Bool) (s : State) : Host.Outcome State Fault Refusal :=
  onCtl s (fun c => pmbusEndOp c ack pec)

/-- The user flags after a MARK (R358). A flag named by both SET and CLR takes a free value: the spec does not say which prevails. -/
def markFlags (c : Ctl) (set clr : BitVec 4) : BitVec 4 :=
  let both := set &&& clr
  ((c.seq.user ||| set) &&& ~~~clr) ||| (both &&& (freeWord c).setWidth 4)

/-- The instruction MARK (R358). -/
def seqMarkOp (c : Ctl) : Ctl :=
  match seqFetch c with
  | some (.mark set clr v) => seqNext (useFree (onSeq c (fun s => { s with user := markFlags c set clr, mark := v })))
  | _ => c

/-- MARK (R358). -/
def execSeqMark (s : State) : Host.Outcome State Fault Refusal := onCtl s seqMarkOp

/-- The instruction WAITEV (R358): outside SAVE_SHED it completes at once. -/
def waitevOp (c : Ctl) : Ctl :=
  match seqFetch c with
  | some (.waitev ev _) =>
    if c.seq.running != .shed then seqNext c else onSeq c (fun s => { s with wait := .event (ev == 1) })
  | _ => c

/-- WAITEV (R358). -/
def execWaitev (s : State) : Host.Outcome State Fault Refusal := onCtl s waitevOp

/-- The EVENT field of the instruction at the program counter. -/
def waitevField (c : Ctl) : Option Nat :=
  match (c.seq.prog.bind (fun p => p.words[c.seq.pc]?)).bind seqDecode with
  | some (.waitev ev _) => some ev
  | _ => none

/-- The awaited event has occurred (R358): TWIN_QUIET when no link is held up after a departure (R201), HEADS_DOWN when every host link is
down (R53). An EVENT that R358 does not list never occurs (DESIGN CHOICE, log entry 123). -/
def waitevDone (c : Ctl) : Bool :=
  match waitevField c with
  | some 0 => !c.twin.holding
  | some 1 => (List.range 16).all (fun h => !(headAt c h).linkUp)
  | _ => false

def waitevEventOp (c : Ctl) : Ctl :=
  match c.seq.wait with
  | .event _ => if waitevDone c then seqNext c else c
  | _ => c

/-- WAITEV_EVENT (R358). -/
def execWaitevEvent (s : State) : Host.Outcome State Fault Refusal := onCtl s waitevEventOp

def waitevTimeoutOp (c : Ctl) : Ctl :=
  match c.seq.wait with
  | .event _ => seqNext (onSeq c (fun s => { s with evTimeout := true }))
  | _ => c

/-- WAITEV_TIMEOUT (R358). -/
def execWaitevTimeout (s : State) : Host.Outcome State Fault Refusal := onCtl s waitevTimeoutOp

/-- A program runs longer than SEQ_WDOG_MS (R359). -/
def seqWatchdogOp (c : Ctl) : Ctl :=
  if c.seq.running == .none then c
  else
    let which := c.seq.running
    let c := raiseF c 0x2C6 0x04
    let c := match which with
      | .up => upAbandon c 0xFF
      | .down => downEnd (railsDrive c false 0xFFFF)
      | _ => seqStop c
    onSeq c (fun s => { s with wdog := true })

/-- SEQ_WATCHDOG_EXPIRY (R359). -/
def execSeqWatchdogExpiry (s : State) : Host.Outcome State Fault Refusal := onCtl s seqWatchdogOp

/-! ## Power-fail triggers and OFF requests (R241 to R244, R362, R364) -/

/-- PWR_PF_STATUS and PWR_PF_TIME record a trigger. -/
def pfRecord (c : Ctl) (src : Nat) : Ctl :=
  onPf c (fun p => { p with triggers := (p.triggers + 1) % 2 ^ 16, lastSource := src, time := now c })

/-- A write of PWR_SEQ_CTRL.OFF (R362). -/
def offOp (c : Ctl) (ini : Nat) : Ctl :=
  if c.glb.fatal || (c.glb.mode == .standby && c.seq.running == .none) then illegal c ini
  else if c.glb.mode.service then saveBegin (pfRecord (holdAbort c 3) 3) 0x03 ini 0 0
  else if c.glb.mode == .save then saveDownAfter (onSeq c (fun s => { s with offPending := true }))
  else failDown c 0x42 0x4A ini

/-- OFF_REQUEST (R362). -/
def execOffRequest (ini : Byte) (s : State) : Host.Outcome State Fault Refusal :=
  onCtl s (fun c => regWrite c ini.toNat 0x600000 8 (fun c => offOp c ini.toNat))

/-- PF_SENSE falls below its threshold and the filter starts, unless the failure has already triggered (R241, R243). -/
def pfSenseLowOp (c : Ctl) : Ctl :=
  if !aonOn c then c
  else inputSettle (onPf c (fun p => { p with senseLow := true, senseGood := false, filtering := p.filtering || p.senseArmed }))

/-- PF_SENSE_LOW (R241). -/
def execPfSenseLow (s : State) : Host.Outcome State Fault Refusal := onCtl s pfSenseLowOp

/-- A dip ends before the filter: it is counted, and PF_GLITCH is raised at most once a second (R243). -/
def pfSenseRecoverOp (c : Ctl) : Ctl :=
  if !aonOn c then c
  else if c.pf.filtering then
    let quiet := match c.pf.lastGlitch with
      | some t => within t (now c) 65535
      | none => false
    let c := onPf c (fun p => { p with senseLow := false, filtering := false, glitches := satInc p.glitches 0xFFFF })
    if quiet then c else raiseF (onPf c (fun p => { p with lastGlitch := some (now c) })) 0x2CE 0
  else onPf c (fun p => { p with senseLow := false })

/-- PF_SENSE_RECOVER (R243). -/
def execPfSenseRecover (s : State) : Host.Outcome State Fault Refusal := onCtl s pfSenseRecoverOp

/-- The filter has run out: a power-fail trigger (R241). -/
def pfFilterOp (c : Ctl) : Ctl :=
  if aonOn c && c.pf.filtering then pfTrigger (onPf c (fun p => { p with filtering := false, senseArmed := false })) 1 else c

/-- PF_FILTER_EXPIRY (R241). -/
def execPfFilterExpiry (s : State) : Host.Outcome State Fault Refusal := onCtl s pfFilterOp

/-- PF_N falls: a power-fail trigger while PF_N_EN is 1 (R241, R243). -/
def pfNFallOp (c : Ctl) : Ctl :=
  if aonOn c && c.pf.pfN then
    let fire := c.pwrImg.pfNEn && c.pf.pfNArmed
    let c := inputSettle (onPf c (fun p => { p with pfN := false, pfNArmed := false }))
    if fire then pfTrigger c 2 else c
  else onPf c (fun p => { p with pfN := false })

/-- PF_N_FALL (R241). -/
def execPfNFall (s : State) : Host.Outcome State Fault Refusal := onCtl s pfNFallOp

/-- PF_N returns high (R243). -/
def pfNRiseOp (c : Ctl) : Ctl := inputSettle (onPf c (fun p => { p with pfN := true, pfNArmed := true }))

/-- PF_N_RISE (R243). -/
def execPfNRise (s : State) : Host.Outcome State Fault Refusal := onCtl s pfNRiseOp

/-- PF_SENSE counts as good again (R243). -/
def pfSenseGoodOp (c : Ctl) : Ctl :=
  if aonOn c then
    let c := if c.pf.filtering then pfSenseRecoverOp c else c
    inputSettle (onPf c (fun p => { p with senseLow := false, senseGood := true, senseArmed := true }))
  else c

/-- PF_SENSE_GOOD (R243). -/
def execPfSenseGood (s : State) : Host.Outcome State Fault Refusal := onCtl s pfSenseGoodOp

/-- The input bus has been good for 100 ms (R33). -/
def inputGoodOp (c : Ctl) : Ctl := if aonOn c && c.pf.inputGood then onGlb c (fun g => { g with inputGood100 := true }) else c

/-- INPUT_GOOD_TIMER_EXPIRY (R33). -/
def execInputGoodTimerExpiry (s : State) : Host.Outcome State Fault Refusal := onCtl s inputGoodOp

/-- The minimum off time has passed (R33). -/
def minOffOp (c : Ctl) : Ctl := onGlb c (fun g => { g with minOff := false })

/-- MIN_OFF_TIME_EXPIRY (R33). -/
def execMinOffTimeExpiry (s : State) : Host.Outcome State Fault Refusal := onCtl s minOffOp

/-! ## Supervision and trips (R353, R355, R365, R370) -/

/-- BLANK after its ENABLE a rail is running (R355). -/
def railBlankOp (c : Ctl) (r : Nat) : Ctl := onRail c r (fun x => { x with running := x.en })

/-- RAIL_BLANK_EXPIRY (R355). -/
def execRailBlankExpiry (rail : Fin 16) (s : State) : Host.Outcome State Fault Refusal :=
  onCtl s (fun c => railBlankOp c rail.val)

/-- A trip of a running rail (R365, R366): `kind` 0x0C, 0x0D, or 0x13 when its regulator reports it. -/
def tripRail (c : Ctl) (r code : Nat) (oc reported : Bool) : Ctl :=
  let kind := if reported then 0x13 else if oc then 0x0D else 0x0C
  let c := onRail c r (fun x => { x with lost := true })
  let c := raiseAt c (if oc then 0x2C1 else 0x2C0) kind r 0xFF 0
  tripReact c (1 + b2n oc + 2 * b2n reported) r code 0xFF

/-- The sample that completes a trip: beyond OV_CODE, or beyond OC_CODE with OC_EN 1, on a running rail (R365). -/
def railTripOp (c : Ctl) (r : Nat) (oc : Bool) (code : Nat) : Ctl :=
  let t := railCfg c r
  let c := snsSample c (if oc then railISns t else railVSns t) code
  if (railAt c r).running && (if oc then railOcEn t && decide (code > fieldOf t.cfg.toNat 27 16) else decide (code > railOv t)) then
    tripRail c r code oc false
  else c

/-- RAIL_TRIP (R365). -/
def execRailTrip (rail : Fin 16) (oc : Bool) (code : BitVec 12) (s : State) : Host.Outcome State Fault Refusal :=
  onCtl s (fun c => railTripOp c rail.val oc code.toNat)

/-- TRIP_SAMPLES samples below UV_CODE on an armed rail (R355, R367). -/
def railUvOp (c : Ctl) (r code : Nat) : Ctl :=
  let t := railCfg c r
  let c := snsSample c (railVSns t) code
  if (railAt c r).armed && code < railUv t then beginCond (onRail c r (fun x => { x with lost := true })) 0x2C2 0x0E r else c

/-- RAIL_UNDER_VOLTAGE (R355). -/
def execRailUnderVoltage (rail : Fin 16) (code : BitVec 12) (s : State) : Host.Outcome State Fault Refusal :=
  onCtl s (fun c => railUvOp c rail.val code.toNat)

/-- Each converter's reference reads within ±1 %, or ADC_FAULT holds (R353). -/
def adcCheckOp (c : Ctl) (railOk holdOk : Bool) : Ctl := if aonOn c then setCond c 0x2C9 0 0 (!(railOk && holdOk)) else c

/-- ADC_REFERENCE_CHECK (R353). -/
def execAdcReferenceCheck (railOk : Bool) (holdOk : Bool) (s : State) : Host.Outcome State Fault Refusal :=
  onCtl s (fun c => adcCheckOp c railOk holdOk)

/-- The running rails that a regulator's address and page serve (R370). -/
def railsOfReg (c : Ctl) (addr page : Nat) : List Nat :=
  (List.range 16).filter (fun r => let t := railCfg c r
    railPmbValid t && railPmbAddr t == addr && railPmbPage t == page && (railAt c r).running)

/-- A PMBus alert (R370): the answering address and page, its STATUS_WORD bits, and how the transactions ended. CLEAR_FAULTS (PMBus command 0x03, a
send byte) follows. -/
def pmbusAlertOp (c : Ctl) (addr page : Nat) (ov oc other : Bool) (res : PmbRes) : Ctl :=
  if !aonOn c then c
  else
    let c := onSeq c (fun s => { s with alerts := (s.alerts + 1) % 2 ^ 16 })
    if res == .nack || (res == .pec && c.pwrImg.pmbPec) then raiseF (pmbusCount c (res == .pec) addr) 0x2C7 0
    else
      let known := (List.range 16).any (fun r => railPmbValid (railCfg c r) && railPmbAddr (railCfg c r) == addr)
      let rails := railsOfReg c addr page
      let trips := !rails.isEmpty && (ov || oc)
      let c := if !known || other || ((ov || oc) && rails.isEmpty) then raiseF c 0x2C8 0x13 else c
      let c := emit c (.pmbus addr 0x03 0 0)
      match rails, trips with
      | r :: _, true => tripRail c r 0 (!ov) true
      | _, _ => c

/-- PMBUS_ALERT (R370). -/
def execPmbusAlert (addr : BitVec 7) (page : Byte) (ov : Bool) (oc : Bool) (other : Bool) (res : PmbRes) (s : State) :
    Host.Outcome State Fault Refusal :=
  onCtl s (fun c => pmbusAlertOp c addr.toNat page.toNat ov oc other res)

/-- MIN and MAX take the last sample (PWR_SNS). -/
def minmaxClrOp (c : Ctl) (ch : Nat) : Ctl := { c with sns := vmod c.sns ch (fun x => { x with min := x.code, max := x.code }) }

/-- MINMAX_CLR (R353). -/
def execMinmaxClr (ini : Byte) (ch : Fin 17) (s : State) : Host.Outcome State Fault Refusal :=
  onCtl s (fun c => regWrite c ini.toNat (0x600200 + 8 * ch.val) 8 (fun c => minmaxClrOp c ch.val))

/-! ## Hold-up meter (R372 to R378) -/

/-- A deferred measurement starts once its conditions hold (R376). -/
def holdStartOp (c : Ctl) : Ctl := if c.hold.deferred && c.hold.phase == .idle && holdReady c then holdBegin c else c

/-- HOLD_MEASUREMENT_START (R373). -/
def execHoldMeasurementStart (s : State) : Host.Outcome State Fault Refusal := onCtl s holdStartOp

/-- V0 is taken and the load goes on, or the bank has not settled (R373, steps 2 and 3). -/
def holdV0Op (c : Ctl) (v0 span : Nat) : Ctl :=
  if c.hold.phase == .settle then
    if span > 4 then holdFail c 9 else onHold c (fun h => { h with v0 := v0, loadEn := true, phase := .load })
  else c

/-- HOLD_V0_SAMPLE (R373). -/
def execHoldV0Sample (v0 : Nat) (span : Nat) (s : State) : Host.Outcome State Fault Refusal := onCtl s (fun c => holdV0Op c v0 span)

/-- The bank has drooped and the load goes off (R373, steps 4 and 5). -/
def holdDroopOp (c : Ctl) (v1 v2 dt : Nat) : Ctl :=
  if c.hold.phase == .load && v2 + c.pwrImg.droop ≤ c.hold.v0 then
    onHold c (fun h => { h with v1 := v1, v2 := v2, dt := dt, loadEn := false, phase := .recover })
  else c

/-- HOLD_DROOP_REACHED (R373). -/
def execHoldDroopReached (v1 : Nat) (v2 : Nat) (dtUs : Nat) (s : State) : Host.Outcome State Fault Refusal :=
  onCtl s (fun c => holdDroopOp c v1 v2 dtUs)

/-- The bank did not droop within 2 s (R373, step 4). -/
def holdDroopTimeoutOp (c : Ctl) : Ctl := if c.hold.phase == .load then holdFail c 5 else c

/-- HOLD_DROOP_TIMEOUT (R373). -/
def execHoldDroopTimeout (s : State) : Host.Outcome State Fault Refusal := onCtl s holdDroopTimeoutOp

/-- The measurement ends (R373 step 6, R374). -/
def holdEndOp (c : Ctl) (v3 : Nat) : Ctl :=
  if c.hold.phase != .recover then c
  else match holdResult c v3 with
    | .inr _ => ackNews (holdFinish c v3)
    | .inl _ => holdFinish c v3

/-- HOLD_MEASUREMENT_END (R374). -/
def execHoldMeasurementEnd (v3 : Nat) (s : State) : Host.Outcome State Fault Refusal := onCtl s (fun c => holdEndOp c v3)

/-- HOLD_MEASUREMENT_ABORT (R377). -/
def execHoldMeasurementAbort (powerFail : Bool) (s : State) : Host.Outcome State Fault Refusal :=
  onCtl s (fun c => holdAbort c (if powerFail then 3 else 4))

/-- A measurement is scheduled (R376). -/
def holdPeriodOp (c : Ctl) : Ctl := if c.glb.mode.service then holdRequest c else c

/-- HOLD_PERIOD_EXPIRY (R376). -/
def execHoldPeriodExpiry (s : State) : Host.Outcome State Fault Refusal := onCtl s holdPeriodOp

/-- A deferred measurement is tried again (R376). -/
def holdRetryOp (c : Ctl) : Ctl := if c.glb.mode.service && c.hold.deferred then holdRequest c else c

/-- HOLD_DEFER_RETRY (R376). -/
def execHoldDeferRetry (s : State) : Host.Outcome State Fault Refusal := onCtl s holdRetryOp

/-- VAULT.START still waits for the bank: for its first measurement, or for a db_hold that carries the dirty set (R376, R378). -/
def holdWaits (c : Ctl) : Bool :=
  c.glb.mode == .start && ((c.hold.inForce.isNone && c.hold.deferred) || decide (c.hold.dbHold * risersPerGib < dirtySet c))

/-- HOLD_CHARGE_WAIT passes (R376, R378). -/
def holdChargeOp (c : Ctl) : Ctl := if holdWaits c then raiseF c 0x2CD 0x04 else c

/-- HOLD_CHARGE_WAIT_EXPIRY (R378). -/
def execHoldChargeWaitExpiry (s : State) : Host.Outcome State Fault Refusal := onCtl s holdChargeOp

/-- The recomputation of every 10 ms (R375), which also starts a measurement deferred in VAULT.START (R376). -/
def holdRecomputeOp (c : Ctl) (code low : Nat) (steady : Bool) : Ctl :=
  if !aonOn c then c
  else
    let c := snsSample c 16 code
    let c := onHold c (fun h => { h with vBank := codeMv c code, settled := steady })
    let c := ackNews (recomputeEnergy c low)
    if c.glb.mode == .start then holdStartOp c else c

/-- HOLD_ENERGY_RECOMPUTE (R375). -/
def execHoldEnergyRecompute (code : BitVec 12) (low : Nat) (steady : Bool) (s : State) : Host.Outcome State Fault Refusal :=
  onCtl s (fun c => holdRecomputeOp c code.toNat low steady)

/-- A write of PWR_HOLD_CTRL.MEASURE (R376). -/
def measureOp (c : Ctl) (ini : Nat) : Ctl := if c.hold.phase != .idle then illegal c ini else holdRequest c

/-- MEASURE (R376). -/
def execHoldMeasure (ini : Byte) (s : State) : Host.Outcome State Fault Refusal :=
  onCtl s (fun c => regWrite c ini.toNat 0x600308 8 (fun c => measureOp c ini.toNat))

/-! ## Junction temperature (R387, R534) -/

/-- A junction reading of 100 °C in SERVICE starts throttling (R534). -/
def throttleStartOp (c : Ctl) : Ctl :=
  if c.glb.mode.service && !c.throttling then beginCond { c with throttling := true } 0x2D5 0x12 0 else c

/-- THERMAL_THROTTLE_START (R534). -/
def execThermalThrottleStart (s : State) : Host.Outcome State Fault Refusal := onCtl s throttleStartOp

/-- Throttling ends (R534). -/
def throttleEndOp (c : Ctl) : Ctl := if c.throttling then endCond { c with throttling := false } 0x2D5 else c

/-- THERMAL_THROTTLE_END (R534). -/
def execThermalThrottleEnd (s : State) : Host.Outcome State Fault Refusal := onCtl s throttleEndOp

/-- The junction has stayed above 105 °C for 100 ms (R387). -/
def thermalHighOp (c : Ctl) : Ctl := raiseF c 0x2D6 0x12

/-- THERMAL_HIGH (R387). -/
def execThermalHigh (s : State) : Host.Outcome State Fault Refusal := onCtl s thermalHighOp

/-- THERMAL_CRITICAL (R387). -/
def execThermalCritical (s : State) : Host.Outcome State Fault Refusal := onCtl s (fun c => raiseF c 0x2D7 0x12)

end Sys2Proof.Machine
end

