-- ==== Sys2Proof/Machine/Mount.lean ====
section
/-! DEFINITION. Machine/Mount.lean: the mount of the vault, its initialisation, and what the mount learns from the Alcove and the record area (R260 to R262, R280, R287, R288, R291, R302, R308, R313, R319 to R322, R427). -/
namespace Sys2Proof.Machine

/-! ## The vault's geometry and its record (R287, R288, R291, R321) -/

/-- The geometry found on the media takes effect (R288). -/
def geomSet (v : Vlt) (p : MountProbe) : Vlt :=
  { v with targets := p.targets, lunsPer := p.lunsPer, planes := p.planes, blocksPer := p.blocksPer, wordlines := p.wordlines, lunGb := p.lunGb,
           nPe := p.nPe, tSlc := p.tSlcNs, tTlc := p.tTlcUs }

/-- The geometry as the VAULT record holds it (R321). -/
def geomOf (p : MountProbe) : List Nat := [p.targets, p.lunsPer, p.planes, p.blocksPer, p.wordlines, p.lunGb]

/-- The population of R287. -/
def populationOk (p : MountProbe) : Bool := p.uniform && [1, 2, 4].contains p.targets && [1, 2, 4, 8].contains p.lunsPer

/-- The VAULT record. -/
def vaultRecOf (c : Ctl) : Option VaultRec :=
  match recOf c 0x01 with
  | some (.vault v) => some v
  | _ => none

/-- What the mount does with the vault it finds (R321, R322, R427). -/
inductive MountPlan where
  | fail (cause : Nat)
  /-- The VAULT record names this vault. -/
  | known
  /-- A vault with valid headers is taken over and its record rebuilt. -/
  | adopt
  | init
  deriving DecidableEq, Repr

def mountPlan (c : Ctl) (p : MountProbe) : MountPlan :=
  if !populationOk p then .fail 1
  else match vaultRecOf c with
    | some v => if v.geom == geomOf p then .known else .fail 2
    | none =>
      if (slotAt c 0x01).isDamaged && !c.img.vaultAdopt then .fail 7
      else if p.foreign then (if c.img.vaultAdopt then .adopt else .fail 3)
      else .init

/-- The installed DRAM in bytes. -/
def dramBytes (c : Ctl) : Nat := 32 * c.dimm.capGib * 2 ^ 30

/-- The vault is too small to be initialised (R291): its archive, or a LUN's spares after its factory bad blocks. -/
def tooSmall (c : Ctl) : Bool := decide (10 * archBytes c.vlt < 16 * dramBytes c) || (List.range (lunCount c.vlt)).any (fun l => decide (spareCount c.vlt l < 16))

/-- The DIMM organisation found by training: that of the first channel (R136). -/
def dimmsFound (c : Ctl) : List Nat := let x := dchAt c 0; [x.cap, x.die, x.ranks, x.stack]

/-- The VAULT record is committed (R136, R321). -/
def vaultRecSet (c : Ctl) (p : MountProbe) : Ctl :=
  recSync c 0x01 (.vault { id := c.vlt.vaultId, geom := geomOf p, recArea := (List.range 4).map (fun i => (recBlkAt c.vlt i).key), dimms := dimmsFound c })

/-- A fresh initialisation lifts the fences of the vault's LUNs and channels (R316, R405). -/
def vaultUnfence (c : Ctl) : Ctl :=
  { c with fcu := { c.fcu with
    unit := c.fcu.unit.map (fun x => if 0x28 ≤ x.1 then (x.1, { x.2 with fenced := false }) else x)
    windows := c.fcu.windows.filter (fun w => match winUnit w.ev with | some u => decide (u < 0x28) | none => true) } }

/-- First initialisation (R290, R321): an empty archive and landing, every hall unassigned at its preferred home. The map's copies are dirty (R255). -/
def vaultInit (c : Ctl) (p : MountProbe) : Ctl :=
  let halls : Tbl Hall := (List.range (hallCount c)).map (fun k => (k, { Hall.fresh with home := prefSide c k == c.twin.side }))
  let roles : Tbl Nat := ((List.range (lunCount c.vlt)).flatMap (factoryRoles c.vlt)).foldl (fun t x => tset t x.1 x.2) []
  let used (k : Nat) : Block := { Block.fresh (zoneOf c.vlt (k / 65536) (k % 65536)) with erased := now c }
  let bad : Tbl Block := c.vlt.badFactory.foldl (fun t k => tset t k { (used k) with bad := true }) []
  let c := onVlt c (fun v => { v with
    vaultId := p.newId, initTime := now c, badGrown := 0, luns := [], blocks := roles.foldl (fun t x => tset t x.2 (used x.1)) bad, log := [], bases := [], nextAsn := 0, nextSlab := 0, nextLun := 0,
    roles := roles, recArea := recAreaFresh { v with roles := roles }, recCurA := false, recCurB := false
    ckptBytes := 0, ckptSeq := 1, ckptTime := now c, summaries := [], buckets := List.replicate 96 0, esn := (lunCount v * v.blocksPer - v.badFactory.length + 254) / 255, batch := [], eraseQ := [] })
  let c := onSvr c (fun s => { s with
    saves := [], live := [], nextUnit := 0, landSaves := 0, reserve := landUnits c.vlt, landStripe := none, missing := [], lostRisers := [], reportDue := [], unsettled := []
    unsettledOvf := false })
  let maps (g : Nat) : List Nat := (List.range ((hallCount c + 31) / 32)).map (fun i => riserNo (mapAddr g (32 * i)))
  let c := [0, 4].foldl (fun c g => onGal c g (fun x => { x with dirty := (maps g).foldl sins x.dirty }))
    { c with halls := halls, lds := c.lds.map (fun d => { Ld.reset with decoders := d.decoders, msixMask := d.msixMask, msixPend := d.msixPend }) }
  let c := recSync c 0x02 (.landing (landingRec c))
  let c := recSync c 0x04 (.erase c.vlt.esn [])
  raiseF (vaultRecSet (vaultUnfence c) p) 0x277 0

/-! ## Fences at the mount (R288, R316) -/

/-- A LUN is out of use: its state and its unit show it. -/
def lunOut (c : Ctl) (l : Nat) : Ctl :=
  onUnit (onLun c l (fun x => { x with fenced := true, op := none, openBlock := none, openWl := 0 })) (0x40 + l) (fun x => { x with fenced := true })

/-- A LUN whose parameter page is unreadable is fenced (R288). -/
def lunUnread (c : Ctl) (l : Nat) : Ctl :=
  if (lunAt c.vlt l).fenced then c else raiseAt (lunOut c l) (srcVch (l % 16) 4) 0 (vaddrK c (blockKey l 0)) 0xFF 0

/-- A channel trains at the rate found, or is fenced (R288). -/
def chanTrain (c : Ctl) (ch rate : Nat) : Ctl :=
  if (vget c.vlt.chans ch Vch.reset).fenced then onVch c ch (fun x => { x with rate := 0 })
  else if rate == 0 then raiseAt (onVch c ch (fun x => { x with fenced := true, rate := 0 })) (srcVch ch 5) 0 0 0xFF 0
  else onVch c ch (fun x => { x with rate := Nat.min rate (c.img.vaultRate / 100) })

/-- The LUNs and channels as the mount finds them; those fenced before stay fenced and their units show it (R316, R405). -/
def mountUnits (c : Ctl) (p : MountProbe) : Ctl :=
  let c := (p.badLuns.map (fun l => l.val)).foldl lunUnread c
  let c := (List.range 16).foldl (fun c ch => chanTrain c ch (p.rates.getD ch 0)) c
  let shown (c : Ctl) (u : Nat) : Ctl := onUnit c u (fun x => { x with fenced := true })
  let c := (List.range 16).foldl (fun c ch =>
    if (vget c.vlt.chans ch Vch.reset).fenced then (lunsOf c ch).foldl (fun c l => shown c (0x40 + l)) (shown c (0x28 + ch)) else c) c
  c.vlt.luns.foldl (fun c x => if x.2.fenced then shown c (0x40 + x.1) else c) c

/-- The system area, or both copies of the record area, lie on fenced LUNs (R322). -/
def areasFenced (c : Ctl) : Bool :=
  (List.range 16).all (lunFenced c) || (List.range 4).all (fun i => lunFenced c ((recBlkAt c.vlt i).key / 65536))

/-! ## Erase intent and headers (R318, R319, R427) -/

/-- A block is erased again and its header programmed (R319). -/
def eraseAgain (c : Ctl) (k : Nat) : Ctl :=
  let c := onVlt c (fun v => { v with redone := satInc v.redone 0xFFFFFFFF })
  let c := onBlock c k (fun b => { b with pe := b.pe + 1, esn := c.vlt.esn, closed := false, refresh := false, level := false, headerOk := true, time := 0, erased := now c })
  raiseAt c 0x24F 0 (vaddrK c k) 0xFF 0

/-- The batch that ERASE_INTENT lists is repeated; after a damaged record every header is checked at once (R319, R427). -/
def mountErase (c : Ctl) (p : MountProbe) : Ctl :=
  let bad := p.badHeaders.map (fun x => blockKey x.1.val x.2.toNat)
  let damaged := (slotAt c 0x04).isDamaged
  let listed := match recOf c 0x04 with | some (.erase _ l) => l | _ => []
  let c := listed.foldl eraseAgain c
  let c := if damaged then bad.foldl eraseAgain (raiseAt c 0x2E3 0 (0x8000 + (recPlace 4).1) 0xFF 0)
    else (bad.filter (fun k => !listed.contains k)).foldl (fun c k =>
      if (blockAt c.vlt k).use == 2 then eraseAgain c k else onBlock c k (fun b => { b with headerOk := false })) c
  let c := onVlt c (fun v => { v with batch := [], eraseQ := v.eraseQ.filter (fun k => !listed.contains k) })
  if damaged || !listed.isEmpty then recSync c 0x04 (.erase c.vlt.esn []) else c

/-! ## The record area (R260 to R262, R280, R302) -/

/-- The record area lies where the VAULT record says (R294). -/
def recAreaLoad (c : Ctl) (keys : List Nat) : Ctl :=
  if keys.length != 4 then c
  else onVlt c (fun v => { v with recArea := keys.map (fun k => (v.recArea.find? (fun b => b.key == k)).getD { key := k, page := 0 }) })

/-- Copies of a save record that are unreadable or lie on fenced LUNs are not valid (R260). -/
def mountRecords (c : Ctl) (bad : List Nat) : Ctl :=
  let ok (r : SaveRec) (k : Nat) : Bool := !bad.contains r.seq && !lunFenced c (k / 65536)
  onSvr c (fun s => { s with saves := s.saves.map (fun r => { r with copyA := r.copyA && ok r r.blkA, copyB := r.copyB && ok r r.blkB }) })

/-- The valid record with the highest SAVE_SEQ (R260). -/
def newestValid (c : Ctl) : Option SaveRec :=
  (c.svr.saves.filter (fun s => s.copyA || s.copyB)).foldl (fun best s => match best with
    | some b => if s.seq > b.seq then some s else best
    | none => some s) none

def validSeq (c : Ctl) (q : Nat) : Bool := c.svr.saves.any (fun s => s.seq == q && (s.copyA || s.copyB))

/-- A record of the landing that is not there is rebuilt; a damaged one says so (R427). -/
def rebuildRaise (c : Ctl) (id : Nat) : Ctl := if (slotAt c id).isDamaged then raiseAt c 0x2E3 0 (0x8000 + (recPlace id).1) 0xFF 0 else c

/-- The LANDING record, rebuilt from the record area where it is absent or damaged (R261, R427). -/
def mountLanding (c : Ctl) : Ctl :=
  match recOf c 0x02 with
  | some (.landing v) =>
    let behind := ((newestValid c).map (fun r => decide (v.newest < r.seq))).getD false
    let live := if behind then ((newestValid c).elim [] (fun r => [r.pred, r.seq])).filter (fun q => q != 0) else v.live
    let c := onSvr c (fun s => { s with live := live.filter (validSeq c), landSaves := if behind then v.saves + 1 else v.saves, landStripe := none })
    if behind then landingSet c else c
  | _ =>
    let s := newestValid c
    let live := match s with | some r => [r.pred, r.seq].filter (validSeq c) | none => []
    let next := match s with | some r => (r.units.getLast?.map (fun u => (u + 1) % landUnits c.vlt)).getD 0 | none => 0
    let c := onSvr (rebuildRaise c 0x02) (fun x => { x with live := live, nextUnit := next, reserve := 0, landStripe := none, landSaves := x.saves.length })
    landingSet c

/-- The SAVE_ATTEMPT record (R261, R280, R427): an attempt without a record is a save that never committed. -/
def mountAttempt (c : Ctl) : Ctl :=
  let top := ((newestValid c).map (fun s => s.seq)).getD 0
  match recOf c 0x03 with
  | some (.attempt a) => if a.seq > top then raiseF c 0x2CF 0 else c
  | _ =>
    match newestValid c with
    | some s => recSync (rebuildRaise c 0x03) 0x03 (.attempt { seq := s.seq, cause := s.cause, time := s.tTrigger })
    | none => rebuildRaise c 0x03

/-- SVR_STATUS, SVR_SAVE_SEQ, SVR_SAVE_TIME and SVR_SAVE_STATS show the newest valid record (R501). -/
def mountStatus (c : Ctl) : Ctl :=
  match newestValid c with
  | none => c
  | some r =>
    let same := c.svr.lastSeq == r.seq
    onSvr c (fun s => { s with
      lastCause := r.cause, lastSeq := r.seq, lastTime := r.tTrigger, lastIncomplete := r.incomplete, lastUnits := Nat.min (r.units.length + 1) 0x1FFFFFF
      unsettled := r.unsettled, unsettledOvf := r.unsettledOvf
      durationMs := if same then s.durationMs else Nat.min (msBetween r.tTrigger r.tRecord) 0xFFFF
      cutoffNs := if same then s.cutoffNs else Nat.min ((tsUnits r.tCutoff - tsUnits r.tTrigger) * 1000000000 / 65536) 0xFFFF })

/-- The highest ASN among the archive's copies, plus 1 (R302, R308). -/
def asnFound (v : Vlt) : Nat :=
  v.bases.foldl (fun n x => Nat.max n (x.2.asn + 1)) (v.log.foldl (fun n x => Nat.max n (x.2.asn + 1)) 0)

/-- The allowance window ages over a cold start by the time since the checkpoint, not while the time is untrusted (R313). -/
def windowAge (c : Ctl) : Ctl :=
  if c.boot.warm || c.rtc.oscStopped then c
  else
    let n := (tsUnits (now c) - tsUnits c.vlt.ckptTime) / (900 * 65536)
    onVlt c (fun v => { v with buckets := (List.replicate (Nat.min n 96) 0 ++ v.buckets).take 96 })

/-! ## The mount -/

/-- A mount fails (R322): MOUNT_FAIL, and the start fails. -/
def mountFail (d : Dev) (cause : Nat) : Dev :=
  startFailOp { d with ctl := raiseF (onVlt d.ctl (fun v => { v with mount := 4, failCause := cause })) 0x247 0 } 0x20

/-- The vault is mounted once its population and record are settled: fences, checkpoint, erase intent, record area and rates. -/
def mountRest (d : Dev) (p : MountProbe) (fresh : Bool) : Dev :=
  let c := mountUnits d.ctl p
  if areasFenced c then mountFail { d with ctl := c } 6
  else if !fresh && !p.ckptOk && !p.olderCkpt then mountFail { d with ctl := c } 4
  else
    let c := if !fresh && !p.ckptOk then raiseF c 0x26F 0x02 else c
    let c := recAreaMend (mountRecords (mountErase c p) p.badRecords)
    let c := windowAge (mountStatus (mountAttempt (mountLanding c)))
    let cut := ((newestValid c).map (fun s => s.asnCut)).getD 0
    let c := onVlt c (fun v => { v with nextAsn := Nat.max (asnFound v) cut, mount := 2, failCause := 0 })
    let c := paceSet (wearConds (rSaveSet c))
    { d with ctl := onSvr (onBoot c (fun b => { b with phase := .index })) (fun s => { s with restorePhase := 2 }) }

/-- VAULT_MOUNT (R320). -/
def mountOp (d : Dev) (p : MountProbe) : Dev :=
  let c := d.ctl
  if c.glb.mode != .start || c.boot.stage != .stage2 || c.boot.phase != .mounting then d
  else match mountPlan c p with
    | .fail n => mountFail d n
    | .known =>
      let c := recAreaLoad c (((vaultRecOf c).map (fun r => r.recArea)).getD [])
      mountRest { d with ctl := onVlt c (fun v => { geomSet v p with vaultId := ((vaultRecOf c).map (fun r => r.id)).getD v.vaultId }) } p false
    | .adopt => mountRest { d with ctl := vaultRecSet (onVlt c (fun v => geomSet v p)) p } p false
    | .init =>
      let c := onVlt c (fun v => { geomSet v p with badFactory := p.factoryBad.foldl (fun l x => sins l (blockKey x.1.val x.2.toNat)) [] })
      if tooSmall c then mountFail { d with ctl := c } 5
      else mountRest { ctl := vaultInit (onVlt c (fun v => { v with chans := Vector.replicate 16 Vch.reset })) p, mem := d.mem } p true

/-- VAULT_MOUNT (R320). -/
def execVaultMount (p : MountProbe) (s : State) : Host.Outcome State Fault Refusal := onDev s (fun d => mountOp d p)

end Sys2Proof.Machine
end

