-- ==== Sys2Proof/Machine/Start.lean ====
section
/-! DEFINITION. Machine/Start.lean: stage 2 of a start, failed starts, warm resets and their token (R34, R35, R134 to R137, R208, R227, R236, R257, R266 to R269, R276 to R281, R484 to R489, R495). -/
namespace Sys2Proof.Machine

/-! ## Training and the hall count (R17 to R19, R134, R136, R208) -/

/-- The galleries that do not keep their DRAM in this start. -/
def coldGals (c : Ctl) : List Nat := (List.range 8).filter (fun g => !c.svr.warmGals.contains g)

/-- The channels of the cold galleries begin to train (R134). -/
def stage2Train (c : Ctl) : Ctl :=
  let c := if c.svr.warmGals.isEmpty then { c with dimm := { c.dimm with rate := rateCode c.img.dramRate } } else c
  let c := (coldGals c).foldl (fun c g => (List.range 4).foldl (fun c i => onDch c (4 * g + i) (fun x => { x with result := 1 })) c) c
  onBoot c (fun b => { b with phase := .training })

/-- Every channel has been trained. -/
def trainingDone (c : Ctl) : Bool := c.dchs.all (fun x => x.result != 1)

/-- The DIMM organisation of the device: that of the VAULT record, or what all 32 DIMMs agree on (R136). -/
def dimmOrg (c : Ctl) : Option (List Nat) :=
  match dimmRecord c with
  | some l => some l
  | none => if c.dchs.all (fun x => [x.cap, x.die, x.ranks, x.stack] == dimmsFound c && x.cap != 0) then some (dimmsFound c) else none

/-- Hall capacity of a gallery whose DIMMs have this organisation (R17 to R19). -/
def dimmSet (c : Ctl) (l : List Nat) : Ctl :=
  let cap := l.getD 0 0
  { c with dimm := { c.dimm with
    capGib := cap, rb := (orgRb cap (l.getD 1 0) (l.getD 2 0) (l.getD 3 0)).getD 0, perGal := 31 * 4 * cap / 32 } }

/-- The preference map: HOME_PREF, or the default rule in the same layout (R208). -/
def prefBytes (c : Ctl) : List Byte := c.pair.prefMap.getD (List.replicate ((hallCount c + 7) / 8) 0xAA)

/-- HOME_PREF fits the hall count (R479, R487). -/
def prefFits (c : Ctl) : Bool :=
  match c.pair.prefMap with
  | none => true
  | some m => m.length == (hallCount c + 7) / 8 && (hallCount c % 8 == 0 || (m.getLast?.getD 0).toNat < 2 ^ (hallCount c % 8))

/-- Training has ended: the START frame runs (R150). The hall count is known: the preference map is checked and the mount begins (R208, R266). -/
def stage2Halls (d : Dev) : Dev :=
  match dimmOrg d.ctl with
  | none => startFailOp d 0x11
  | some l =>
    let c := dimmSet d.ctl l
    if !prefFits c then startFailOp { d with ctl := c } 0x05
    else
      let c : Ctl := { c with gals := c.gals.map (fun g => if g.fenced then g else { g with frame := 1 }) }
      let c := onPair c (fun p => { p with prefCrc := BitVec.ofNat 32 (crc32c (prefBytes c)) })
      let c := onVlt (onBoot c (fun b => { b with phase := .mounting })) (fun v => { v with mount := 1, failCause := 0 })
      { d with ctl := onSvr c (fun s => { s with restorePhase := 1 }) }

/-! ## The live saves' streams (R163, R257, R258, R266 to R269, R281) -/

/-- The newest live save. -/
def newestLive (c : Ctl) : Option SaveRec := (liveSaves c).getLast?

/-- What this start cannot use of the live saves (R163, R281): galleries whose part is incomplete, or whose EXTRACT or UNITMAP units cannot be read.
An entry of `bad` names a gallery of the newest live save, or, with true, of its predecessor. -/
def partsSkipped (c : Ctl) (bad : List (Bool × Nat)) : List (Nat × Nat) :=
  let of' (s : SaveRec) (pred : Bool) : List (Nat × Nat) :=
    ((coldGals c).filter (fun g => s.incomplete.contains g || bad.contains (pred, g))).map (fun g => (s.seq, g))
  match liveSaves c with
  | [p, n] => of' p true ++ of' n false
  | [n] => of' n false
  | _ => []

/-- An incomplete gallery (R163, R281): with a partner to come its halls wait for it, otherwise they are served from the archive and reported. What
a separated device lost is reported whether or not a partner comes (R62, R63; log entry 117). -/
def galPart (c : Ctl) (g : Nat) : Ctl :=
  if galFenced c g then c
  else
    let owed (c : Ctl) : Ctl := onSvr c (fun s => { s with reportDue := (galOwners c g).foldl sins s.reportDue })
    let solo := (newestLive c).any (fun n => n.fromSt == 9 && c.svr.skipParts.contains (n.seq, g))
    if c.pair.paired then
      let c := onUnit (onGal c g (fun x => { x with fenced := true, fenceCause := 0, frame := 3 })) (0x10 + g) (fun x => { x with fenced := true })
      if solo then owed c else c
    else owed c

/-- Flights from the first unreadable one on are torn: they are not replayed and R63 applies (R281). -/
def flightsTorn (c : Ctl) (bad : Option Nat) : Ctl :=
  match newestLive c, bad with
  | some n, some k =>
    let ldsOf (f : FlightRec) : List Nat :=
      f.segs.flatMap (fun s => (((hallAt c (hallOf s.dst)).sharers).filter (fun x => x.here)).map (fun x => x.ld))
    onSvr c (fun s => { s with flightCut := some k, reportDue := ((n.flights.drop k).flatMap ldsOf).foldl sins s.reportDue })
  | _, _ => c

/-- The hall map as a start brings it back (R257, R269, R281): a map that a warm reset kept, or that the first
initialisation has just made, stays; otherwise it is that of the MAP stream of the
newest live save, or of the restored copies when no save is live or the stream cannot be read; an entry without a copy is 0 (R270). -/
def mapLoad (d : Dev) (badMap : Bool) : Dev :=
  if !d.ctl.halls.isEmpty then metaRestore d (coldGals d.ctl) false
  else
    let ents := if badMap then [] else ((newestLive d.ctl).map (fun n => n.map)).getD []
    let blank := { d.ctl with halls := [] }
    let c := (List.range (hallCount d.ctl)).foldl (fun c k => mapEntIn c k (mapEntOfWord 0)) blank
    let d := metaRestore { d with ctl := c } (coldGals d.ctl) ents.isEmpty
    { d with ctl := (withIndex ents).foldl (fun c x => mapEntIn c x.1 x.2) d.ctl }

/-- The dirty table of a cold gallery holds every riser that a live save holds (R269). -/
def dirtyRebuild (c : Ctl) (g : Nat) : Ctl :=
  let rs := ((liveSaves c).flatMap (fun s => s.data.map (fun x => x.riser))).filter (fun r => galOf c (r * 256) == g)
  onGal c g (fun x => { x with dirty := rs.foldl sins x.dirty, cache := [] })

/-- Every tread of a warm gallery. -/
def galTreads (c : Ctl) (g : Nat) : List Nat := (hallsOfGal c g).flatMap hallTreads

/-- The separation that CHANGED carries (R227, R258), with the adds and releases made in it (R228, log entry 116), reloaded where no gallery kept its own. -/
def changedLoad (c : Ctl) : Ctl :=
  match newestLive c with
  | some n => if c.svr.warmGals.isEmpty then onPair c (fun p => { p with changed := n.changed, stale := n.staleMap.getD TreadSet.empty, staleGot := [], soloOps := n.soloOps }) else c
  | none => c

/-- The treads whose newest copy lies in a live predecessor are loaded (R268). One with lost risers waits for pairing while a partner may come, which
supplies them or not (R281). -/
def predLoad (d : Dev) : Dev :=
  (predTreads d.ctl).foldl (fun d t => if d.ctl.pair.paired && !(lostIn d.ctl t).isEmpty then d else treadEnsure d t) d

/-- Steps 5 to 8 of R266: the streams of the live saves are read and what they hold takes effect; pairing begins. -/
def stage2Index (d : Dev) (bad : List (Bool × Nat)) (badMap : Bool) (badFlight : Option Nat) : Dev :=
  let c := onSvr d.ctl (fun s => { s with skipParts := partsSkipped d.ctl bad })
  let ue := (newestLive c).isSome && (badMap || badFlight.isSome || !bad.isEmpty)
  let c := if ue then raiseAt (useFree c) 0x2D2 0x02 (freeNat c % 2 ^ 32) 0x52 0xB else c
  let d := mapLoad { d with ctl := c } badMap
  let c := ((d.ctl.svr.skipParts.map (fun x => x.2)).eraseDups).foldl galPart d.ctl
  let c := (coldGals c).foldl dirtyRebuild (flightsTorn c badFlight)
  let c := onSvr c (fun s => { s with unrestored := { all := true, xs := (s.warmGals.flatMap (galTreads c)).foldl sins [] } })
  let d := predLoad { d with ctl := onSvr (changedLoad c) (fun s => { s with restorePhase := 3 }) }
  let c := onBoot d.ctl (fun b => { b with phase := .pairing })
  let c := helloSend (onSvr c (fun s => { s with restorePhase := 5 }))
  let d : Dev := { d with ctl := c }
  if !c.pair.paired then soloStart d 0 0 else if c.boot.pairWaitOver then soloStart d 5 5 else d

/-- Stage 2 goes on to its next step (R266). -/
def stage2Op (d : Dev) (badGals : List (Bool × Nat)) (badMap : Bool) (badFlight : Option Nat) : Dev :=
  let c := d.ctl
  if c.glb.mode != .start || c.boot.stage != .stage2 || c.seq.running != .none then d
  else match c.boot.phase with
    | .none => { d with ctl := stage2Train c }
    | .training => if trainingDone c then stage2Halls d else d
    | .index => stage2Index d badGals badMap badFlight
    | _ => d

/-- BOOT_STAGE_2 (R266): at the step that reads the streams of the live saves, `badGals` are galleries whose EXTRACT or UNITMAP units cannot
be read, of the newest or, with true, of its predecessor, `badMap` says the same of MAP, and `badFlight` is the first flight that cannot be read (R281). -/
def execBootStage2 (badGals : List (Bool × Fin 8)) (badMap : Bool) (badFlight : Option Nat) (s : State) : Host.Outcome State Fault Refusal :=
  onDev s (fun d => stage2Op d (badGals.map (fun g => (g.1, g.2.val))) badMap badFlight)

/-! ## Failed starts (R35, R487) -/

/-- A start in VAULT.START that no DOWN is ending. -/
def starting (c : Ctl) : Bool := c.glb.mode == .start && c.seq.running != .down

/-- The causes of R487. -/
def failCauses : List Nat := [1, 2, 3, 4, 5, 6, 0x10, 0x11, 0x20, 0x30, 0x31, 0x40, 0x41]

/-- START_FAIL (R487). -/
def execStartFail (cause : Byte) (s : State) : Host.Outcome State Fault Refusal :=
  onDev s (fun d => if starting d.ctl && failCauses.contains cause.toNat then startFailOp d cause.toNat else d)

/-- START_MAX_EXPIRY (R487). -/
def execStartMaxExpiry (s : State) : Host.Outcome State Fault Refusal := onDev s (fun d => if starting d.ctl then startFailOp d 0x40 else d)

/-- STEWARD_WATCHDOG_EXPIRY (R487): the firmware runs from stage 2 on. -/
def execStewardWatchdogExpiry (s : State) : Host.Outcome State Fault Refusal :=
  onDev s (fun d => if starting d.ctl && d.ctl.boot.stage == .stage2 then startFailOp d 0x41 else d)

/-- BOOT_STABLE_TIME_EXPIRY (R35). -/
def execBootStableTimeExpiry (s : State) : Host.Outcome State Fault Refusal :=
  onCtl s (fun c => if c.glb.mode.service then ringPut c 0 0 else c)

/-! ## Warm resets (R276 to R279, R363, R495, R496) -/

/-- A rail with CORE set, or one that serves a gallery, has left regulation since the token was issued (R277). -/
def coreRailLost (c : Ctl) : Bool := (List.range 16).any (fun r => railCore (railCfg c r) && (railAt c r).lost)
def galRailLost (c : Ctl) (g : Nat) : Bool := (List.range 16).any (fun r => bitOf (railGals (railCfg c r)) g && (railAt c r).lost)

/-- The token names the newest valid save and no CORE rail was lost (R277). -/
def tokenGood (c : Ctl) : Bool := (c.svr.token.any (fun t => (newestValid c).any (fun s => s.seq == t.seq))) && !coreRailLost c

/-- The galleries that pass the checks of R277; `bad` are those whose self-refresh exit, nonce, CRC or serial numbers fail. -/
def tokenGals (c : Ctl) (bad : List Nat) : List Nat :=
  if tokenGood c then (List.range 8).filter (fun g => !bad.contains g && !galRailLost c g) else []

/-- The token is checked and consumed (R277, R279). -/
def tokenCheck (c : Ctl) (bad : List Nat) : Ctl :=
  let warm := tokenGals c bad
  let fail := (List.range 8).filter (fun g => !warm.contains g)
  let st := if !tokenGood c then 4 else if fail.isEmpty then 2 else 3
  let c := onSvr c (fun s => { s with token := none, tokenState := st, warmGals := warm, failGals := fail })
  if fail.isEmpty then c else raiseF c 0x2D4 0

/-- A gallery that starts cold gives up its DRAM, its dirty table and its training (R278, R501). -/
def galCold (d : Dev) (g : Nat) : Dev :=
  let c := onGal d.ctl g (fun _ => Gal.reset)
  let c := (List.range 4).foldl (fun c i => onDch c (4 * g + i) (fun _ => Dch.reset)) c
  { ctl := c, mem := dramDrop c g d.mem }

/-- Stage 0 of a warm reset, the check of the token where a save or VAULT.HOLD came before, and the warm UP (R277, R363, R484). -/
def warmResetOp (d : Dev) (sfdpOk : Bool) (a b : SlotVerdict) (bad : List Nat) : Dev :=
  if d.ctl.glb.mode != .start || d.ctl.boot.stage != .stage0 || d.ctl.seq.running != .none then d
  else
    let (d, _) := stage0 { d with ctl := xspiWake d.ctl } sfdpOk a b
    let check := [0x3A, 0x40].contains d.ctl.glb.ltCode
    let c := if check then tokenCheck d.ctl bad else d.ctl
    let d := (coldGals c).foldl galCold { d with ctl := c }
    let d : Dev := if d.ctl.svr.warmGals.isEmpty then
        { ctl := onPair { d.ctl with halls := [] } (fun p => { p with changed := none, stale := TreadSet.empty, staleGot := [], full := false, soloOps := [] }), mem := { d.mem with dram := [], poison := [] } }
      else d
    let d : Dev := { d with ctl := onBoot d.ctl (fun b => { b with stage := .up }) }
    if d.ctl.seq.prog.isSome then { d with ctl := upStart d.ctl true } else upEnd d

/-- WARM_RESET (R363). -/
def execWarmReset (sfdpOk : Bool) (a b : SlotVerdict) (badGals : List (Fin 8)) (s : State) : Host.Outcome State Fault Refusal :=
  onDev s (fun d => warmResetOp d sfdpOk a b (badGals.map (fun g => g.val)))

/-- A warm reset out of VAULT.HOLD (code 0x40) or of the vestibule (code 0x48, with the boot counter cleared first) (R32, R489). -/
def restartOp (d : Dev) (ini : Nat) : Dev :=
  if d.ctl.glb.mode == .hold then startEntry { d with ctl := transition d.ctl .start 0x40 ini } true
  else startEntry { d with ctl := transition (ringPut d.ctl 0 0) .start 0x48 ini } true

/-- A request for a warm reset (R495): whether it was accepted, and its effect. -/
def warmRequest (d : Dev) (ini : Nat) : Bool × Dev :=
  let c := d.ctl
  if c.glb.fatal then (false, d)
  else if c.glb.mode.service then (true, { d with ctl := saveBegin c 0x21 ini 0 0 })
  else if c.glb.mode == .hold then
    if c.clk.ref100Settled && c.seq.running == .none then (true, restartOp d ini) else (false, d)
  else (false, { d with ctl := illegal c ini })

/-- WARM (R495). -/
def execRstWarm (ini : Byte) (s : State) : Host.Outcome State Fault Refusal :=
  onDev s (fun d => match gateOf d.ctl ini.toNat 0x7E1000 8 true with
    | .ok => (warmRequest d ini.toNat).2
    | r => { d with ctl := gateFail d.ctl r ini.toNat 0x7E1000 true })

end Sys2Proof.Machine
end

