-- ==== Sys2Proof/Machine/RegRead.lean ====
section
/-! DEFINITION. Machine/RegRead.lean: what a read of each register of the BAR2 map returns (R30, R41, R75, R127, R165, R206, R240, R284, R323, R350, R380, R414, R438, R458, R469, R492, R501, R510, R511, R522). -/
namespace Sys2Proof.Machine

/-! ## Packing -/

/-- A register word of fields (lowest bit, width, value); a value is cut to its width. -/
def pk (l : List (Nat × Nat × Nat)) : Word := BitVec.ofNat 64 (l.foldl (fun n x => n + x.2.2 % 2 ^ x.2.1 * 2 ^ x.1) 0)

/-- A value held at the maximum of its width. -/
def satTo (w n : Nat) : Nat := Nat.min n (2 ^ w - 1)

/-- A mask of the numbers below k that meet p. -/
def maskOf (k : Nat) (p : Nat → Bool) : Nat := listMask k ((List.range k).filter p)

/-- Members of a, below n, that are not in b. -/
def countBut (a b : TreadSet) (n : Nat) : Nat :=
  match a.all, b.all with
  | false, _ => (a.xs.filter (fun t => t < n && !b.has t)).length
  | true, true => (b.xs.filter (fun t => t < n && !a.xs.contains t)).length
  | true, false => n - ((a.xs ++ b.xs.filter (fun t => !a.xs.contains t)).filter (fun t => t < n)).length

/-! ## GLB (R30, R41, R75, R522) -/

def violCountWord (v : Viol) : Word := pk [(32, 32, v.ignored), (8, 24, v.violations), (0, 4, v.next)]

/-- A word of an entry of a violation log (HST_VIOL_LOG, GLB_MGMT_VIOL_LOG). -/
def violLogWord (v : Viol) (o : Nat) : Word :=
  match tget v.log (o / 0x20) with
  | none => 0
  | some e =>
    if o % 0x20 == 0 then e.time
    else if o % 0x20 == 8 then pk [(0, 52, e.addr)]
    else if o % 0x20 == 0x10 then pk [(12, 4, e.access), (8, 4, e.kind), (0, 8, e.ini)]
    else pk [(0, 32, e.hall)]

/-- GLB_STATE (R30). -/
def glbStateWord (c : Ctl) : Word :=
  pk [(32, 3, bootCount c), (24, 4, maskOf 4 (fun k => (linkAt c k).state == .active)), (16, 8, maskOf 8 (fun g => galFenced c g)),
      (8, 8, maskOf 8 (fun g => (galAt c g).doze)), (6, 1, b2n c.glb.promoting), (5, 1, b2n c.glb.fatal), (4, 1, b2n c.glb.restoring),
      (0, 4, modeCode c.glb.mode)]

/-- GLB_BUDGET (R75). It is kept while the core is off as 0; before the image gives db_cfg there is no DB. -/
def glbBudgetWord (c : Ctl) : Word :=
  if !(c.glb.mode == .start || c.glb.mode.service || c.glb.mode == .save || c.glb.mode == .hold) then 0
  else
    let known := c.budget.dbCfg != 0
    pk [(46, 18, (dirtySet c + 4095) / 4096), (32, 8, if known then satTo 8 (dbEffGib c) else 0), (24, 8, satTo 8 c.hold.dbHold), (16, 8, c.budget.dbCfg),
        (4, 1, b2n (soloNow c && c.budget.ramp.isSome)), (3, 1, b2n (known && atCeiling c)),
        (2, 1, b2n (known && decide (dirtySet c + 2 * risersPerGib > ceiling c))), (1, 1, b2n (c.budget.wearPaced && !peakRun c)),
        (0, 1, b2n (c.hold.phase != .idle))]

/-- GLB_BUDGET_PARAM (R75). -/
def glbBudgetParamWord (c : Ctl) : Word :=
  pk [(48, 16, c.budget.eFixed), (32, 16, c.budget.pSave), (24, 8, c.budget.rSave / 1000), (16, 8, c.budget.throttleMax),
      (8, 3, c.budget.soloFactor), (0, 8, c.budget.dbCfg)]

def glbWord (c : Ctl) (o : Nat) : Word :=
  if o == 0x00 then pk [(48, 16, 0x9472), (32, 4, 2), (0, 32, Config.dieSerial.toNat)]
  else if o == 0x08 then pk [(16, 16, 0x9472), (0, 16, 0x1F3A)]
  else if o == 0x10 then glbStateWord c
  else if o == 0x18 then pk [(48, 16, c.glb.ltCount), (0, 16, ltLow c.glb)]
  else if o == 0x20 then c.glb.ltTime
  else if o == 0x40 then glbBudgetWord c
  else if o == 0x48 then glbBudgetParamWord c
  else if o == 0x100 then pk [(48, 16, c.mgmt.dropped), (32, 8, c.mgmt.eid), (8, 7, c.mgmt.dynAddr), (0, 3, c.mgmt.held)]
  else if o == 0x110 then c.fcu.freezeTime
  else if o == 0x180 then violCountWord c.mgmt.viol
  else if 0x200 ≤ o && o < 0x400 then violLogWord c.mgmt.viol (o - 0x200)
  else 0

/-! ## HST (R127) -/

/-- IDE of a head's two streams: failed if one has failed, not secure if one is not, secure if one is (R120, R121; DESIGN CHOICE, log entry 120). -/
def ideCode (a b : Ide) : Nat :=
  if a == .failed || b == .failed then 3 else if a == .established || b == .established then 1 else if a == .secure || b == .secure then 2 else 0

/-- HST_HALL_BITMAP word w of LD m. -/
def bitmapWord (c : Ctl) (d w : Nat) : Word := BitVec.ofNat 64 (maskOf 64 (fun b => assigned c (64 * w + b) d))

def hstWord (c : Ctl) (h o : Nat) : Word :=
  let x := headAt c h
  if o == 0x00 then pk [(32, 4, x.mgmtLd), (16, 16, x.biTimeout), (8, 4, x.maxRate), (0, 3, x.ldCount)]
  else if o == 0x40 then
    pk [(48, 16, x.replays), (32, 1, b2n x.perst), (24, 4, x.memActive), (18, 2, ideCode x.ideMem.st x.ideIo.st), (17, 1, b2n (headFenced c h)),
        (16, 1, b2n x.flit256), (8, 4, x.rate), (4, 4, x.width), (0, 1, b2n x.linkUp)]
  else if o == 0x50 then
    pk [(32, 9, x.peak), (16, 7, (c.snoops.filter (fun s => s.sent && s.holder.here && s.holder.ld / 4 == h)).length), (0, 9, trackerOf c h)]
  else if o == 0x58 then pk [(32, 32, x.biTimeouts), (0, 4, maskOf 4 (fun m => (ldAt c (4 * h + m)).biFenced))]
  else if o == 0x80 then violCountWord x.viol
  else if 0x200 ≤ o && o < 0x400 then violLogWord x.viol (o - 0x200)
  else if 0x8000 ≤ o && o < 0xA000 then bitmapWord c (4 * h + (o - 0x8000) / 0x800) ((o - 0x8000) % 0x800 / 8)
  else 0

/-! ## GAL (R165, R350) -/

/-- Treads of a gallery that are still to be restored or resynced. -/
def galRestoring (c : Ctl) (g : Nat) : Bool :=
  let n := c.dimm.perGal * 262144
  decide (c.svr.unrestored.countIn (g * n) n + c.pair.stale.countIn (g * n) n > 0)

def galStatusWord (c : Ctl) (g : Nat) : Word :=
  let x := galAt c g
  pk [(48, 16, x.dozeEntries), (32, 16, c.dimm.perGal), (20, 4, listMask 4 x.dchFenced), (12, 4, x.fenceCause), (9, 1, b2n x.resetting),
      (8, 1, b2n (galRestoring c g)), (6, 2, x.frame), (2, 2, c.dimm.rate), (1, 1, b2n x.doze), (0, 1, b2n x.fenced)]

/-- A word of GAL_FRAME_TABLE: 16 slots of 4 bits. -/
def frameWord (c : Ctl) (f i : Nat) : Word :=
  BitVec.ofNat 64 ((List.range 16).foldl (fun n k => n + ((c.img.frames.getD f []).getD (16 * i + k) 0) % 16 * 16 ^ k) 0)

/-- The blocks of 64 KiB that hold a dirty riser (R156). -/
def summaryBlocks (x : Gal) : Nat := ((x.dirty.map (fun r => r / 256)).foldl sins []).length

def dchTrainWord (x : Dch) : Word :=
  pk [(56, 8, x.wrMargin), (48, 8, x.rdMargin), (32, 10, x.cap), (28, 4, x.ranks), (24, 4, x.stack), (20, 4, x.die), (18, 2, x.rate),
      (8, 8, x.failStep), (0, 4, x.result)]

def dchEccWord (x : Dch) : Word :=
  pk [(40, 24, x.ce), (24, 16, x.ue), (20, 4, satTo 4 x.failed.length), (13, 3, x.lastRank), (12, 1, x.lastSub), (8, 4, x.lastDev)]

/-- The gallery whose metadata region holds the partner's journals of gallery n: the next one that is not fenced (R346). -/
def journalGal (c : Ctl) (n : Nat) : Nat := (((List.range 8).map (fun i => (n + i) % 8)).find? (fun g => !galFenced c g)).getD n

/-- Own flights of a gallery's engine, and partner journals held in a gallery (R343, R346). -/
def galFlights (c : Ctl) (own : Bool) (g : Nat) : Nat :=
  (c.flights.filter (fun f => f.own == own && (if own then f.slot / 32 else journalGal c (f.slot / 32)) == g)).length

def galWord (c : Ctl) (g o : Nat) : Word :=
  let x := galAt c g
  if o == 0x08 then galStatusWord c g
  else if 0x100 ≤ o && o < 0x280 then frameWord c ((o - 0x100) / 0x80) ((o - 0x100) % 0x80 / 8)
  else if 0x300 ≤ o && o < 0x320 then BitVec.ofNat 64 (x.bursts.getD ((o - 0x300) / 8) 0)
  else if 0x320 ≤ o && o < 0x340 then BitVec.ofNat 64 (x.lent.getD ((o - 0x320) / 8) 0)
  else if o == 0x400 then pk [(32, 32, x.dirty.length), (0, 26, summaryBlocks x)]
  else if o == 0x410 then
    pk [(48, 16, c.img.scrubPeriod), (32, 8, if galLines c == 0 then 0 else x.scrubPos * 100 / galLines c), (0, 32, x.scrubPasses)]
  else if o == 0x418 then x.scrubTime
  else if o == 0x420 then
    pk [(44, 20, x.dir.length), (32, 11, (c.halls.filter (fun h => h.2.cold && galOfHall c h.1 == g)).length), (0, 32, x.evictions)]
  else if 0x1000 ≤ o && o < 0x1100 then
    let y := dchAt c (4 * g + (o - 0x1000) / 0x40)
    if o % 0x40 == 0 then dchTrainWord y else if o % 0x40 == 8 then dchEccWord y else 0
  else if o == 0x2000 then
    pk [(56, 8, galFlights c true g), (48, 8, galFlights c false g),
        (32, 16, (c.rings.filter (fun r => r.1 / 128 == g)).foldl (fun n r => n + r.2.descs.length) 0), (1, 1, b2n (ringEngFenced c g))]
  else if o == 0x2008 then
    pk [(32, 32, tgetD c.flightCount g 0), (16, 16, tgetD c.flightAbandoned g 0), (0, 16, tgetD c.partnerApplied g 0)]
  else 0

/-! ## TWN (R206, R240) -/

def linkStCode : LinkSt → Nat
  | .disabled => 0 | .pmdTrain => 1 | .align => 2 | .init => 3 | .active => 4 | .retrain => 5 | .lost => 6 | .fenced => 7

/-- µs between two time-stamps. -/
def usBetween (t u : Word) : Nat := (tsUnits u - tsUnits t) * 1000000 / 65536

def twnLinkWord (c : Ctl) (k o : Nat) : Word :=
  let x := linkAt c k
  let cr (v : Nat) : Nat := x.credit.getD v 0
  if o == 0x08 then
    pk [(56, 8, x.downCause), (46, 2, x.peerTl), (45, 1, x.peerSide), (40, 4, x.txLanes.toNat), (36, 4, x.rxLanes.toNat), (16, 16, x.laneMap),
        (8, 4, if x.state == .active then x.rxWidth else 0), (4, 4, if x.state == .active then x.txWidth else 0), (0, 3, linkStCode x.state)]
  else if o == 0x10 then x.time
  else if o == 0x18 then pk [(32, 32, x.cwCorrected), (0, 32, x.cwUncorr)]
  else if 0x20 ≤ o && o < 0x40 then
    let l := x.lanes.getD ((o - 0x20) / 8) Lane.reset
    pk [(24, 40, l.errs), (16, 1, b2n l.failed), (0, 16, satTo 16 l.ser)]
  else if o == 0x40 then pk [(32, 32, x.replays), (16, 16, x.retrains), (0, 16, x.losses)]
  else if o == 0x48 then pk [(48, 16, cr 3), (32, 16, cr 2), (16, 16, cr 1), (0, 16, cr 0)]
  else if 0x50 ≤ o && o < 0x70 then BitVec.ofNat 64 (x.txSlots.getD ((o - 0x50) / 8) 0)
  else if 0x70 ≤ o && o < 0x90 then BitVec.ofNat 64 (x.rxSlots.getD ((o - 0x70) / 8) 0)
  else if o == 0x90 then pk [(32, 32, x.hbRx), (0, 16, if x.hbRx == 0 then 0xFFFF else satTo 16 (usBetween x.hbTime (now c)))]
  else 0

/-- Word i of the steering table: 32 entries of 2 bits (R191). -/
def steerWord (c : Ctl) (i : Nat) : Word :=
  BitVec.ofNat 64 ((List.range 32).foldl (fun n e => n + (steerEntry c (32 * i + e)).getD 0 % 4 * 4 ^ e) 0)

/-- TREADS_LEFT of TWN_RESYNC: what the sender's bitmap or the receiver's stale map still holds. -/
def resyncLeft (c : Ctl) : Nat :=
  let n := treadCount c
  if c.pair.role == 4 then c.pair.stale.countIn 0 n
  else if c.pair.role == 3 then (c.pair.changed.map (fun s => s.countIn 0 n)).getD 0
  else 0

def twnCommonWord (c : Ctl) (o : Nat) : Word :=
  let t := c.twin
  let p := c.pair
  if o == 0x00 then
    pk [(48, 16, p.epoch), (40, 8, t.steerEpoch), (36, 4, listMask 4 t.steered), (32, 1, t.side), (0, 32, t.pairId.toNat)]
  else if o == 0x08 then steerWord c 0
  else if o == 0x10 then steerWord c 1
  else if o == 0x18 then
    pk [(48, 8, t.wBlk), (40, 8, t.wReq), (32, 8, t.wMir), (16, 16, t.serLimit), (4, 4, maskOf 4 (fun k => (linkAt c k).enabled)),
        (0, 4, maskOf 4 (fun k => (linkAt c k).media != 0))]
  else if o == 0x100 then
    pk [(48, 16, p.pairWait), (32, 16, p.prefCrc.toNat), (2, 1, b2n p.prefMap.isSome), (1, 1, b2n p.homeReturn), (0, 1, b2n p.paired)]
  else if o == 0x108 then pk [(48, 8, p.sepCause), (32, 8, p.outcome), (4, 4, p.role), (0, 1, b2n p.yielding)]
  else if o == 0x110 then pk [(32, 32, satTo 32 (resyncLeft c)), (0, 32, p.treadsDone)]
  else if o == 0x118 then p.sepTime
  else if o == 0x120 then pk [(48, 16, satTo 16 p.promDur), (32, 16, p.promCold), (16, 16, p.promHalls), (0, 16, p.promCount)]
  else 0

/-! ## VLT (R323) -/

/-- PLANES of VLT_GEOMETRY. -/
def planeCode (n : Nat) : Nat := if n == 4 then 2 else if n == 2 then 1 else 0

/-- Bytes of a list of timed amounts that lie within the last second. -/
def lastSecond (c : Ctl) (l : List (Word × Nat)) : Nat := (l.filter (fun x => within x.1 (now c) 65536)).foldl (fun n x => n + x.2) 0

/-- Geometry and archive registers show what the mount found; they read 0 until then, but for MOUNT and FAIL_CAUSE and the image's own
parameters. -/
def vltWord (c : Ctl) (o : Nat) : Word :=
  let v := c.vlt
  let up := v.mount == 2
  if o == 0x10 then
    pk [(48, 16, if up || v.tlcPe != 0 then nPeUsed v else 0), (32, 16, v.slcPe), (16, 10, v.fComp), (8, 4, v.tLife), (0, 1, b2n (v.tlcPe != 0))]
  else if o == 0x20 then
    pk [(56, 8, if up then satTo 8 (logPct c) else 0), (48, 8, if up then freeParts v / 100 else 0), (32, 16, satTo 16 (lastSecond c v.compacts / 1000000)),
        (16, 16, satTo 16 (lastSecond c v.appends / 1000000)), (4, 4, v.mount), (0, 4, v.failCause)]
  else if o == 0x48 then pk [(32, 32, v.soft), (0, 32, v.retried)]
  else if !up then 0
  else if o == 0x00 then pk [(48, 16, v.blocksPer), (32, 12, v.wordlines), (16, 2, planeCode v.planes), (8, 4, v.lunsPer), (4, 4, v.targets)]
  else if o == 0x08 then
    pk [(44, 20, archBytes v / 2 ^ 30), (32, 12, v.lunGb), (20, 12, landPool v / 2 ^ 30), (10, 10, lunCount v),
        (0, 10, ((List.range (lunCount v)).filter (lunFenced c)).length)]
  else if o == 0x18 then
    let day := 86400 * allowanceRate v
    pk [(44, 20, allowanceRate v / 1000000), (32, 8, if day == 0 then 0 else Nat.min 100 (windowBytes v * 100 / day)), (0, 32, windowBytes v / 2 ^ 30)]
  else if o == 0x28 then BitVec.ofNat 64 v.nextAsn
  else if o == 0x30 then
    pk [(40, 24, (List.range (lunCount v)).foldl (fun n l => n + (lunAt v l).spares) 0), (20, 20, v.badGrown), (0, 20, v.badFactory.length)]
  else if o == 0x38 then BitVec.ofNat 64 v.esn
  else if o == 0x40 then pk [(32, 32, v.redone), (8, 8, match recOf c 4 with | some (.erase _ b) => b.length | _ => 0)]
  else 0

/-- VLT_LUN of LUN index l. -/
def vltLunWord (c : Ctl) (ch j : Nat) : Word :=
  let v := c.vlt
  let target := j / 8
  let l := ch + 16 * (target + v.targets * (j % 8))
  if v.mount != 2 || target ≥ v.targets || j % 8 ≥ v.lunsPer then 0
  else
    let pes := (v.blocks.filter (fun x => x.1 / 65536 == l && x.2.use == 1)).map (fun x => x.2.pe)
    let total := archBlocks v
    let avg := if total == 0 then 0 else (total + pes.foldl (fun n p => n + (p - 1)) 0) / total
    pk [(48, 16, satTo 16 avg), (32, 16, satTo 16 (pes.foldl Nat.max 1)), (16, 16, (lunAt v l).spares), (8, 8, satTo 8 (lunAt v l).bad),
        (0, 2, if lunFenced c l then 2 else 1)]

def vchWord (c : Ctl) (ch o : Nat) : Word :=
  let x := vget c.vlt.chans ch Vch.reset
  let lun (j : Nat) : Nat := ch + 16 * (j / 8 + c.vlt.targets * (j % 8))
  if o == 0x00 then
    pk [(32, 32, maskOf 32 (fun j => j / 8 < c.vlt.targets && j % 8 < c.vlt.lunsPer && lunFenced c (lun j))), (8, 8, x.rate),
        (1, 1, b2n (x.rate != 0)), (0, 1, b2n x.fenced)]
  else if o == 0x08 then pk [(48, 16, x.progFail), (32, 16, x.eraseFail), (16, 16, x.ue), (0, 16, x.stalls)]
  else if 0x100 ≤ o && o < 0x200 then vltLunWord c ch ((o - 0x100) / 8)
  else 0

/-! ## SVR (R284) -/

def svrWord (c : Ctl) (o : Nat) : Word :=
  let s := c.svr
  let phase := if c.glb.mode.service then (if c.glb.restoring then 6 else 7) else s.restorePhase
  if o == 0x00 then
    pk [(48, 8, phase), (40, 8, s.savePhase), (32, 2, s.live.length), (16, 8, listMask 8 s.warmGals), (8, 8, listMask 8 s.lastIncomplete), (0, 8, s.lastCause)]
  else if o == 0x08 then BitVec.ofNat 64 s.lastSeq
  else if o == 0x10 then s.lastTime
  else if o == 0x18 then pk [(48, 16, satTo 16 s.cutoffNs), (32, 16, satTo 16 s.durationMs), (0, 25, s.lastUnits)]
  else if o == 0x20 then
    pk [(32, 32, satTo 32 (countBut s.unrestored c.pair.stale (treadCount c))), (16, 13, s.fetches.length), (0, 16, satTo 16 s.toServiceMs)]
  else if o == 0x28 then pk [(32, 32, s.dfCount), (16, 16, satTo 16 s.dfMax), (0, 16, satTo 16 s.unrecovered)]
  else if o == 0x30 then pk [(40, 24, s.reserve / 64), (0, 32, s.landSaves)]
  else if o == 0x38 then pk [(8, 8, listMask 8 s.failGals), (0, 4, s.tokenState)]
  else 0

/-! ## Rings (R350) -/

def ringStCode : RingSt → Nat
  | .disabled => 0 | .running => 1 | .draining => 2 | .error => 3 | .stopped => 4

def ringWordAt (c : Ctl) (r o : Nat) : Word :=
  let x := ringAt c r
  if o == 0x00 then x.sqBase
  else if o == 0x08 then x.cqBase
  else if o == 0x10 then pk [(32, 8, x.intDelay), (24, 8, x.intCount), (16, 5, x.vector), (0, 5, x.logSize)]
  else if o == 0x18 then pk [(0, 1, b2n x.enable)]
  else if o == 0x20 then pk [(0, 16, x.sqTail)]
  else if o == 0x28 then pk [(0, 16, x.cqHead)]
  else if o == 0x30 then
    pk [(48, 16, x.sqHead), (32, 16, x.cqTail), (24, 8, x.code), (16, 8, x.descs.length), (3, 1, b2n x.phase), (0, 3, ringStCode x.st)]
  else if o == 0x38 then pk [(32, 32, x.completed), (0, 32, x.errors)]
  else if o == 0x40 then pk [(8, 1, b2n x.owner.isSome), (0, 8, x.owner.getD 0xFF)]
  else 0

/-! ## PWR (R284, R380) -/

/-- An ON request waits for the minimum off time (R33). -/
def onPending (c : Ctl) : Bool :=
  c.glb.mode == .standby && c.seq.running == .none && c.pf.inputGood && c.glb.inputGood100 && !c.glb.fatal && c.glb.minOff

/-- The mean of the last 16 samples. -/
def Sns.mean (x : Sns) : Nat := if x.hist.isEmpty then 0 else x.hist.foldl (fun n v => n + v) 0 / x.hist.length

def pwrHoldWord (c : Ctl) (o : Nat) : Word :=
  let h := c.hold
  let p := c.pwrImg
  let m := h.inForce
  if o == 0x300 then pk [(48, 16, p.vmin), (32, 16, p.iTest), (20, 12, p.droop), (12, 8, p.periodH), (0, 12, p.scale)]
  else if o == 0x308 then pk [(8, 8, p.chargeWait)]
  else if o == 0x310 then
    pk [(44, 20, (m.map (fun x => x.cMf)).getD 0), (28, 16, (m.map (fun x => x.esr)).getD 0), (12, 16, (m.map (fun x => x.v0 / 10)).getD 0),
        (4, 4, h.result), (0, 1, b2n m.isSome)]
  else if o == 0x318 then
    pk [(48, 16, satTo 16 h.eUsable), (32, 16, h.vStart / 10), (16, 16, h.vBank / 10), (3, 1, b2n (chgEn c)), (2, 1, b2n h.loadEn),
        (1, 1, b2n h.deferred), (0, 1, b2n (h.phase != .idle))]
  else if o == 0x320 then (m.map (fun x => x.time)).getD 0
  else 0

def pwrSeqWord (c : Ctl) (o : Nat) : Word :=
  let s := c.seq
  let e (f : SeqProg → Nat) : Nat := (s.prog.map f).getD 0
  if o == 0x08 then
    pk [(56, 8, s.mark), (52, 4, s.user.toNat), (44, 4, progCode s.running), (32, 8, s.pc), (16, 16, s.upRuns), (7, 1, b2n s.wdog), (6, 1, b2n s.evTimeout),
        (5, 1, b2n s.pmbusFail), (4, 1, b2n s.warm), (2, 2, s.source), (1, 1, b2n s.offPending), (0, 1, b2n (onPending c))]
  else if o == 0x10 then
    pk [(48, 16, c.pwrImg.minOff), (32, 16, c.pwrImg.wdog), (24, 8, e (fun p => p.trip)), (16, 8, e (fun p => p.shed)), (8, 8, e (fun p => p.down)), (0, 8, e (fun p => p.up))]
  else if o == 0x18 then
    pk [(48, 16, maskOf 16 (fun r => (railAt c r).armed)), (32, 16, maskOf 16 (fun r => (railAt c r).en)), (16, 16, maskOf 16 (fun r => (railAt c r).stuck)),
        (0, 16, maskOf 16 (fun r => (railAt c r).fail))]
  else if o == 0x20 then pk [(36, 12, s.tripCode), (28, 4, s.tripProg), (16, 8, s.tripPc), (8, 4, s.tripRail), (0, 4, s.tripCause)]
  else if o == 0x28 then s.tripTime
  else if o == 0x30 then pk [(48, 16, s.alerts), (32, 16, s.pecErr), (16, 16, s.nack), (8, 7, s.lastAddr)]
  else if 0x100 ≤ o && o < 0x180 then (railCfg c ((o - 0x100) / 8)).cfg
  else if 0x180 ≤ o && o < 0x200 then (railCfg c ((o - 0x180) / 8)).pmb
  else 0

def pwrWord (c : Ctl) (o : Nat) : Word :=
  if 0x200 ≤ o && o < 0x288 then
    let x := vget c.sns ((o - 0x200) / 8) Sns.reset
    pk [(36, 12, x.max), (24, 12, x.min), (12, 12, x.mean), (0, 12, x.code)]
  else if 0x300 ≤ o && o < 0x400 then pwrHoldWord c o
  else if o == 0x400 then
    pk [(32, 8, c.pwrImg.pfFilter), (24, 8, c.pwrImg.pfHyst), (16, 1, b2n c.pwrImg.pfNEn), (0, 11, c.pwrImg.pfTrip)]
  else if o == 0x408 then
    pk [(48, 16, c.pf.triggers), (32, 16, c.pf.glitches), (8, 4, c.pf.lastSource), (2, 1, b2n c.pf.inputGood), (1, 1, b2n c.pf.pfN), (0, 1, b2n c.pf.senseLow)]
  else if o == 0x410 then c.pf.time
  else if 0x1000 ≤ o && o < 0x1400 then
    let w (i : Nat) : Nat := ((c.seq.prog.map (fun (p : SeqProg) => p.words.getD i 0)).getD 0).toNat
    pk [(32, 32, w ((o - 0x1000) / 4 + 1)), (0, 32, w ((o - 0x1000) / 4))]
  else pwrSeqWord c o

/-! ## FCU (R414) -/

/-- The unit whose event a window is. -/
def winOf : WinEv → Option Nat
  | .galReset n => some (0x10 + n)
  | e => winUnit e

def fcuSrcWord (c : Ctl) (s : Nat) : Word :=
  if srcDefined s then
    let x := srcAt c s
    pk [(48, 16, x.count), (8, 6, x.lastKind), (4, 2, (classOf c s).code), (3, 1, b2n (fixedClass s)), (1, 1, b2n x.latched), (0, 1, b2n x.active)]
  else 0

def fcuUnitWord (c : Ctl) (u : Nat) : Word :=
  if unitDefined u then
    let x := unitAt c u
    pk [(32, 16, x.fences), (12, 10, x.fenceSrc), (4, 4, x.rgen), (2, 1, b2n (c.fcu.windows.any (fun w => winOf w.ev == some u))),
        (1, 1, b2n (fenceable u)), (0, 1, b2n x.fenced)]
  else 0

def fcuWord (c : Ctl) (o : Nat) : Word :=
  let f := c.fcu
  if o == 0x00 then
    pk [(32, 32, f.entries), (16, 16, f.unlogged), (10, 6, f.next), (8, 1, b2n f.frozen), (7, 1, b2n f.captureMore), (6, 1, b2n f.captured.isSome),
        (5, 1, b2n f.logCe), (1, 3, f.selfCause), (0, 1, b2n f.self)]
  else if o == 0x10 then pk [(16, 16, f.rejected), (0, 2, f.captureMin)]
  else if 0x40 ≤ o && o < 0x60 then (f.captured.map (fun e => logWord e ((o - 0x40) / 8))).getD 0
  else if 0x100 ≤ o && o < 0x160 then BitVec.ofNat 64 (maskOf 64 (fun b => (srcAt c (8 * (o - 0x100) + b)).active))
  else if 0x180 ≤ o && o < 0x1E0 then BitVec.ofNat 64 (maskOf 64 (fun b => (srcAt c (8 * (o - 0x180) + b)).latched))
  else if 0x400 ≤ o && o < 0xC00 then ((tget f.log ((o - 0x400) / 0x20)).map (fun e => logWord e (o % 0x20 / 8))).getD 0
  else if 0x1000 ≤ o && o < 0x2800 then fcuSrcWord c ((o - 0x1000) / 8)
  else if 0x3000 ≤ o && o < 0x4200 then fcuUnitWord c ((o - 0x3000) / 8)
  else 0

/-! ## ALC (R438) -/

def alcWord (c : Ctl) (o : Nat) : Word :=
  let a := c.alc
  if o == 0x00 then
    pk [(32, 32, a.commits), (19, 13, bufBytes c), (8, 8, a.lastRecovery), (6, 2, a.bp), (5, 1, b2n a.locked), (4, 1, b2n a.winLoaded),
        (3, 1, b2n a.marginRun), (2, 1, b2n (!a.urgent.isEmpty)), (1, 1, b2n a.busy), (0, 1, b2n a.ready)]
  else if o == 0x18 then pk [(0, 2, a.bp)]
  else if o == 0x20 then pk [(12, 7, a.winPage), (3, 9, a.winWord)]
  else if o == 0x30 then pk [(48, 16, a.recoveries), (32, 16, a.marginWords), (16, 16, a.refused), (0, 16, a.ce)]
  else if o == 0x38 then a.marginTime
  else if 0x100 ≤ o && o < 0x128 then BitVec.ofNat 64 (ringValue c ((o - 0x100) / 8))
  else if 0x140 ≤ o && o < 0x170 then
    let r := aringAt c ((o - 0x140) / 8)
    pk [(56, 8, r.torn), (0, 48, r.newest)]
  else 0

/-! ## RTC (R458) -/

def trimResCode : TrimRes → Nat
  | .none => 0 | .accepted => 1 | .saturated => 2 | .running => 3 | .refLost => 4 | .supplyLost => 5 | .written => 6

/-- A signed value in 16 bits. -/
def int16 (x : Int) : Nat := (x % 65536).toNat

def rtcStatusWord (c : Ctl) : Word :=
  let r := c.rtc
  let ref := if r.timeRef == 0 then 0 else if r.measRes == .running then 3 else if r.refLost then 2 else 1
  pk [(48, 16, r.ignored), (32, 16, r.steals), (12, 2, ref), (11, 1, b2n (pwrOnReq c)), (10, 1, b2n r.causeRestore), (9, 1, b2n r.causeAlarm),
      (8, 1, b2n r.vbatLow), (4, 1, b2n r.firedByAdjust), (3, 1, b2n r.fired), (2, 1, b2n r.adjusted), (1, 1, b2n r.halted), (0, 1, b2n r.oscStopped)]

/-- The RTC registers without the shadow set of R443. -/
def rtcWord (c : Ctl) (o : Nat) : Word :=
  let r := c.rtc
  if o == 0x00 then now c
  else if o == 0x08 then rtcTimeLo r
  else if o == 0x10 then rtcCal r.seconds.toNat
  else if o == 0x18 then pk [(0, 40, r.seconds.toNat)]
  else if o == 0x20 then pk [(41, 1, b2n r.wake), (40, 1, b2n r.armed), (0, 40, r.alarm.toNat)]
  else if o == 0x28 then rtcStatusWord c
  else if o == 0x30 then pk [(0, 1, b2n r.halt)]
  else if o == 0x38 then pk [(16, 2, r.trimSrc), (0, 16, int16 r.trim)]
  else if o == 0x40 then pk [(28, 36, r.measCount), (24, 4, trimResCode r.measRes), (0, 16, int16 r.measTrim)]
  else if o == 0x48 then r.measTime
  else if o == 0x50 then pk [(16, 16, r.windowS), (8, 8, r.periodH), (0, 2, r.timeRef)]
  else 0

/-! ## CLK (R459, R469) -/

/-- Nominal frequency of a domain in MHz (R459); a head's follows its rate. -/
def domMhz (c : Ctl) (d : Nat) : Nat :=
  if d == 1 then 50 else if d == 2 then Nat.min 400 (2 * c.boot.xMhz) else if d == 3 then 1600 else if d == 4 then 2000
  else if 0x08 ≤ d && d < 0x10 then 1600
  else if 0x10 ≤ d && d < 0x18 then 600 + 100 * c.dimm.rate
  else if d == 0x18 then c.img.vaultRate / 8
  else if 0x20 ≤ d && d < 0x30 then
    let r := (headAt c (d - 0x20)).rate
    if r == 0 then 0 else 1000 / 2 ^ (4 - r)
  else if 0x30 ≤ d && d < 0x34 then 781
  else if d == 0x34 then 12
  else 0

/-- The domain is stopped on demand (R463). -/
def domGated (c : Ctl) (d : Nat) : Bool :=
  if d == 2 then aonOn c && !c.clk.xspiOn
  else if 0x08 ≤ d && d < 0x10 then (galAt c (d - 0x08)).doze
  else if 0x10 ≤ d && d < 0x18 then
    let g := galAt c (d - 0x10)
    g.doze || (domRunning c (d - 8) && g.fenced && !g.resetting)
  else d == 0x34

def clkDomainWord (c : Ctl) (d : Nat) : Word :=
  if domListed d then
    let x := tgetD c.clk.doms d ClkDom.reset
    let run := domRunning c d
    pk [(48, 16, domMhz c d), (32, 16, int16 x.ppm), (16, 16, x.stops), (3, 1, b2n x.offFreq), (2, 1, b2n (!run && domGated c d)),
        (1, 1, b2n (!run && !domGated c d)), (0, 1, b2n run)]
  else 0

def clkWord (c : Ctl) (o : Nat) : Word :=
  let k := c.clk
  if o == 0x00 then
    pk [(7, 1, b2n (k.aonCal && !c.rtc.oscStopped)), (6, 1, b2n k.holdover), (5, 1, b2n k.ref156), (4, 1, b2n k.ref100), (3, 1, b2n k.xspiOn),
        (2, 1, b2n (domRunning c 0x18 && !k.holdover)), (1, 1, b2n (twinPowered c && k.ref156)), (0, 1, b2n (coreRuns c && !k.holdover))]
  else if o == 0x08 then pk [(32, 32, k.overrun), (0, 16, k.overrunLast)]
  else if o == 0x10 then pk [(32, 32, k.drop), (0, 16, k.dropLast)]
  else if o == 0x18 then pk [(48, 16, k.timeout), (40, 8, k.timeoutIni), (0, 32, k.timeoutAddr)]
  else if 0x100 ≤ o && o < 0x2B0 then clkDomainWord c ((o - 0x100) / 8)
  else 0

/-! ## RST and BOOT (R492, R501) -/

def rstWord (c : Ctl) (o : Nat) : Word :=
  if o == 0x08 then pk [(48, 16, c.rst.warmResets), (32, 16, c.rst.coldStarts), (16, 16, ringValue c 2), (0, 4, c.rst.lastKind)]
  else if o == 0x10 then c.rst.time
  else 0

def page0Code : Page0 → Nat
  | .blank => 0 | .written => 1 | .locked => 2 | .damaged => 3

def stageCode : Stage → Nat
  | .idle => 0 | .stage0 => 1 | .up => 2 | .stage1 => 3 | .stage2 => 4 | .service => 5 | .vestibule => 6

def bootStatusWord (c : Ctl) : Word :=
  let b := c.boot
  pk [(56, 8, b.cause), (32, 2, page0Code b.page0), (20, 4, stageCode b.stage), (16, 2, b.runSlot), (11, 1, b2n b.slotB.rejected),
      (10, 1, b2n b.slotA.rejected), (9, 1, b2n b.fallback), (8, 1, b2n b.lastFailed), (0, 1, b2n b.locked)]

def slotStatusWord (x : SlotSt) : Word := pk [(56, 8, x.result), (48, 1, x.keySlot), (40, 8, x.sections), (0, 17, x.lenKib)]

def bootWord (c : Ctl) (o : Nat) : Word :=
  let b := c.boot
  if o == 0x00 then bootStatusWord c
  else if o == 0x10 then slotStatusWord b.slotA
  else if o == 0x18 then slotStatusWord b.slotB
  else if o == 0x20 then b.slotA.version
  else if o == 0x28 then b.slotB.version
  else if o == 0x30 then pk [(48, 16, b.vaonMv), (32, 8, b.xEntry), (16, 8, b.xDummy), (8, 1, b2n b.xDdr), (0, 8, b.xMhz)]
  else if o == 0x38 then pk [(0, 32, b.flashAddr.toNat)]
  else if o == 0x48 then pk [(32, 32, b.flashOps), (8, 8, b.flashResult), (0, 1, b2n b.flashOp.isSome)]
  else if o == 0x50 then b.failTime
  else if o == 0x58 then b.slotA.rejectVersion
  else if o == 0x60 then b.slotB.rejectVersion
  else if 0x100 ≤ o && o < 0x200 then tgetD b.buf ((o - 0x100) / 8) 0
  else 0

/-! ## The map (R510, R511) -/

/-- The register at a BAR2 offset that is a multiple of 8; offsets with no register read 0 (R511). -/
def regWord (c : Ctl) (off : Nat) : Word :=
  match blkOf off with
  | .glb | .glbMgmt => glbWord c off
  | .hst n => hstWord c n (off % 0x10000)
  | .gal n => galWord c n (off % 0x20000)
  | .twn k => twnLinkWord c k (off % 0x10000)
  | .twnCommon => twnCommonWord c (off - 0x340000)
  | .vlt => vltWord c (off - 0x400000)
  | .vch ch => vchWord c ch (off % 0x1000)
  | .svr => svrWord c (off - 0x5F0000)
  | .pwr => pwrWord c (off - 0x600000)
  | .fcu => fcuWord c (off - 0x700000)
  | .alc => alcWord c (off - 0x780000)
  | .rtc => rtcWord c (off - 0x7C0000)
  | .clk => clkWord c (off - 0x7E0000)
  | .rst => rstWord c (off - 0x7E1000)
  | .boot => bootWord c (off - 0x7E2000)
  | .ring r => ringWordAt c r (off % 0x1000)
  | .none => 0

/-- The part of a register that an access of 4 B or 8 B at an offset covers (R11). -/
def regPart (w : Word) (off size : Nat) : Word := if size == 8 then w else if off % 8 == 4 then w >>> 32 else w &&& 0xFFFFFFFF

/-- What a read that has passed its checks returns, with its side effect: the shadow set of the RTC (R443), the window word of the Alcove
(R423). -/
def readReg (c : Ctl) (ini off size : Nat) : Word × Ctl :=
  let a := off / 8 * 8
  if 0x7C0008 ≤ a && a < 0x7C0020 then rtcShadowRead c ini (off - 0x7C0000) size
  else if a == 0x780028 then
    let (w, c) := winReadOp c ini
    (regPart w off size, c)
  else (regPart (regWord c a) off size, c)

end Sys2Proof.Machine
end

