-- ==== Sys2Proof/Machine/Regs.lean ====
section
/-! DEFINITION. Machine/Regs.lean: what a write to each register of the BAR2 map does (R12, R119, R325, R503, R511), and the log freeze (R519, R520). -/
namespace Sys2Proof.Machine

/-! ## Log freeze (R519, R520) -/

/-- The logs freeze; a freeze while frozen changes nothing (R519). -/
def freezeOp (c : Ctl) : Ctl :=
  if c.fcu.frozen then c else { c with fcu := { c.fcu with frozen := true, freezeTime := now c } }

/-- The freeze ends; while not frozen the write is an illegal sequence (R520). -/
def thawOp (c : Ctl) (ini : Nat) : Ctl :=
  if c.fcu.frozen then { c with fcu := { c.fcu with frozen := false } } else illegal c ini

/-- LOG_FREEZE (R519). -/
def execLogFreeze (ini : Byte) (s : State) : Host.Outcome State Fault Refusal :=
  onCtl s (fun c => regWrite c ini.toNat 0x108 8 freezeOp)

/-- LOG_THAW (R520). -/
def execLogThaw (ini : Byte) (s : State) : Host.Outcome State Fault Refusal :=
  onCtl s (fun c => regWrite c ini.toNat 0x108 8 (fun c => thawOp c ini.toNat))

/-! ## What a write covers (R11) -/

/-- The written value at its place in the register, 0 where the access does not cover it. -/
def placed (off size val : Nat) : Nat := if size == 8 then val % 2 ^ 64 else if off % 8 == 4 then val % 2 ^ 32 * 2 ^ 32 else val % 2 ^ 32

/-- The register's value with the covered half replaced. -/
def mergeW (old off size val : Nat) : Nat :=
  if size == 8 then val % 2 ^ 64
  else if off % 8 == 4 then val % 2 ^ 32 * 2 ^ 32 + old % 2 ^ 32
  else old / 2 ^ 32 * 2 ^ 32 + val % 2 ^ 32

/-- The access covers the low half of the register. -/
def coversLow (off size : Nat) : Bool := size == 8 || off % 8 == 0

/-- The effects of WO bits that are written 1, lowest bit first. -/
def woBits (v : Nat) (l : List (Nat × (Ctl → Ctl))) (c : Ctl) : Ctl := l.foldl (fun c x => if bitOf v x.1 then x.2 c else c) c

/-! ## The blocks: o is the register's offset in its block, v the placed value, m the merged one -/

/-- HST_CFG: its fields are RWL (R12). A value outside its field's range is held as written, for the spec says nothing of it (DESIGN CHOICE, log
entry 101). -/
def hstCfgWrite (c : Ctl) (ini h m : Nat) : Ctl :=
  if c.boot.locked then illegal c ini
  else onHead c h (fun x => { x with mgmtLd := fieldOf m 35 32, biTimeout := fieldOf m 31 16, maxRate := fieldOf m 11 8, ldCount := fieldOf m 2 0 })

def hstWrite (c : Ctl) (ini h o v m : Nat) : Ctl :=
  if o == 0x00 then hstCfgWrite c ini h m
  else if o == 0x50 && bitOf v 63 then peakOp c h
  else c

def fcuWrite (c : Ctl) (ini o v : Nat) (low : Bool) : Ctl :=
  if o == 0x08 then woBits v [(1, captureClear), (2, armOp)] c
  else if o == 0x18 && low then headUnfenceOp c ini (maskList 16 v)
  else if 0x180 ≤ o && o < 0x1E0 then (maskList 64 v).foldl (fun c b => onSrc c (8 * (o - 0x180) + b) (fun x => { x with latched := false })) c
  else if 0x1000 ≤ o && o < 0x2800 then
    let s := (o - 0x1000) / 8
    if srcDefined s then woBits v [(1, fun c => onSrc c s (fun x => { x with latched := false })), (2, fun c => forceOp c ini s)] c else c
  else c

def alcWrite (c : Ctl) (ini o v : Nat) (low : Bool) : Ctl :=
  if o == 0x08 then woBits v [(0, flushOp)] c
  else if o == 0x10 && low then keyOp c ini (v % 2 ^ 32)
  else if o == 0x18 && low then bpOp c ini (v % 4)
  else if o == 0x20 && low then winAddrOp c v
  else c

/-- RTC_CTRL: HALT is RW, the others are WO. -/
def rtcCtrlWrite (c : Ctl) (ini v : Nat) : Ctl :=
  woBits v [(1, fun c => trimStartOp c ini), (2, cancelReqOp)] (if bitOf v 0 then rtcSetHalt c else rtcClearHalt c)

def rtcWrite (c : Ctl) (ini o off size val v m : Nat) (low : Bool) : Ctl :=
  if o == 0x08 || o == 0x18 then timeWriteOp c ini (off - 0x7C0000) size val
  else if o == 0x20 then alarmWrite c m
  else if o == 0x28 then woBits v [(3, fun c => onRtc c (fun r => { r with fired := false })), (4, fun c => onRtc c (fun r => { r with firedByAdjust := false }))] c
  else if o == 0x30 && low then rtcCtrlWrite c ini v
  else if o == 0x38 && low then trimWrite c ini (BitVec.ofNat 16 v).toInt
  else c

/-- BOOT_FLASH_CMD through a plain register write: whether the always-on supply lies below the flash gate is a free value (log entry 8). -/
def flashCmdWrite (c : Ctl) (ini n : Nat) : Ctl :=
  let gate := freeNat c % 2 == 1
  match n with
  | 1 => flashCmd c ini .read false
  | 2 => useFree (flashCmd c ini .program gate)
  | 3 => useFree (flashCmd c ini .erase4k gate)
  | 4 => useFree (flashCmd c ini .erase64k gate)
  | _ => c

def bootWrite (c : Ctl) (ini o v m : Nat) (low : Bool) : Ctl :=
  if o == 0x08 then (if v % 4 == 1 then verifyOp c ini 1 else if v % 4 == 2 then verifyOp c ini 2 else c)
  else if o == 0x30 then onBoot c (fun b => { b with xEntry := fieldOf m 39 32, xDummy := fieldOf m 23 16, xDdr := bitOf m 8, xMhz := fieldOf m 7 0 })
  else if o == 0x38 then onBoot c (fun b => { b with flashAddr := BitVec.ofNat 32 m })
  else if o == 0x40 && low then flashCmdWrite c ini (v % 8)
  else if 0x100 ≤ o && o < 0x200 then onBoot c (fun b => { b with buf := tset b.buf ((o - 0x100) / 8) (BitVec.ofNat 64 m) })
  else c

/-- The configuration registers of a ring are writable in DISABLED (R332). -/
def ringCfgWrite (c : Ctl) (ini r o m : Nat) : Ctl :=
  if (ringAt c r).st != .disabled then illegal c ini
  else onRing c r (fun x =>
    if o == 0x00 then { x with sqBase := BitVec.ofNat 64 (m / 4096 * 4096) }
    else if o == 0x08 then { x with cqBase := BitVec.ofNat 64 (m / 4096 * 4096) }
    else { x with intDelay := fieldOf m 39 32, intCount := fieldOf m 31 24, vector := fieldOf m 20 16, logSize := fieldOf m 4 0 })

def ringWriteReg (c : Ctl) (ini r o v m : Nat) (low : Bool) : Ctl :=
  if o == 0x00 || o == 0x08 || o == 0x10 then ringCfgWrite c ini r o m
  else if o == 0x18 && low then (if bitOf v 0 then ringEnableOp c ini r else ringDisableOp c r)
  else if o == 0x20 && low then sqTailOp c ini r (v % 65536)
  else if o == 0x28 && low then cqHeadOp c ini r (v % 65536)
  else c

def pwrWrite (c : Ctl) (ini o v : Nat) : Ctl :=
  if o == 0x00 then woBits v [(0, fun c => offOp c ini)] c
  else if 0x200 ≤ o && o < 0x288 then woBits v [(63, fun c => minmaxClrOp c ((o - 0x200) / 8))] c
  else if o == 0x308 then woBits v [(0, fun c => measureOp c ini)] c
  else c

/-- Writes that change registers alone. -/
def ctlWrite (c : Ctl) (ini off size val : Nat) : Ctl :=
  let a := off / 8 * 8
  let v := placed off size val
  let m := mergeW (regWord c a).toNat off size val
  let low := coversLow off size
  match blkOf off with
  | .glb | .glbMgmt => if a == 0x108 then woBits v [(0, freezeOp), (1, fun c => thawOp c ini)] c else c
  | .hst n => hstWrite c ini n (a % 0x10000) v m
  | .gal n => if a % 0x20000 == 0x2000 then woBits v [(0, fun c => engineRestart c ini n)] c else c
  | .twn k => if a % 0x10000 == 0 then woBits v [(0, fun c => retrainOp c ini k), (1, fun c => linkResetOp c k)] c else c
  | .twnCommon => if a == 0x340140 then woBits v [(0, fun c => yieldOp c ini)] c else c
  | .pwr => pwrWrite c ini (a - 0x600000) v
  | .fcu => fcuWrite c ini (a - 0x700000) v low
  | .alc => if a == 0x780028 then winWriteOp c ini (BitVec.ofNat 64 (mergeW (mergedWord c (c.alc.winPage * 4096 + 8 * c.alc.winWord)).toNat off size val))
    else alcWrite c ini (a - 0x780000) v low
  | .rtc => rtcWrite c ini (a - 0x7C0000) off size val v m low
  | .boot => bootWrite c ini (a - 0x7E2000) v m low
  | .ring r => ringWriteReg c ini r (a % 0x1000) v m low
  | _ => c

/-- A write that has passed its checks. GAL_RESET, WARM and LINK_RESET also act on memory or on what waits. -/
def writeReg (d : Dev) (ini off size val : Nat) : Dev :=
  let v := placed off size val
  match blkOf off with
  | .gal n => if off / 8 * 8 % 0x20000 == 0 then (if bitOf v 0 then galResetOp d ini n else d) else { d with ctl := ctlWrite d.ctl ini off size val }
  | .rst => if off / 8 * 8 == 0x7E1000 && bitOf v 0 then (warmRequest d ini).2 else d
  | .twn _ => afterLink { d with ctl := ctlWrite d.ctl ini off size val }
  | _ => { d with ctl := ctlWrite d.ctl ini off size val }

/-- A write of a register of the map by an initiator. -/
def writeOp (d : Dev) (ini off size val : Nat) : Dev :=
  match gateOf d.ctl ini off size true with
  | .ok => writeReg d ini off size val
  | g => { d with ctl := gateFail d.ctl g ini off true }

/-- REGISTER_WRITE (R12). -/
def execRegisterWrite (ini : Byte) (off : BitVec 32) (size : Nat) (val : Word) (s : State) : Host.Outcome State Fault Refusal :=
  onDev s (fun d => writeOp d ini.toNat off.toNat size val.toNat)

end Sys2Proof.Machine
end

