-- ==== Sys2Proof/Machine/Mgmt.lean ====
section
/-! DEFINITION. Machine/Mgmt.lean: the vendor mailbox commands, the management CCI, the MCTP endpoint and its register-access messages (R124 to R127, R491, R502 to R520). -/
namespace Sys2Proof.Machine

/-! ## Rights and states (R127, R502, R516) -/

/-- A mailbox command reaches the device and the initiator holds the right it needs; without it the command is a violation of kind 0x7
(R118). -/
def cmdRight (d : Dev) (ini op : Nat) (need : Bool) (f : Dev → Dev) : Dev :=
  let c := d.ctl
  if !canReach c ini then d
  else if need && !mgmtRight c ini then { d with ctl := reply (violate c ini op 6 7 0xFFFFFFFF) ini op rcUnsupported [] }
  else f d

/-- A command that its state does not accept is refused with Unsupported and counted (R516). -/
def cmdState (d : Dev) (ini op : Nat) (ok : Bool) (f : Dev → Dev) : Dev :=
  if ok then f d else { d with ctl := reply (illegal d.ctl ini) ini op rcUnsupported [] }

/-- A command of the management CCI alone: Unsupported in an LD's mailbox (R515). -/
def cciOnly (d : Dev) (ini op : Nat) (f : Dev → Dev) : Dev :=
  if !canReach d.ctl ini then d
  else if ini < 0x40 then { d with ctl := reply d.ctl ini op rcUnsupported [] }
  else f d

/-- Success with a payload. -/
def answerWith (d : Dev) (ini op : Nat) (payload : List Byte) : Dev := { d with ctl := reply d.ctl ini op rcSuccess payload }

/-- The states that answer the reading commands (R516). -/
def infoState (c : Ctl) : Bool := c.glb.mode.service || c.glb.mode == .start || c.glb.mode == .hold

/-- The background command of a mailbox (R516). -/
def backgroundOf (c : Ctl) (ini : Nat) : Option Nat := if ini < 0x40 then (ldAt c ini).background else c.mgmt.background

def backgroundSet (c : Ctl) (ini : Nat) (b : Option Nat) : Ctl :=
  if ini < 0x40 then onLd c ini (fun x => { x with background := b }) else { c with mgmt := { c.mgmt with background := b } }

/-! ## Information (R127) -/

def word8 (w : Word) : List Byte := bytesOf 8 w.toNat

/-- Halls assigned to an LD. -/
def assignedCount (c : Ctl) (d : Nat) : Nat := (c.halls.filter (fun x => x.2.sharers.any (fun s => s.here && s.ld == d))).length

/-- GET_NOVLEN_INFO output; the management CCI reports LD 0xFF, ASSIGNED 0 and RIGHTS 1 (R515). -/
def novlenInfo (c : Ctl) (ini : Nat) : List Byte :=
  let ld := ini < 0x40
  word8 (glbStateWord c) ++ bytesOf 4 (hallCount c) ++ bytesOf 4 (if ld then assignedCount c ini else 0) ++ bytesOf 1 (if ld then ini else 0xFF)
    ++ bytesOf 1 (if ld then b2n (mgmtRight c ini) else 1) ++ List.replicate 14 0

/-- FLAGS of a hall entry. -/
def hallFlags (c : Ctl) (k : Nat) : Nat :=
  let h := hallAt c k
  let g := galOfHall c k
  b2n h.cold + 2 * b2n (decide (c.svr.unrestored.countIn (k * 262144) 262144 > 0)) + 4 * b2n (galFenced c g && pairedNow c && !partnerFenced c g)
    + 8 * b2n h.home + 16 * b2n h.sanitize + 32 * b2n h.fill.isSome

def hallModeCode : HallMode → Nat
  | .unassigned => 0 | .priv => 1 | .shared => 2

/-- OWNER of a hall entry. -/
def hallOwner (h : Hall) : Nat :=
  match h.mode, h.sharers with
  | .priv, s :: _ => s.ld + (if s.here then 0 else 0x80)
  | _, _ => 0xFF

def hallEntry (c : Ctl) (k : Nat) : List Byte :=
  let h := hallAt c k
  bytesOf 4 k ++ bytesOf 1 (hallModeCode h.mode) ++ bytesOf 1 (hallFlags c k) ++ bytesOf 1 h.count ++ bytesOf 1 (hallOwner h)
    ++ bytesOf 4 h.gen ++ List.replicate 4 0

def hallInfo (d : Dev) (ini first count : Nat) : Dev :=
  if count == 0 || count > 64 then { d with ctl := reply d.ctl ini 0xC001 rcInvalid [] }
  else
    let ks := ((List.range count).map (fun i => first + i)).filter (fun k => k < hallCount d.ctl)
    answerWith d ini 0xC001 (bytesOf 2 ks.length ++ List.replicate 6 0 ++ ks.flatMap (hallEntry d.ctl))

/-- A violation count and log in the layout of R127. -/
def violBytes (v : Viol) : List Byte := word8 (violCountWord v) ++ (List.range 64).flatMap (fun i => word8 (violLogWord v (8 * i)))

def violationLog (d : Dev) (ini head : Nat) : Dev :=
  if head < 16 then answerWith d ini 0xC004 (violBytes (headAt d.ctl head).viol)
  else if head == 16 && 0x40 ≤ ini then answerWith d ini 0xC004 (violBytes d.ctl.mgmt.viol)
  else { d with ctl := reply d.ctl ini 0xC004 rcInvalid [] }

/-- GET_NOVLEN_INFO (R127, R515). -/
def execGetNovlenInfo (ini : Byte) (s : State) : Host.Outcome State Fault Refusal :=
  onDev s (fun d => cmdRight d ini.toNat 0xC000 false (fun d =>
    cmdState d ini.toNat 0xC000 (infoState d.ctl) (fun d => answerWith d ini.toNat 0xC000 (novlenInfo d.ctl ini.toNat))))

/-- GET_HALL_INFO (R127). -/
def execGetHallInfo (ini : Byte) (first : BitVec 32) (count : BitVec 16) (s : State) : Host.Outcome State Fault Refusal :=
  onDev s (fun d => cmdRight d ini.toNat 0xC001 false (fun d =>
    cmdState d ini.toNat 0xC001 (infoState d.ctl) (fun d => hallInfo d ini.toNat first.toNat count.toNat)))

/-- GET_BUDGET (R127). -/
def execGetBudget (ini : Byte) (s : State) : Host.Outcome State Fault Refusal :=
  onDev s (fun d => cmdRight d ini.toNat 0xC002 false (fun d =>
    cmdState d ini.toNat 0xC002 (infoState d.ctl) (fun d => answerWith d ini.toNat 0xC002 (word8 (glbBudgetWord d.ctl) ++ word8 (glbBudgetParamWord d.ctl)))))

/-- GET_VIOLATION_LOG (R127, R515). -/
def execGetViolationLog (ini : Byte) (head : Byte) (s : State) : Host.Outcome State Fault Refusal :=
  onDev s (fun d => cmdRight d ini.toNat 0xC004 true (fun d =>
    cmdState d ini.toNat 0xC004 (infoState d.ctl) (fun d => violationLog d ini.toNat head.toNat)))

/-- GET_TIME_TS64 (R127, R516). -/
def execGetTimeTs64 (ini : Byte) (s : State) : Host.Outcome State Fault Refusal :=
  onDev s (fun d => cmdRight d ini.toNat 0xC006 false (fun d => answerWith d ini.toNat 0xC006 (word8 (now d.ctl))))

/-! ## HALL_SANITIZE (R127) -/

/-- The line of an 8 B pattern. -/
def patLine (p : Word) : Line := lineOf ((List.range 8).flatMap (fun _ => word8 p))

/-- The writes of a fill: every line of the hall, made by the Steward. -/
def fillReqs (c : Ctl) (k : Nat) (p : Word) : Ctl :=
  (List.range 16777216).foldl (fun c i => addReq c { Req.fresh (.sanitize k) 0x40 .write 0 (k * hallBytes + 64 * i) with data := patLine p }) c

/-- The sanitize mark changes here and, in SERVICE.PAIRED, on the partner (R127, R183). -/
def sanitizeMarkSet (c : Ctl) (k : Nat) (b : Bool) : Ctl :=
  let c := hallMod c k (fun h => { h with sanitize := b })
  if pairedNow c then sendRole c (.sanitize k b) (.sanitizeMark k b) else c

def sanitizeStart (d : Dev) (ini k : Nat) (p : Word) : Dev :=
  let c := d.ctl
  let h := hallAt c k
  if (backgroundOf c ini).isSome then { d with ctl := reply c ini 0xC003 rcBusy [] }
  else if k ≥ hallCount c || h.mode != .unassigned || h.fill.isSome then { d with ctl := reply c ini 0xC003 rcInvalid [] }
  else
    let c := reply (backgroundSet (sanitizeMarkSet c k true) ini (some 0xC003)) ini 0xC003 rcStarted []
    settle { d with ctl := fillReqs (onHall c k (fun h => { h with fill := some (p, ini) })) k p }

/-- HALL_SANITIZE (R127). -/
def execHallSanitize (ini : Byte) (hall : BitVec 32) (pattern : Word) (s : State) : Host.Outcome State Fault Refusal :=
  onDev s (fun d => cmdRight d ini.toNat 0xC003 true (fun d =>
    cmdState d ini.toNat 0xC003 d.ctl.glb.mode.service (fun d => sanitizeStart d ini.toNat hall.toNat pattern)))

/-- The completion of a background command reaches its mailbox: vector 0 of an LD (R87). -/
def backgroundEnd (c : Ctl) (ini : Nat) : Ctl :=
  let c := backgroundSet c ini none
  if ini < 0x40 then msixSend c ini 0 else emit c .i3cIbi

/-- A fill ends when every line is durable: the mark clears on both devices (R127). -/
def fillDone (c : Ctl) (k : Nat) : Ctl :=
  let h := hallAt c k
  match h.fill with
  | none => c
  | some (_, ini) =>
    if c.reqs.any (fun r => r.src == .sanitize k) then c
    else backgroundEnd (sanitizeMarkSet (onHall c k (fun h => { h with fill := none })) k false) ini

/-- SANITIZE_FILL_DONE (R127). -/
def execSanitizeFillDone (hall : BitVec 16) (s : State) : Host.Outcome State Fault Refusal := onCtl s (fun c => fillDone c hall.toNat)

/-! ## Quiesce, restart and hold-up (R127, R282, R495, R516, R518) -/

/-- QUIESCE ACTION 0 (R282). -/
def execQuiescePlanned (ini : Byte) (s : State) : Host.Outcome State Fault Refusal :=
  onDev s (fun d => cmdRight d ini.toNat 0xC010 true (fun d =>
    cmdState d ini.toNat 0xC010 d.ctl.glb.mode.service (fun d =>
      { d with ctl := saveBegin (reply d.ctl ini.toNat 0xC010 rcSuccess []) 0x20 ini.toNat 0 0 })))

/-- QUIESCE ACTION 1 (R495): a warm reset of a device whose reference is not settled is refused without a count. -/
def execQuiesceWarmReset (ini : Byte) (s : State) : Host.Outcome State Fault Refusal :=
  onDev s (fun d => cmdRight d ini.toNat 0xC010 true (fun d =>
    cmdState d ini.toNat 0xC010 (d.ctl.glb.mode.service || d.ctl.glb.mode == .hold) (fun d =>
      if d.ctl.glb.mode.service || (d.ctl.clk.ref100Settled && d.ctl.seq.running == .none) then (warmRequest (answerWith d ini.toNat 0xC010 []) ini.toNat).2
      else { d with ctl := reply d.ctl ini.toNat 0xC010 rcUnsupported [] })))

/-- RETRY_START (R32 codes 0x40 and 0x48, R516). -/
def execRetryStart (ini : Byte) (s : State) : Host.Outcome State Fault Refusal :=
  onDev s (fun d => cciOnly d ini.toNat 0xC013 (fun d =>
    cmdState d ini.toNat 0xC013 (d.ctl.glb.mode == .hold || d.ctl.glb.mode == .vestibule) (fun d =>
      if d.ctl.clk.ref100Settled && d.ctl.seq.running == .none then restartOp (answerWith d ini.toNat 0xC013 []) ini.toNat
      else { d with ctl := reply d.ctl ini.toNat 0xC013 rcUnsupported [] })))

/-- HOLDUP_MEASURE in SERVICE (R518). -/
def holdupOp (c : Ctl) (ini : Nat) : Ctl :=
  if c.hold.phase != .idle || (backgroundOf c ini).isSome then reply c ini 0xC012 rcBusy []
  else reply (onHold (holdRequest (backgroundSet c ini (some 0xC012))) (fun h => { h with byCommand := true })) ini 0xC012 rcStarted []

/-- HOLDUP_MEASURE (R518). -/
def execHoldupMeasure (ini : Byte) (s : State) : Host.Outcome State Fault Refusal :=
  onDev s (fun d => cmdRight d ini.toNat 0xC012 true (fun d =>
    cmdState d ini.toNat 0xC012 d.ctl.glb.mode.service (fun d => { d with ctl := holdupOp d.ctl ini.toNat })))

/-! ## Log freeze and time (R125, R516, R517, R519, R520) -/

/-- FREEZE_LOGS (R519). -/
def execFreezeLogs (ini : Byte) (s : State) : Host.Outcome State Fault Refusal :=
  onDev s (fun d => cmdRight d ini.toNat 0xC011 true (fun d => { d with ctl := reply (freezeOp d.ctl) ini.toNat 0xC011 rcSuccess [] }))

/-- THAW_LOGS (R520). -/
def execThawLogs (ini : Byte) (s : State) : Host.Outcome State Fault Refusal :=
  onDev s (fun d => cciOnly d ini.toNat 0xC015 (fun d =>
    cmdState d ini.toNat 0xC015 (!d.ctl.glb.fatal && d.ctl.glb.mode != .save && d.ctl.glb.mode != .vestibule) (fun d =>
      { d with ctl := reply { d.ctl with fcu := { d.ctl.fcu with frozen := false } } ini.toNat 0xC015 rcSuccess [] })))

/-- The time is set by halt, write and resume; Busy while HALT is 1 (R517). -/
def setTimeOp (c : Ctl) (ini op sec frac16 : Nat) : Ctl :=
  if c.rtc.halt then reply c ini op rcBusy [] else reply (setTimeSteps c sec (frac16 * 256)) ini op rcSuccess []

/-- The states that set the time (R516). -/
def timeState (c : Ctl) : Bool := !c.glb.fatal && c.glb.mode != .save

/-- SET_TIME (R517). -/
def execSetTime (ini : Byte) (ts : Word) (s : State) : Host.Outcome State Fault Refusal :=
  onDev s (fun d => cciOnly d ini.toNat 0xC014 (fun d => cmdState d ini.toNat 0xC014 (timeState d.ctl) (fun d =>
    { d with ctl := if ts.toNat % 256 != 0 then reply d.ctl ini.toNat 0xC014 rcInvalid []
                    else setTimeOp d.ctl ini.toNat 0xC014 (fieldOf ts.toNat 63 24) (fieldOf ts.toNat 23 8) })))

/-- 2000-01-01 in nanoseconds since 1970. -/
def epochNs : Nat := 946684800 * 1000000000

/-- SET_TIMESTAMP (R125). -/
def execSetTimestamp (h : Fin 16) (ld : Fin 4) (ns : Word) (s : State) : Host.Outcome State Fault Refusal :=
  onDev s (fun d =>
    let ini := 4 * h.val + ld.val
    let n := ns.toNat
    if !canReach d.ctl ini then d
    else if !mgmtRight d.ctl ini then { d with ctl := reply d.ctl ini 0x0301 rcUnsupported [] }
    else cmdState d ini 0x0301 (timeState d.ctl) (fun d =>
      { d with ctl := if n < epochNs then reply d.ctl ini 0x0301 rcInvalid []
                      else setTimeOp d.ctl ini 0x0301 ((n - epochNs) / 1000000000) (n % 1000000000 * 65536 / 1000000000) }))

/-! ## GET_MEASUREMENTS (R491) -/

/-- GET_MEASUREMENTS (R491): the hashes are operands of the command; an index that the device does not have has no value. -/
def execGetMeasurements (h : Fin 16) (index : Byte) (header page0 : BitVec 384) (s : State) : Host.Outcome State Fault Refusal :=
  onCtl s (fun c =>
    if (headAt c h).linkUp then
      let v : List Byte := match index.toNat with
        | 1 => bytesOf 48 header.toNat
        | 2 => word8 (slotSt c c.boot.runSlot).version
        | 3 => bytesOf 48 page0.toNat
        | 4 => word8 (bootStatusWord c)
        | _ => []
      emit c (.spdm h index.toNat v)
    else c)

/-! ## The MCTP endpoint (R505 to R509) -/

/-- A response of the endpoint, signalled by an in-band interrupt (R505). -/
def mctpSend (c : Ctl) (l : List Byte) : Ctl := emit (emit c (.mctp l)) .i3cIbi

/-- An MCTP control message is answered in every state but OFF (R506, R507). -/
def mctpCtrl (c : Ctl) (cmd : Nat) (data : List Byte) : Ctl := if aonOn c then mctpSend c ([0x00, 0x00, BitVec.ofNat 8 cmd, 0x00] ++ data) else c

/-- SET_ENDPOINT_ID (R506). -/
def execSetEndpointId (eid : Byte) (s : State) : Host.Outcome State Fault Refusal :=
  onCtl s (fun c => if aonOn c then mctpCtrl { c with mgmt := { c.mgmt with eid := eid.toNat } } 1 [0, eid, 0] else c)

/-- GET_ENDPOINT_ID (R506). -/
def execGetEndpointId (s : State) : Host.Outcome State Fault Refusal := onCtl s (fun c => mctpCtrl c 2 [BitVec.ofNat 8 c.mgmt.eid, 0, 0])

/-- GET_MCTP_VERSION_SUPPORT (R506): the version numbers are free values. -/
def execGetMctpVersionSupport (s : State) : Host.Outcome State Fault Refusal :=
  onCtl s (fun c => useFree (mctpCtrl c 4 (1 :: bytesOf 4 (freeNat c))))

/-- GET_MESSAGE_TYPE_SUPPORT (R506). -/
def execGetMessageTypeSupport (s : State) : Host.Outcome State Fault Refusal := onCtl s (fun c => mctpCtrl c 5 [4, 0x00, 0x07, 0x08, 0x7E])

/-- GET_VENDOR_DEFINED_MESSAGE_SUPPORT (R506, R508): the PCI vendor ID format; the vendor's command set number is a free value. -/
def execGetVendorDefinedMessageSupport (s : State) : Host.Outcome State Fault Refusal :=
  onCtl s (fun c => useFree (mctpCtrl c 6 ([0xFF, 0x00, 0x1F, 0x3A] ++ bytesOf 2 (freeNat c))))

/-- The endpoint takes its dynamic address (R505). -/
def dynAddrSet (c : Ctl) (a : Nat) : Ctl := if aonOn c then { c with mgmt := { c.mgmt with dynAddr := a } } else c

/-- ENTDAA (R505). -/
def execEntdaa (addr : BitVec 7) (s : State) : Host.Outcome State Fault Refusal := onCtl s (fun c => dynAddrSet c addr.toNat)

/-- SETDASA (R505). -/
def execSetdasa (addr : BitVec 7) (s : State) : Host.Outcome State Fault Refusal := onCtl s (fun c => dynAddrSet c addr.toNat)

/-- I3C_TARGET_RESET (R507): held requests go, address and ID stay. -/
def execI3cTargetReset (s : State) : Host.Outcome State Fault Refusal :=
  onCtl s (fun c => if aonOn c then { c with mgmt := { c.mgmt with held := 0 } } else c)

/-- BAR2 is 64 MiB (R10). -/
def bar2Size : Nat := 0x4000000

/-- A register-access message is malformed (R509). -/
def mctpBad (vendor size count b7 off : Nat) : Bool :=
  vendor != 0x1F3A || !(size == 4 || size == 8) || count == 0 || count > 32 || b7 != 0 || off + count * size > bar2Size

/-- STATUS of an access that a check refused (R509). -/
def gateStatus : GateRes → Nat
  | .ok | .silent => 0
  | .noRight => 1
  | .badSize => 2
  | .stopped => 3

/-- The response to a register-access message (R508). -/
def mctpReply (c : Ctl) (op tag status done off : Nat) (data : List Byte) : Ctl :=
  mctpSend c (bytesOf 1 0x7E ++ [0x1F, 0x3A] ++ bytesOf 1 (0x80 + op) ++ bytesOf 1 tag ++ bytesOf 1 status ++ bytesOf 1 done ++ [0] ++ bytesOf 4 off ++ data)

/-- A malformed message is counted and answered with STATUS 0x04 (R509). -/
def mctpMalformed (c : Ctl) (op tag off : Nat) : Ctl :=
  mctpReply { c with mgmt := { c.mgmt with dropped := satInc c.mgmt.dropped 0xFFFF } } op tag 4 0 off []

/-- n registers are read in order until an access fails: STATUS, registers completed, data (R508, R509). -/
def mctpReads (size : Nat) : Nat → Ctl → Nat → (Nat × Nat × List Byte) × Ctl
  | 0, c, _ => ((0, 0, []), c)
  | n + 1, c, off =>
    match gateOf c 0x60 off size false with
    | .ok =>
      let (w, c) := readReg c 0x60 off size
      let ((st, k, l), c) := mctpReads size n c (off + size)
      ((st, k + 1, bytesOf size w.toNat ++ l), c)
    | g => ((gateStatus g, 0, []), gateFail c g 0x60 off false)

/-- MCTP_REGISTER_READ (R508, R509). -/
def execMctpRegisterRead (vendor : BitVec 16) (mtag size count b7 : Byte) (off : BitVec 32) (s : State) : Host.Outcome State Fault Refusal :=
  onCtl s (fun c =>
    if !aonOn c then c
    else if mctpBad vendor.toNat size.toNat count.toNat b7.toNat off.toNat then mctpMalformed c 1 mtag.toNat off.toNat
    else
      let ((st, k, l), c) := mctpReads size.toNat count.toNat c off.toNat
      mctpReply c 1 mtag.toNat st k off.toNat l)

/-- Registers are written in order until an access fails: STATUS and registers completed (R508, R509). -/
def mctpWrites (size : Nat) : List Word → Dev → Nat → (Nat × Nat) × Dev
  | [], d, _ => ((0, 0), d)
  | w :: l, d, off =>
    match gateOf d.ctl 0x60 off size true with
    | .ok =>
      let ((st, k), d) := mctpWrites size l (writeReg d 0x60 off size w.toNat) (off + size)
      ((st, k + 1), d)
    | g => ((gateStatus g, 0), { d with ctl := gateFail d.ctl g 0x60 off true })

/-- MCTP_REGISTER_WRITE (R508, R509). -/
def execMctpRegisterWrite (vendor : BitVec 16) (mtag size count b7 : Byte) (off : BitVec 32) (vals : List Word) (s : State) : Host.Outcome State Fault Refusal :=
  onDev s (fun d =>
    if !aonOn d.ctl then d
    else if mctpBad vendor.toNat size.toNat count.toNat b7.toNat off.toNat || vals.length != count.toNat then
      { d with ctl := mctpMalformed d.ctl 2 mtag.toNat off.toNat }
    else
      let ((st, k), d) := mctpWrites size.toNat vals d off.toNat
      { d with ctl := mctpReply d.ctl 2 mtag.toNat st k off.toNat [] })

end Sys2Proof.Machine
end

