-- ==== Sys2Proof/Machine/Tenancy.lean ====
section
/-! DEFINITION. Machine/Tenancy.lean: the CXL FM API (R85, R92 to R97, R521, R522). Response layouts are those of CXL 3.1 (PRESUMED, log entry 34). -/
namespace Sys2Proof.Machine

/-! ## States (R521) -/

/-- An FM API answer. -/
def fm (c : Ctl) (op code : Nat) (payload : List Byte) : Ctl := emit c (.fmApi op code payload)

/-- FM API commands are carried out in SERVICE; in VAULT.START they return Busy, in every other state Unsupported (R521). -/
def fmCode (c : Ctl) : Option Nat := if c.glb.mode.service then none else some (if c.glb.mode == .start then rcBusy else rcUnsupported)

def fmGateC (c : Ctl) (op : Nat) (f : Ctl → Ctl) : Ctl :=
  if !aonOn c then c
  else match fmCode c with
    | some n => fm c op n []
    | none => f c

def fmGate (d : Dev) (op : Nat) (f : Dev → Dev) : Dev :=
  if !aonOn d.ctl then d
  else match fmCode d.ctl with
    | some n => { d with ctl := fm d.ctl op n [] }
    | none => f d

/-! ## Information and status -/

/-- Identify: vendor, device, subsystem IDs and the die serial number (R522). -/
def fmIdentify (c : Ctl) : Ctl :=
  fm c 0x0001 rcSuccess (bytesOf 2 0x1F3A ++ bytesOf 2 0x9472 ++ bytesOf 2 0x1F3A ++ bytesOf 2 0x9472 ++ bytesOf 8 (Config.dieSerial.toNat % 2 ^ 32)
    ++ bytesOf 1 c.mgmt.respLimit ++ bytesOf 1 3)

/-- Background Operation Status of the management CCI: a command runs, or none. -/
def fmBackground (c : Ctl) : Ctl :=
  fm c 0x0002 rcSuccess (bytesOf 1 (b2n c.mgmt.background.isSome) ++ [0] ++ bytesOf 2 (c.mgmt.background.getD 0) ++ bytesOf 2 0 ++ bytesOf 2 0)

/-- IDENTIFY (R521). -/
def execIdentify (s : State) : Host.Outcome State Fault Refusal := onCtl s (fun c => fmGateC c 0x0001 fmIdentify)

/-- BACKGROUND_OPERATION_STATUS (R521). -/
def execBackgroundOperationStatus (s : State) : Host.Outcome State Fault Refusal := onCtl s (fun c => fmGateC c 0x0002 fmBackground)

/-- GET_RESPONSE_MESSAGE_LIMIT (R521). -/
def execGetResponseMessageLimit (s : State) : Host.Outcome State Fault Refusal :=
  onCtl s (fun c => fmGateC c 0x0003 (fun c => fm c 0x0003 rcSuccess (bytesOf 1 c.mgmt.respLimit)))

/-- SET_RESPONSE_MESSAGE_LIMIT (R521): 2^8 B to 2^20 B. -/
def execSetResponseMessageLimit (limit : Byte) (s : State) : Host.Outcome State Fault Refusal :=
  onCtl s (fun c => fmGateC c 0x0004 (fun c =>
    if 8 ≤ limit.toNat && limit.toNat ≤ 20 then fm { c with mgmt := { c.mgmt with respLimit := limit.toNat } } 0x0004 rcSuccess (bytesOf 1 limit.toNat)
    else fm c 0x0004 rcInvalid []))

/-! ## MLD components of a head -/

/-- Get LD Info: the device's capacity, LD_COUNT, and the QoS telemetry capability (R82). -/
def ldInfoOp (c : Ctl) (h : Nat) : Ctl :=
  fm c 0x5400 rcSuccess (bytesOf 8 (hallCount c * hallBytes) ++ bytesOf 2 (headAt c h).ldCount ++ [1])

/-- Get LD Allocations: no LD has static capacity (R82). -/
def ldAllocOp (c : Ctl) (h : Nat) : Ctl :=
  let n := (headAt c h).ldCount
  fm c 0x5401 rcSuccess (bytesOf 1 n ++ [0, 0] ++ bytesOf 1 n ++ List.replicate (16 * n) 0)

/-- Get QoS Control. -/
def qosControlOp (c : Ctl) (h : Nat) : Ctl := fm c 0x5403 rcSuccess (word8 (headAt c h).qosControl)

/-- Get QoS Status: the backpressure average is a free value. -/
def qosStatusOp (c : Ctl) : Ctl := useFree (fm c 0x5405 rcSuccess (bytesOf 1 (freeNat c % 101)))

/-- A value of each LD that the head presents. -/
def ldBytes (c : Ctl) (h : Nat) (f : Ld → Nat) : List Byte := (List.range (headAt c h).ldCount).map (fun i => BitVec.ofNat 8 (f (ldAt c (4 * h + i))))

def qosAllocOp (c : Ctl) (h : Nat) : Ctl := fm c 0x5406 rcSuccess (bytesOf 1 (headAt c h).ldCount ++ [0] ++ ldBytes c h (fun x => x.qosAlloc))
def qosLimitOp (c : Ctl) (h : Nat) : Ctl := fm c 0x5408 rcSuccess (bytesOf 1 (headAt c h).ldCount ++ [0] ++ ldBytes c h (fun x => x.qosLimit))

/-- Values for the LDs of a head from `first` on: Invalid Input beyond the LDs presented. -/
def qosSet (c : Ctl) (op h first : Nat) (vals : List Byte) (f : Nat → Ld → Ld) : Ctl :=
  if first + vals.length > (headAt c h).ldCount then fm c op rcInvalid []
  else
    let c := (withIndex vals).foldl (fun c x => onLd c (4 * h + first + x.1) (f x.2.toNat)) c
    fm c op rcSuccess (bytesOf 1 vals.length ++ bytesOf 1 first ++ vals)

/-- GET_LD_INFO (R521). -/
def execGetLdInfo (h : Fin 16) (s : State) : Host.Outcome State Fault Refusal := onCtl s (fun c => fmGateC c 0x5400 (fun c => ldInfoOp c h))

/-- GET_LD_ALLOCATIONS (R521). -/
def execGetLdAllocations (h : Fin 16) (s : State) : Host.Outcome State Fault Refusal := onCtl s (fun c => fmGateC c 0x5401 (fun c => ldAllocOp c h))

/-- SET_LD_ALLOCATIONS (R82, R521): only zero static capacity. -/
def execSetLdAllocations (_h : Fin 16) (allocs : List (BitVec 64)) (s : State) : Host.Outcome State Fault Refusal :=
  onCtl s (fun c => fmGateC c 0x5402 (fun c =>
    if allocs.all (fun a => a == 0) then fm c 0x5402 rcSuccess (allocs.flatMap word8) else fm c 0x5402 rcInvalid []))

/-- GET_QOS_CONTROL (R521). -/
def execGetQosControl (h : Fin 16) (s : State) : Host.Outcome State Fault Refusal := onCtl s (fun c => fmGateC c 0x5403 (fun c => qosControlOp c h))

/-- SET_QOS_CONTROL (R521). -/
def execSetQosControl (h : Fin 16) (v : Word) (s : State) : Host.Outcome State Fault Refusal :=
  onCtl s (fun c => fmGateC c 0x5404 (fun c => fm (onHead c h (fun x => { x with qosControl := v })) 0x5404 rcSuccess (word8 v)))

/-- GET_QOS_STATUS (R521). -/
def execGetQosStatus (_h : Fin 16) (s : State) : Host.Outcome State Fault Refusal := onCtl s (fun c => fmGateC c 0x5405 qosStatusOp)

/-- GET_QOS_ALLOCATED_BW (R521). -/
def execGetQosAllocatedBw (h : Fin 16) (s : State) : Host.Outcome State Fault Refusal := onCtl s (fun c => fmGateC c 0x5406 (fun c => qosAllocOp c h))

/-- SET_QOS_ALLOCATED_BW (R521). -/
def execSetQosAllocatedBw (h : Fin 16) (first : Fin 4) (vals : List Byte) (s : State) : Host.Outcome State Fault Refusal :=
  onCtl s (fun c => fmGateC c 0x5407 (fun c => qosSet c 0x5407 h first vals (fun v x => { x with qosAlloc := v })))

/-- GET_QOS_BW_LIMIT (R521). -/
def execGetQosBwLimit (h : Fin 16) (s : State) : Host.Outcome State Fault Refusal := onCtl s (fun c => fmGateC c 0x5408 (fun c => qosLimitOp c h))

/-- SET_QOS_BW_LIMIT (R521). -/
def execSetQosBwLimit (h : Fin 16) (first : Fin 4) (vals : List Byte) (s : State) : Host.Outcome State Fault Refusal :=
  onCtl s (fun c => fmGateC c 0x5409 (fun c => qosSet c 0x5409 h first vals (fun v x => { x with qosLimit := v })))

/-! ## Multi-headed device -/

/-- Get Multi-Headed Info: 64 LD numbers over 16 heads; LD d belongs to head d / 4 (R7, R84). -/
def multiHeadOp (c : Ctl) : Ctl :=
  fm c 0x5500 rcSuccess ([64, 16, 0, 0, 0, 64, 0, 0] ++ (List.range 64).map (fun d => BitVec.ofNat 8 (if ldPresented c d then d / 4 else 0xFF)))

/-- Get Head Info: port, widths, speeds and link state of a head. -/
def headInfoOp (c : Ctl) (h : Nat) : Ctl :=
  let x := headAt c h
  fm c 0x5501 rcSuccess (bytesOf 1 h ++ [8] ++ bytesOf 1 x.width ++ bytesOf 1 x.maxRate ++ bytesOf 1 x.rate ++ bytesOf 1 (b2n x.linkUp))

/-- GET_MULTI_HEADED_INFO (R521). -/
def execGetMultiHeadedInfo (s : State) : Host.Outcome State Fault Refusal := onCtl s (fun c => fmGateC c 0x5500 multiHeadOp)

/-- GET_HEAD_INFO (R521). -/
def execGetHeadInfo (h : Fin 16) (s : State) : Host.Outcome State Fault Refusal := onCtl s (fun c => fmGateC c 0x5501 (fun c => headInfoOp c h))

/-! ## Dynamic capacity -/

/-- Get DCD Info: 64 hosts, 2 regions each, the device's capacity and blocks of 1 GiB (R82, R89). -/
def dcdInfoOp (c : Ctl) : Ctl :=
  fm c 0x5600 rcSuccess ([64, 2, 0, 0] ++ bytesOf 8 (hallCount c * hallBytes) ++ bytesOf 8 hallBytes ++ bytesOf 8 hallBytes)

/-- A DC region of an LD (R89): base, length and block size. -/
def regionBytes (c : Ctl) (r : Nat) : List Byte :=
  bytesOf 8 (if r == 0 then 0 else region1) ++ bytesOf 8 (hallCount c * hallBytes) ++ bytesOf 8 hallBytes

def dcConfigOp (c : Ctl) (d : Nat) : Ctl :=
  if ldPresented c d then fm c 0x5601 rcSuccess (bytesOf 2 d ++ [2, 2] ++ regionBytes c 0 ++ regionBytes c 1) else fm c 0x5601 rcInvalid []

/-- Set DC Region Configuration accepts the block size of 1 GiB and the regions of R89 alone (R521). -/
def dcSetOp (c : Ctl) (d region block base len : Nat) : Ctl :=
  if ldPresented c d && region < 2 && block == hallBytes && base == (if region == 0 then 0 else region1) && len == hallCount c * hallBytes then fm c 0x5602 rcSuccess []
  else fm c 0x5602 rcInvalid []

/-- The extents of an LD: one for each assigned hall, in hall order (R89). -/
def extents (c : Ctl) (d : Nat) : List (List Byte) :=
  (c.halls.filter (fun x => x.2.sharers.any (fun s => s.here && s.ld == d))).map (fun x =>
    bytesOf 8 (x.1 * hallBytes + (if x.2.mode == .shared then region1 else 0)) ++ bytesOf 8 hallBytes ++ bytesOf 16 x.2.tag ++ List.replicate 8 0)

/-- Get DC Region Extent Lists; the list's generation number is a free value. -/
def extentListOp (c : Ctl) (d first count : Nat) : Ctl :=
  if ldPresented c d then
    let all := extents c d
    let l := (all.drop first).take count
    useFree (fm c 0x5603 rcSuccess (bytesOf 2 d ++ [0, 0] ++ bytesOf 4 first ++ bytesOf 4 l.length ++ bytesOf 4 all.length ++ bytesOf 4 (freeNat c) ++ bytesOf 4 0
      ++ l.flatMap id))
  else fm c 0x5603 rcInvalid []

/-- GET_DCD_INFO (R521). -/
def execGetDcdInfo (s : State) : Host.Outcome State Fault Refusal := onCtl s (fun c => fmGateC c 0x5600 dcdInfoOp)

/-- GET_HOST_DC_REGION_CONFIGURATION (R89, R521). -/
def execGetHostDcRegionConfiguration (h : Fin 16) (ld : Fin 4) (s : State) : Host.Outcome State Fault Refusal :=
  onCtl s (fun c => fmGateC c 0x5601 (fun c => dcConfigOp c (4 * h + ld)))

/-- SET_DC_REGION_CONFIGURATION (R521). -/
def execSetDcRegionConfiguration (h : Fin 16) (ld : Fin 4) (region : Byte) (block base len : Word) (s : State) : Host.Outcome State Fault Refusal :=
  onCtl s (fun c => fmGateC c 0x5602 (fun c => dcSetOp c (4 * h + ld) region.toNat block.toNat base.toNat len.toNat))

/-- GET_DC_REGION_EXTENT_LISTS (R521). -/
def execGetDcRegionExtentLists (h : Fin 16) (ld : Fin 4) (first count : BitVec 32) (s : State) : Host.Outcome State Fault Refusal :=
  onCtl s (fun c => fmGateC c 0x5603 (fun c => extentListOp c (4 * h + ld) first.toNat count.toNat))

/-- A tenancy operation takes its place behind those that wait (R522). -/
def tenantIn (d : Dev) (x : TenOp) : Dev := settle { d with ctl := { d.ctl with tenants := d.ctl.tenants ++ [x] } }

/-- Tenancy operations are accepted only through the FM-owned LD, which the fabric manager reaches by the head's CXL.io or the MCTP endpoint; another
LD's mailbox answers Unsupported (R85). -/
def tenancyGate (d : Dev) (ini op : Nat) (f : Dev → Dev) : Dev :=
  if 0x40 ≤ ini then fmGate d op f else if canReach d.ctl ini then { d with ctl := reply d.ctl ini op rcUnsupported [] } else d

/-- INITIATE_DYNAMIC_CAPACITY_ADD (R85, R92 to R95). -/
def execInitiateDynamicCapacityAdd (ini : Byte) (here : Bool) (dld : Fin 64) (hall : BitVec 16) (shared : Bool) (etag : BitVec 128) (s : State) :
    Host.Outcome State Fault Refusal :=
  onDev s (fun d => tenancyGate d ini.toNat 0x5604 (fun d =>
    tenantIn d { add := true, ini := ini.toNat, here := here, ld := dld, hall := hall.toNat, shared := shared, tag := etag.toNat }))

/-- INITIATE_DYNAMIC_CAPACITY_RELEASE (R85, R96). -/
def execInitiateDynamicCapacityRelease (ini : Byte) (here : Bool) (dld : Fin 64) (hall : BitVec 16) (s : State) : Host.Outcome State Fault Refusal :=
  onDev s (fun d => tenancyGate d ini.toNat 0x5605 (fun d =>
    tenantIn d { add := false, ini := ini.toNat, here := here, ld := dld, hall := hall.toNat, shared := false, tag := 0 }))

/-! ## Tunnel management -/

/-- A command for the FM-owned LD of a head, named by its opcode alone; those with an input are rows of their own. -/
def tunnelled (c : Ctl) (h op : Nat) : Ctl :=
  match op with
  | 0x0001 => fmIdentify c
  | 0x0002 => fmBackground c
  | 0x0003 => fm c 0x0003 rcSuccess (bytesOf 1 c.mgmt.respLimit)
  | 0x5400 => ldInfoOp c h
  | 0x5401 => ldAllocOp c h
  | 0x5403 => qosControlOp c h
  | 0x5405 => qosStatusOp c
  | 0x5406 => qosAllocOp c h
  | 0x5408 => qosLimitOp c h
  | 0x5500 => multiHeadOp c
  | 0x5501 => headInfoOp c h
  | 0x5600 => dcdInfoOp c
  | _ => fm c op rcUnsupported []

/-- The opcodes whose commands carry an input. -/
def fmWithInput : List Nat := [0x0004, 0x5402, 0x5404, 0x5407, 0x5409, 0x5601, 0x5602, 0x5603, 0x5604, 0x5605]

/-- TUNNEL_MANAGEMENT_COMMAND (R521): one level, to HP0 to HP15. -/
def execTunnelManagementCommand (port : Byte) (opcode : BitVec 16) (s : State) : Host.Outcome State Fault Refusal :=
  onCtl s (fun c => fmGateC c 0x5300 (fun c =>
    if port.toNat ≥ 16 then fm c 0x5300 rcInvalid []
    else if fmWithInput.contains opcode.toNat then fm c 0x5300 rcSuccess []
    else tunnelled (fm c 0x5300 rcSuccess []) port.toNat opcode.toNat))

end Sys2Proof.Machine
end

