-- ==== Sys2Proof/Machine/Dispatch.lean ====
section
/-! DEFINITION. Machine/Dispatch.lean: the meaning of each command, one arm per constructor. -/
namespace Sys2Proof.Machine

def exec (i : Instr) (s : State) : Host.Outcome State Fault Refusal :=
  match i with
  | .backupDomainPowerOnReset => Sys2Proof.Machine.execBackupDomainPowerOnReset s
  | .vbatSwitchover toVbat => Sys2Proof.Machine.execVbatSwitchover toVbat s
  | .alwaysOnPowerOnReset senseGood pfN ref100 ref156 => Sys2Proof.Machine.execAlwaysOnPowerOnReset senseGood pfN ref100 ref156 s
  | .alwaysOnSupplyLoss cut tornRing => Sys2Proof.Machine.execAlwaysOnSupplyLoss cut tornRing s
  | .resetNAssert => Sys2Proof.Machine.execResetNAssert s
  | .resetNRelease senseGood pfN => Sys2Proof.Machine.execResetNRelease senseGood pfN s
  | .inputGoodTimerExpiry => Sys2Proof.Machine.execInputGoodTimerExpiry s
  | .minOffTimeExpiry => Sys2Proof.Machine.execMinOffTimeExpiry s
  | .onRequest sfdpOk a b => Sys2Proof.Machine.execOnRequest sfdpOk a b s
  | .bootStage1 vaonMv hashA hashB fcuOk => Sys2Proof.Machine.execBootStage1 vaonMv hashA hashB fcuOk s
  | .bootStage2 badGals badMap badFlight => Sys2Proof.Machine.execBootStage2 badGals badMap badFlight s
  | .dchTrainingDone ch p => Sys2Proof.Machine.execDchTrainingDone ch p s
  | .vaultMount p => Sys2Proof.Machine.execVaultMount p s
  | .pairWaitExpiry => Sys2Proof.Machine.execPairWaitExpiry s
  | .startComplete => Sys2Proof.Machine.execStartComplete s
  | .startFail cause => Sys2Proof.Machine.execStartFail cause s
  | .startMaxExpiry => Sys2Proof.Machine.execStartMaxExpiry s
  | .stewardWatchdogExpiry => Sys2Proof.Machine.execStewardWatchdogExpiry s
  | .bootStableTimeExpiry => Sys2Proof.Machine.execBootStableTimeExpiry s
  | .warmReset sfdpOk a b badGals => Sys2Proof.Machine.execWarmReset sfdpOk a b badGals s
  | .dozeIdleExpiry g => Sys2Proof.Machine.execDozeIdleExpiry g s
  | .dozeWake g => Sys2Proof.Machine.execDozeWake g s
  | .memRd h ld ctag dpa snp ecc => Sys2Proof.Machine.execMemRd h ld ctag dpa snp ecc s
  | .memSpecRd h ld ctag dpa freeSlot => Sys2Proof.Machine.execMemSpecRd h ld ctag dpa freeSlot s
  | .memWr h ld ctag dpa data poison => Sys2Proof.Machine.execMemWr h ld ctag dpa data poison s
  | .memWrPtl h ld ctag dpa mask data poison => Sys2Proof.Machine.execMemWrPtl h ld ctag dpa mask data poison s
  | .memClnEvct h ld ctag dpa => Sys2Proof.Machine.execMemClnEvct h ld ctag dpa s
  | .writeThrottleExpiry w link id => Sys2Proof.Machine.execWriteThrottleExpiry w link id s
  | .biRspFromHost h ld haddr resp data poison => Sys2Proof.Machine.execBiRspFromHost h ld haddr resp data poison s
  | .biConflict h ld haddr => Sys2Proof.Machine.execBiConflict h ld haddr s
  | .biTimeoutExpiry here dld haddr => Sys2Proof.Machine.execBiTimeoutExpiry here dld haddr s
  | .coldSweepSnoop g => Sys2Proof.Machine.execColdSweepSnoop g s
  | .gpfPhase2 h => Sys2Proof.Machine.execGpfPhase2 h s
  | .headLinkDown h => Sys2Proof.Machine.execHeadLinkDown h s
  | .perstNAssert h => Sys2Proof.Machine.execPerstNAssert h s
  | .perstNRelease h => Sys2Proof.Machine.execPerstNRelease h s
  | .hotReset h => Sys2Proof.Machine.execHotReset h s
  | .cxlReset h ld => Sys2Proof.Machine.execCxlReset h ld s
  | .ideIntegrityFailure w => Sys2Proof.Machine.execIdeIntegrityFailure w s
  | .decoderCommit h ld dec ways base size => Sys2Proof.Machine.execDecoderCommit h ld dec ways base size s
  | .injectPoison h ld dpa => Sys2Proof.Machine.execInjectPoison h ld dpa s
  | .clearPoison h ld dpa data => Sys2Proof.Machine.execClearPoison h ld dpa data s
  | .getPoisonList h ld dpa len => Sys2Proof.Machine.execGetPoisonList h ld dpa len s
  | .getTimestamp h ld => Sys2Proof.Machine.execGetTimestamp h ld s
  | .setTimestamp h ld ns => Sys2Proof.Machine.execSetTimestamp h ld ns s
  | .setShutdownState h ld v => Sys2Proof.Machine.execSetShutdownState h ld v s
  | .getHealthInfo h ld tempC => Sys2Proof.Machine.execGetHealthInfo h ld tempC s
  | .setLsa h ld off bytes => Sys2Proof.Machine.execSetLsa h ld off bytes s
  | .getMeasurements h index header page0 => Sys2Proof.Machine.execGetMeasurements h index header page0 s
  | .getNovlenInfo ini => Sys2Proof.Machine.execGetNovlenInfo ini s
  | .getHallInfo ini first count => Sys2Proof.Machine.execGetHallInfo ini first count s
  | .getBudget ini => Sys2Proof.Machine.execGetBudget ini s
  | .hallSanitize ini hall pattern => Sys2Proof.Machine.execHallSanitize ini hall pattern s
  | .sanitizeFillDone hall => Sys2Proof.Machine.execSanitizeFillDone hall s
  | .getViolationLog ini head => Sys2Proof.Machine.execGetViolationLog ini head s
  | .getTimeTs64 ini => Sys2Proof.Machine.execGetTimeTs64 ini s
  | .quiescePlanned ini => Sys2Proof.Machine.execQuiescePlanned ini s
  | .quiesceWarmReset ini => Sys2Proof.Machine.execQuiesceWarmReset ini s
  | .freezeLogs ini => Sys2Proof.Machine.execFreezeLogs ini s
  | .thawLogs ini => Sys2Proof.Machine.execThawLogs ini s
  | .holdupMeasure ini => Sys2Proof.Machine.execHoldupMeasure ini s
  | .retryStart ini => Sys2Proof.Machine.execRetryStart ini s
  | .setTime ini ts => Sys2Proof.Machine.execSetTime ini ts s
  | .initiateDynamicCapacityAdd ini here dld hall shared etag => Sys2Proof.Machine.execInitiateDynamicCapacityAdd ini here dld hall shared etag s
  | .initiateDynamicCapacityRelease ini here dld hall => Sys2Proof.Machine.execInitiateDynamicCapacityRelease ini here dld hall s
  | .identify => Sys2Proof.Machine.execIdentify s
  | .backgroundOperationStatus => Sys2Proof.Machine.execBackgroundOperationStatus s
  | .getResponseMessageLimit => Sys2Proof.Machine.execGetResponseMessageLimit s
  | .setResponseMessageLimit limit => Sys2Proof.Machine.execSetResponseMessageLimit limit s
  | .tunnelManagementCommand port opcode => Sys2Proof.Machine.execTunnelManagementCommand port opcode s
  | .getLdInfo h => Sys2Proof.Machine.execGetLdInfo h s
  | .getLdAllocations h => Sys2Proof.Machine.execGetLdAllocations h s
  | .setLdAllocations h allocs => Sys2Proof.Machine.execSetLdAllocations h allocs s
  | .getQosControl h => Sys2Proof.Machine.execGetQosControl h s
  | .setQosControl h v => Sys2Proof.Machine.execSetQosControl h v s
  | .getQosStatus h => Sys2Proof.Machine.execGetQosStatus h s
  | .getQosAllocatedBw h => Sys2Proof.Machine.execGetQosAllocatedBw h s
  | .setQosAllocatedBw h first vals => Sys2Proof.Machine.execSetQosAllocatedBw h first vals s
  | .getQosBwLimit h => Sys2Proof.Machine.execGetQosBwLimit h s
  | .setQosBwLimit h first vals => Sys2Proof.Machine.execSetQosBwLimit h first vals s
  | .getMultiHeadedInfo => Sys2Proof.Machine.execGetMultiHeadedInfo s
  | .getHeadInfo h => Sys2Proof.Machine.execGetHeadInfo h s
  | .getDcdInfo => Sys2Proof.Machine.execGetDcdInfo s
  | .getHostDcRegionConfiguration h ld => Sys2Proof.Machine.execGetHostDcRegionConfiguration h ld s
  | .setDcRegionConfiguration h ld region block base len => Sys2Proof.Machine.execSetDcRegionConfiguration h ld region block base len s
  | .getDcRegionExtentLists h ld first count => Sys2Proof.Machine.execGetDcRegionExtentLists h ld first count s
  | .setEndpointId eid => Sys2Proof.Machine.execSetEndpointId eid s
  | .getEndpointId => Sys2Proof.Machine.execGetEndpointId s
  | .getMctpVersionSupport => Sys2Proof.Machine.execGetMctpVersionSupport s
  | .getMessageTypeSupport => Sys2Proof.Machine.execGetMessageTypeSupport s
  | .getVendorDefinedMessageSupport => Sys2Proof.Machine.execGetVendorDefinedMessageSupport s
  | .entdaa addr => Sys2Proof.Machine.execEntdaa addr s
  | .setdasa addr => Sys2Proof.Machine.execSetdasa addr s
  | .i3cTargetReset => Sys2Proof.Machine.execI3cTargetReset s
  | .mctpRegisterRead vendor mtag size count b7 off => Sys2Proof.Machine.execMctpRegisterRead vendor mtag size count b7 off s
  | .mctpRegisterWrite vendor mtag size count b7 off vals => Sys2Proof.Machine.execMctpRegisterWrite vendor mtag size count b7 off vals s
  | .registerWrite ini off size val => Sys2Proof.Machine.execRegisterWrite ini off size val s
  | .peakClr ini h => Sys2Proof.Machine.execPeakClr ini h s
  | .galReset ini g => Sys2Proof.Machine.execGalReset ini g s
  | .galleryResetDone g p0 p1 p2 p3 => Sys2Proof.Machine.execGalleryResetDone g p0 p1 p2 p3 s
  | .frameSwitch => Sys2Proof.Machine.execFrameSwitch s
  | .scrubRead g ecc => Sys2Proof.Machine.execScrubRead g ecc s
  | .cleanerCopy g riser => Sys2Proof.Machine.execCleanerCopy g riser s
  | .slabCloseTimeout g => Sys2Proof.Machine.execSlabCloseTimeout g s
  | .wordlineFillTimeout => Sys2Proof.Machine.execWordlineFillTimeout s
  | .vaultProgramDone lun pass => Sys2Proof.Machine.execVaultProgramDone lun pass s
  | .vaultEraseDone lun pass => Sys2Proof.Machine.execVaultEraseDone lun pass s
  | .eraseBatchIssue => Sys2Proof.Machine.execEraseBatchIssue s
  | .vaultCodewordReadDone lun block res riser => Sys2Proof.Machine.execVaultCodewordReadDone lun block res riser s
  | .lunReadyTimeout lun => Sys2Proof.Machine.execLunReadyTimeout lun s
  | .busyStallTimeout lun => Sys2Proof.Machine.execBusyStallTimeout lun s
  | .vaultPatrolRead lun block res => Sys2Proof.Machine.execVaultPatrolRead lun block res s
  | .compactionTread tread bad => Sys2Proof.Machine.execCompactionTread tread bad s
  | .checkpointTimer => Sys2Proof.Machine.execCheckpointTimer s
  | .allowanceBucketTimer => Sys2Proof.Machine.execAllowanceBucketTimer s
  | .demandFetchDone tread us bad => Sys2Proof.Machine.execDemandFetchDone tread us bad s
  | .restoreTreadDone tread bad => Sys2Proof.Machine.execRestoreTreadDone tread bad s
  | .pfSenseLow => Sys2Proof.Machine.execPfSenseLow s
  | .pfSenseRecover => Sys2Proof.Machine.execPfSenseRecover s
  | .pfFilterExpiry => Sys2Proof.Machine.execPfFilterExpiry s
  | .pfNFall => Sys2Proof.Machine.execPfNFall s
  | .cutOff ns => Sys2Proof.Machine.execCutOff ns s
  | .landingUnitProgrammed pass badLines => Sys2Proof.Machine.execLandingUnitProgrammed pass badLines s
  | .saveRecordProgrammed ms => Sys2Proof.Machine.execSaveRecordProgrammed ms s
  | .pmdTrainDone tl good => Sys2Proof.Machine.execPmdTrainDone tl good s
  | .pmdTrainTimeout tl => Sys2Proof.Machine.execPmdTrainTimeout tl s
  | .codewordLock tl lock => Sys2Proof.Machine.execCodewordLock tl lock s
  | .alignTimeout tl => Sys2Proof.Machine.execAlignTimeout tl s
  | .codewordLockLoss tl => Sys2Proof.Machine.execCodewordLockLoss tl s
  | .initTimeout tl => Sys2Proof.Machine.execInitTimeout tl s
  | .lostIdleExpiry tl => Sys2Proof.Machine.execLostIdleExpiry tl s
  | .dataFlit tl hdr slots crc corrected uncorr => Sys2Proof.Machine.execDataFlit tl hdr slots crc corrected uncorr s
  | .ctrlIdle tl fack => Sys2Proof.Machine.execCtrlIdle tl fack s
  | .retryReq tl fack expected => Sys2Proof.Machine.execRetryReq tl fack expected s
  | .retryReqRepeat tl => Sys2Proof.Machine.execRetryReqRepeat tl s
  | .ctrlInit tl f => Sys2Proof.Machine.execCtrlInit tl f s
  | .initAck tl f => Sys2Proof.Machine.execInitAck tl f s
  | .retrainReq f => Sys2Proof.Machine.execRetrainReq f s
  | .heartbeatSend tl => Sys2Proof.Machine.execHeartbeatSend tl s
  | .linkLostTimeout tl => Sys2Proof.Machine.execLinkLostTimeout tl s
  | .laneSerWindow tl lane errs ppm => Sys2Proof.Machine.execLaneSerWindow tl lane errs ppm s
  | .partnerLossTimeout => Sys2Proof.Machine.execPartnerLossTimeout s
  | .departWaitExpiry => Sys2Proof.Machine.execDepartWaitExpiry s
  | .departHoldExpiry => Sys2Proof.Machine.execDepartHoldExpiry s
  | .fehelNop tl => Sys2Proof.Machine.execFehelNop tl s
  | .heartbeat tl st rxUp epoch count dbEff restoring => Sys2Proof.Machine.execHeartbeat tl st rxUp epoch count dbEff restoring s
  | .ack tl space tag delayNs stall => Sys2Proof.Machine.execAck tl space tag delayNs stall s
  | .stale tl space homeHere hgen tag haddr init => Sys2Proof.Machine.execStale tl space homeHere hgen tag haddr init s
  | .depart tl cause epoch => Sys2Proof.Machine.execDepart tl cause epoch s
  | .pfault tl epoch source kind => Sys2Proof.Machine.execPfault tl epoch source kind s
  | .mirWr64 tl poison hgen tag haddr init data => Sys2Proof.Machine.execMirWr64 tl poison hgen tag haddr init data s
  | .mirWr256 tl poison hgen tag haddr init data => Sys2Proof.Machine.execMirWr256 tl poison hgen tag haddr init data s
  | .jrnWr tl fgen tag joff slot init bytes => Sys2Proof.Machine.execJrnWr tl fgen tag joff slot init bytes s
  | .jrnEnd tl fgen tag jlen slot segs => Sys2Proof.Machine.execJrnEnd tl fgen tag jlen slot segs s
  | .jrnDone tl fgen tag slot => Sys2Proof.Machine.execJrnDone tl fgen tag slot s
  | .barrierMir tl mask epoch => Sys2Proof.Machine.execBarrierMir tl mask epoch s
  | .barrierReq tl mask epoch => Sys2Proof.Machine.execBarrierReq tl mask epoch s
  | .barrierBlk tl mask epoch => Sys2Proof.Machine.execBarrierBlk tl mask epoch s
  | .prxRd tl snp mirror hgen tag haddr init ecc => Sys2Proof.Machine.execPrxRd tl snp mirror hgen tag haddr init ecc s
  | .prxWr64 tl poison hgen tag haddr init data => Sys2Proof.Machine.execPrxWr64 tl poison hgen tag haddr init data s
  | .prxWrptl tl poison hgen tag haddr init mask data => Sys2Proof.Machine.execPrxWrptl tl poison hgen tag haddr init mask data s
  | .prxCln tl hgen tag haddr init => Sys2Proof.Machine.execPrxCln tl hgen tag haddr init s
  | .biFwd tl snp hgen tag haddr init => Sys2Proof.Machine.execBiFwd tl snp hgen tag haddr init s
  | .prxRdData tl status grant tag data => Sys2Proof.Machine.execPrxRdData tl status grant tag data s
  | .prxCmp tl status tag => Sys2Proof.Machine.execPrxCmp tl status tag s
  | .biRsp tl resp tag haddr data poison => Sys2Proof.Machine.execBiRsp tl resp tag haddr data poison s
  | .hello tl tag hello => Sys2Proof.Machine.execHello tl tag hello s
  | .hallAdd tl tag hall shared dld side slot etag => Sys2Proof.Machine.execHallAdd tl tag hall shared dld side slot etag s
  | .hallRelease tl tag hall dld side => Sys2Proof.Machine.execHallRelease tl tag hall dld side s
  | .homeXfer tl tag hall hgen side => Sys2Proof.Machine.execHomeXfer tl tag hall hgen side s
  | .promoted tl tag => Sys2Proof.Machine.execPromoted tl tag s
  | .resyncBegin tl tag => Sys2Proof.Machine.execResyncBegin tl tag s
  | .diverged tl tag => Sys2Proof.Machine.execDiverged tl tag s
  | .ldFence tl tag dld lift => Sys2Proof.Machine.execLdFence tl tag dld lift s
  | .sanitizeMark tl tag hall set => Sys2Proof.Machine.execSanitizeMark tl tag hall set s
  | .galFence tl tag g fenced => Sys2Proof.Machine.execGalFence tl tag g fenced s
  | .mapChunk tl tag first ents => Sys2Proof.Machine.execMapChunk tl tag first ents s
  | .staleMap tl tag chunk bits => Sys2Proof.Machine.execStaleMap tl tag chunk bits s
  | .staleMapEnd tl tag count full => Sys2Proof.Machine.execStaleMapEnd tl tag count full s
  | .roleRsp tl sub status tag hello => Sys2Proof.Machine.execRoleRsp tl sub status tag hello s
  | .rsyData tl poison reconcile hgen tag haddr data => Sys2Proof.Machine.execRsyData tl poison reconcile hgen tag haddr data s
  | .rsyDone tl reconcile tag treads => Sys2Proof.Machine.execRsyDone tl reconcile tag treads s
  | .resyncSendTread tread => Sys2Proof.Machine.execResyncSendTread tread s
  | .homeReturnStart hall => Sys2Proof.Machine.execHomeReturnStart hall s
  | .homeXferRetry hall => Sys2Proof.Machine.execHomeXferRetry hall s
  | .linkReset ini tl => Sys2Proof.Machine.execLinkReset ini tl s
  | .linkRetrain ini tl => Sys2Proof.Machine.execLinkRetrain ini tl s
  | .yieldImage ini => Sys2Proof.Machine.execYieldImage ini s
  | .rngSqTail ini r tail => Sys2Proof.Machine.execRngSqTail ini r tail s
  | .rngCqHead ini r head => Sys2Proof.Machine.execRngCqHead ini r head s
  | .ringEnable ini r => Sys2Proof.Machine.execRingEnable ini r s
  | .ringDisable ini r => Sys2Proof.Machine.execRingDisable ini r s
  | .ringNop r ecc => Sys2Proof.Machine.execRingNop r ecc s
  | .ringCopy r ecc src => Sys2Proof.Machine.execRingCopy r ecc src s
  | .ringFill r ecc => Sys2Proof.Machine.execRingFill r ecc s
  | .ringCompare r ecc src => Sys2Proof.Machine.execRingCompare r ecc src s
  | .ringCrc32c r ecc src => Sys2Proof.Machine.execRingCrc32c r ecc src s
  | .persistBarrier r ecc => Sys2Proof.Machine.execPersistBarrier r ecc s
  | .ringFlight r ecc src => Sys2Proof.Machine.execRingFlight r ecc src s
  | .descriptorComplete r index => Sys2Proof.Machine.execDescriptorComplete r index s
  | .intDelayExpiry r => Sys2Proof.Machine.execIntDelayExpiry r s
  | .flightApplyDone own slot => Sys2Proof.Machine.execFlightApplyDone own slot s
  | .ringEngineRestart ini g => Sys2Proof.Machine.execRingEngineRestart ini g s
  | .seqEnd => Sys2Proof.Machine.execSeqEnd s
  | .seqEnable => Sys2Proof.Machine.execSeqEnable s
  | .seqWait => Sys2Proof.Machine.execSeqWait s
  | .waitExpiry => Sys2Proof.Machine.execWaitExpiry s
  | .seqCheck => Sys2Proof.Machine.execSeqCheck s
  | .checkPass code => Sys2Proof.Machine.execCheckPass code s
  | .checkTimeout code => Sys2Proof.Machine.execCheckTimeout code s
  | .jumpIf => Sys2Proof.Machine.execJumpIf s
  | .seqPmbus => Sys2Proof.Machine.execSeqPmbus s
  | .seqMark => Sys2Proof.Machine.execSeqMark s
  | .waitev => Sys2Proof.Machine.execWaitev s
  | .waitevEvent => Sys2Proof.Machine.execWaitevEvent s
  | .waitevTimeout => Sys2Proof.Machine.execWaitevTimeout s
  | .seqWatchdogExpiry => Sys2Proof.Machine.execSeqWatchdogExpiry s
  | .offRequest ini => Sys2Proof.Machine.execOffRequest ini s
  | .railBlankExpiry rail => Sys2Proof.Machine.execRailBlankExpiry rail s
  | .railTrip rail oc code => Sys2Proof.Machine.execRailTrip rail oc code s
  | .railUnderVoltage rail code => Sys2Proof.Machine.execRailUnderVoltage rail code s
  | .adcReferenceCheck railOk holdOk => Sys2Proof.Machine.execAdcReferenceCheck railOk holdOk s
  | .pmbusAlert addr page ov oc other res => Sys2Proof.Machine.execPmbusAlert addr page ov oc other res s
  | .holdMeasurementStart => Sys2Proof.Machine.execHoldMeasurementStart s
  | .holdV0Sample v0 span => Sys2Proof.Machine.execHoldV0Sample v0 span s
  | .holdDroopReached v1 v2 dtUs => Sys2Proof.Machine.execHoldDroopReached v1 v2 dtUs s
  | .holdDroopTimeout => Sys2Proof.Machine.execHoldDroopTimeout s
  | .holdMeasurementEnd v3 => Sys2Proof.Machine.execHoldMeasurementEnd v3 s
  | .holdMeasurementAbort powerFail => Sys2Proof.Machine.execHoldMeasurementAbort powerFail s
  | .holdPeriodExpiry => Sys2Proof.Machine.execHoldPeriodExpiry s
  | .holdDeferRetry => Sys2Proof.Machine.execHoldDeferRetry s
  | .holdChargeWaitExpiry => Sys2Proof.Machine.execHoldChargeWaitExpiry s
  | .holdEnergyRecompute code low steady => Sys2Proof.Machine.execHoldEnergyRecompute code low steady s
  | .holdMeasure ini => Sys2Proof.Machine.execHoldMeasure ini s
  | .minmaxClr ini ch => Sys2Proof.Machine.execMinmaxClr ini ch s
  | .thermalThrottleStart => Sys2Proof.Machine.execThermalThrottleStart s
  | .thermalThrottleEnd => Sys2Proof.Machine.execThermalThrottleEnd s
  | .faultMessage source => Sys2Proof.Machine.execFaultMessage source s
  | .consequentialWindowExpiry ev => Sys2Proof.Machine.execConsequentialWindowExpiry ev s
  | .fcuForce ini source => Sys2Proof.Machine.execFcuForce ini source s
  | .armFatal ini => Sys2Proof.Machine.execArmFatal ini s
  | .armFatalExpiry => Sys2Proof.Machine.execArmFatalExpiry s
  | .captureClr ini => Sys2Proof.Machine.execCaptureClr ini s
  | .fcuHeadUnfence ini heads => Sys2Proof.Machine.execFcuHeadUnfence ini heads s
  | .collectorSelfCheck cause corrected => Sys2Proof.Machine.execCollectorSelfCheck cause corrected s
  | .alcFlush ini => Sys2Proof.Machine.execAlcFlush ini s
  | .alcoveCommit => Sys2Proof.Machine.execAlcoveCommit s
  | .gatheredWriteExpiry => Sys2Proof.Machine.execGatheredWriteExpiry s
  | .urgentCommit => Sys2Proof.Machine.execUrgentCommit s
  | .ringSlotWrite => Sys2Proof.Machine.execRingSlotWrite s
  | .alcKey ini key => Sys2Proof.Machine.execAlcKey ini key s
  | .alcBp ini bp => Sys2Proof.Machine.execAlcBp ini bp s
  | .winAddrWrite ini val => Sys2Proof.Machine.execWinAddrWrite ini val s
  | .pageLoadDone => Sys2Proof.Machine.execPageLoadDone s
  | .winDataRead ini => Sys2Proof.Machine.execWinDataRead ini s
  | .winDataWrite ini val => Sys2Proof.Machine.execWinDataWrite ini val s
  | .marginScanPage weak => Sys2Proof.Machine.execMarginScanPage weak s
  | .wearHourlyWrite => Sys2Proof.Machine.execWearHourlyWrite s
  | .rtcSecondsCarry => Sys2Proof.Machine.execRtcSecondsCarry s
  | .oscStopDetected => Sys2Proof.Machine.execOscStopDetected s
  | .rtcTimeRead ini off size => Sys2Proof.Machine.execRtcTimeRead ini off size s
  | .freezeExpiry ini => Sys2Proof.Machine.execFreezeExpiry ini s
  | .rtcHalt ini => Sys2Proof.Machine.execRtcHalt ini s
  | .rtcResume ini => Sys2Proof.Machine.execRtcResume ini s
  | .timeWrite ini off size val => Sys2Proof.Machine.execTimeWrite ini off size val s
  | .alarmArm ini val => Sys2Proof.Machine.execAlarmArm ini val s
  | .alarmDisarm ini val => Sys2Proof.Machine.execAlarmDisarm ini val s
  | .rtcTrim ini trim => Sys2Proof.Machine.execRtcTrim ini trim s
  | .trimStart ini => Sys2Proof.Machine.execTrimStart ini s
  | .trimPeriodExpiry => Sys2Proof.Machine.execTrimPeriodExpiry s
  | .trimMeasurementEnd count => Sys2Proof.Machine.execTrimMeasurementEnd count s
  | .timeRefLost => Sys2Proof.Machine.execTimeRefLost s
  | .cancelReq ini => Sys2Proof.Machine.execCancelReq ini s
  | .corePllLoss corr => Sys2Proof.Machine.execCorePllLoss corr s
  | .refclk100Loss => Sys2Proof.Machine.execRefclk100Loss s
  | .aonCalibration => Sys2Proof.Machine.execAonCalibration s
  | .clockMonitorCheck dom ppm => Sys2Proof.Machine.execClockMonitorCheck dom ppm s
  | .xspiIdleStop => Sys2Proof.Machine.execXspiIdleStop s
  | .cdcAccessTimeout ini addr => Sys2Proof.Machine.execCdcAccessTimeout ini addr s
  | .crossingResetDiscard src dst items => Sys2Proof.Machine.execCrossingResetDiscard src dst items s
  | .verifySlotA ini => Sys2Proof.Machine.execVerifySlotA ini s
  | .verifySlotB ini => Sys2Proof.Machine.execVerifySlotB ini s
  | .verifyDone v => Sys2Proof.Machine.execVerifyDone v s
  | .flashRead ini => Sys2Proof.Machine.execFlashRead ini s
  | .flashProgram ini gate => Sys2Proof.Machine.execFlashProgram ini gate s
  | .flashErase4k ini gate => Sys2Proof.Machine.execFlashErase4k ini gate s
  | .flashErase64k ini gate => Sys2Proof.Machine.execFlashErase64k ini gate s
  | .flashCommandDone ok => Sys2Proof.Machine.execFlashCommandDone ok s
  | .rstWarm ini => Sys2Proof.Machine.execRstWarm ini s
  | .logFreeze ini => Sys2Proof.Machine.execLogFreeze ini s
  | .logThaw ini => Sys2Proof.Machine.execLogThaw ini s
  | .pfNRise => Sys2Proof.Machine.execPfNRise s
  | .pfSenseGood => Sys2Proof.Machine.execPfSenseGood s
  | .vbatLow low => Sys2Proof.Machine.execVbatLow low s
  | .refclk100Return settled => Sys2Proof.Machine.execRefclk100Return settled s
  | .twinRefclkLoss => Sys2Proof.Machine.execTwinRefclkLoss s
  | .thermalHigh => Sys2Proof.Machine.execThermalHigh s
  | .thermalCritical => Sys2Proof.Machine.execThermalCritical s
  | .dimmThermal ch => Sys2Proof.Machine.execDimmThermal ch s
  | .headLinkUp h rate width flit256 => Sys2Proof.Machine.execHeadLinkUp h rate width flit256 s
  | .ideKm w op => Sys2Proof.Machine.execIdeKm w op s
  | .clearEventRecords h ld log all handles => Sys2Proof.Machine.execClearEventRecords h ld log all handles s
  | .creditStarve tl vc => Sys2Proof.Machine.execCreditStarve tl vc s
  | .pmbusTransactionEnd ack pec => Sys2Proof.Machine.execPmbusTransactionEnd ack pec s
  | .internalErrorDetected source kind addr ini access => Sys2Proof.Machine.execInternalErrorDetected source kind addr ini access s
  | .roleGenerationAdvance unit => Sys2Proof.Machine.execRoleGenerationAdvance unit s
  | .backupDomainWriteEffective => Sys2Proof.Machine.execBackupDomainWriteEffective s

end Sys2Proof.Machine
end

