-- ==== Sys2Proof/Machine/Pins.lean ====
section
/-! DEFINITION. Machine/Pins.lean: the levels the device drives on its output pins, read from the state (R351, R527, R528). -/
namespace Sys2Proof.Machine

/-- What an output shows: a level, or nothing driven. -/
inductive Drive where
  | low | high | highZ
  deriving DecidableEq, Repr

/-- What a serial transmitter shows (R528). -/
inductive TxDrive where
  | unpowered | idle | driven
  deriving DecidableEq, Repr

/-- A push-pull output. -/
def pushPull (b : Bool) : Drive := if b then .high else .low

/-- An open-drain output that is low while asserted. -/
def openDrain (asserted : Bool) : Drive := if asserted then .low else .highZ

/-- RAIL_ENr (R351): low until an ENABLE instruction drives it high. -/
def railEnPin (c : Ctl) (r : Nat) : Drive := pushPull (aonOn c && (railAt c r).en)

/-- HOLD_CHG_EN (R351, R372). -/
def holdChgPin (c : Ctl) : Drive := pushPull (chgEn c)

/-- HOLD_LOAD_EN (R351, R373). -/
def holdLoadPin (c : Ctl) : Drive := pushPull (aonOn c && c.hold.loadEn)

/-- TRIP_N (R351, R494): low from a trip or an S3 FATAL fault until standby power is removed. -/
def tripPin (c : Ctl) : Drive := openDrain (c.glb.mode != .off && !c.seq.tripN)

/-- PWR_ON_REQ (R455, R527): active low. -/
def pwrOnPin (c : Ctl) : Drive := openDrain (pwrOnReq c)

/-- The transmitter of a head (R528, R23). -/
def headTx (c : Ctl) (h : Nat) : TxDrive :=
  let m := c.glb.mode
  if !(m == .start || serving c) then .unpowered
  else if (headAt c h).linkUp then .driven else .idle

/-- DCHn_RESET_N (R528): low from power-on until training and while the channel is fenced; high in self-refresh. -/
def dchResetPin (c : Ctl) (ch : Nat) : Drive :=
  let m := c.glb.mode
  let on := m == .start || m.service || m == .save || m == .hold
  pushPull (on && ((dchAt c ch).result != 0 || m == .hold) && !galFenced c (ch / 4))

/-- WP_N of a vault channel (R528): low except while the vault is mounted in VAULT.START, SERVICE or VAULT.SAVE. -/
def wpPin (c : Ctl) : Drive :=
  let m := c.glb.mode
  pushPull (c.vlt.mount == 2 && (m == .start || m.service || m == .save))

/-- The transmitter of a twin link (R528, R174): electrical idle in DISABLED, LOST and FENCED. -/
def twinTx (c : Ctl) (k : Nat) : TxDrive :=
  if !blkAnswers c .twnCommon 0 then .unpowered
  else match (linkAt c k).state with
    | .disabled | .lost | .fenced => .idle
    | _ => .driven

end Sys2Proof.Machine
end

