-- ==== Sys2Proof/WellFormed.lean ====
section
/-! DEFINITION. WellFormed.lean: the commands that can reach the block, by the ranges the spec gives their operands. -/
namespace Sys2Proof

/-- The initiators that R8 lists. -/
def r8Listed (i : Byte) : Bool :=
  let n := i.toNat
  n ≤ 0x41 || (0x48 ≤ n && n ≤ 0x53) || (0x58 ≤ n && n ≤ 0x5B) || n == 0x60 || n == 0x70 || n == 0xFF

/-- The initiators that access registers and give management commands (R502): LDs, the Steward cores, the MCTP endpoint. -/
def accessIni (i : Byte) : Bool := i.toNat ≤ 0x41 || i.toNat == 0x60

/-- A tag names one of the four links and a sequence number modulo 2^30 (R187). -/
def tagOk (t : Tag) : Bool := t.orig < 4 && t.seq < 2 ^ 30

/-- JRN_WR carries 1 to 256 bytes of journal (R180). -/
def jrnBytes (b : List Byte) : Bool := 1 ≤ b.length && b.length ≤ 256

/-- A mount finds a training rate for each of the 16 vault channels (R288). -/
def probeOk (p : MountProbe) : Bool := p.rates.length == 16

/-- A command that can reach the block. -/
def Instr.wf : Instr → Bool
  | .vaultMount p => probeOk p
  | .getNovlenInfo ini => accessIni ini
  | .getHallInfo ini _ _ => accessIni ini
  | .getBudget ini => accessIni ini
  | .hallSanitize ini _ _ => accessIni ini
  | .getViolationLog ini _ => accessIni ini
  | .getTimeTs64 ini => accessIni ini
  | .quiescePlanned ini => accessIni ini
  | .quiesceWarmReset ini => accessIni ini
  | .freezeLogs ini => accessIni ini
  | .thawLogs ini => accessIni ini
  | .holdupMeasure ini => accessIni ini
  | .retryStart ini => accessIni ini
  | .setTime ini _ => accessIni ini
  | .initiateDynamicCapacityAdd ini _ _ _ _ _ => accessIni ini
  | .initiateDynamicCapacityRelease ini _ _ _ => accessIni ini
  | .registerWrite ini _ _ _ => accessIni ini
  | .peakClr ini _ => accessIni ini
  | .galReset ini _ => accessIni ini
  | .dataFlit _ _ slots _ _ _ => slots.length == 31
  | .ctrlInit _ f => f.credits.length == 4
  | .initAck _ f => f.credits.length == 4
  | .ack _ _ tag _ _ => tagOk tag
  | .stale _ _ _ _ tag _ init => r8Listed init && tagOk tag
  | .mirWr64 _ _ _ tag _ init _ => r8Listed init && tagOk tag
  | .mirWr256 _ _ _ tag _ init _ => r8Listed init && tagOk tag
  | .jrnWr _ _ tag _ _ init bytes => jrnBytes bytes && r8Listed init && tagOk tag
  | .jrnEnd _ _ tag _ _ _ => tagOk tag
  | .jrnDone _ _ tag _ => tagOk tag
  | .prxRd _ _ _ _ tag _ init _ => r8Listed init && tagOk tag
  | .prxWr64 _ _ _ tag _ init _ => r8Listed init && tagOk tag
  | .prxWrptl _ _ _ tag _ init _ _ => r8Listed init && tagOk tag
  | .prxCln _ _ tag _ init => r8Listed init && tagOk tag
  | .biFwd _ _ _ tag _ init => r8Listed init && tagOk tag
  | .prxRdData _ _ _ tag _ => tagOk tag
  | .prxCmp _ _ tag => tagOk tag
  | .biRsp _ _ tag _ _ _ => tagOk tag
  | .hello _ tag x => tagOk tag && x.side ≤ 1
  | .hallAdd _ tag _ _ _ _ _ _ => tagOk tag
  | .hallRelease _ tag _ _ _ => tagOk tag
  | .homeXfer _ tag _ _ _ => tagOk tag
  | .promoted _ tag => tagOk tag
  | .resyncBegin _ tag => tagOk tag
  | .diverged _ tag => tagOk tag
  | .ldFence _ tag _ _ => tagOk tag
  | .sanitizeMark _ tag _ _ => tagOk tag
  | .galFence _ tag _ _ => tagOk tag
  | .mapChunk _ tag _ ents => ents.length == 32 && tagOk tag
  | .staleMap _ tag _ _ => tagOk tag
  | .staleMapEnd _ tag _ _ => tagOk tag
  | .roleRsp _ _ _ tag h => tagOk tag && (h.map (fun x : Hello => decide (x.side ≤ 1))).getD true
  | .rsyData _ _ _ _ tag _ _ => tagOk tag
  | .rsyDone _ _ tag _ => tagOk tag
  | .linkReset ini _ => accessIni ini
  | .linkRetrain ini _ => accessIni ini
  | .yieldImage ini => accessIni ini
  | .rngSqTail ini _ _ => accessIni ini
  | .rngCqHead ini _ _ => accessIni ini
  | .ringEnable ini _ => accessIni ini
  | .ringDisable ini _ => accessIni ini
  | .ringEngineRestart ini _ => accessIni ini
  | .offRequest ini => accessIni ini
  | .holdMeasure ini => accessIni ini
  | .minmaxClr ini _ => accessIni ini
  | .fcuForce ini _ => accessIni ini
  | .armFatal ini => accessIni ini
  | .captureClr ini => accessIni ini
  | .fcuHeadUnfence ini _ => accessIni ini
  | .alcFlush ini => accessIni ini
  | .alcKey ini _ => accessIni ini
  | .alcBp ini _ => accessIni ini
  | .winAddrWrite ini _ => accessIni ini
  | .winDataRead ini => accessIni ini
  | .winDataWrite ini _ => accessIni ini
  | .rtcTimeRead ini _ _ => accessIni ini
  | .freezeExpiry ini => accessIni ini
  | .rtcHalt ini => accessIni ini
  | .rtcResume ini => accessIni ini
  | .timeWrite ini _ _ _ => accessIni ini
  | .alarmArm ini _ => accessIni ini
  | .alarmDisarm ini _ => accessIni ini
  | .rtcTrim ini _ => accessIni ini
  | .trimStart ini => accessIni ini
  | .cancelReq ini => accessIni ini
  | .cdcAccessTimeout ini _ => accessIni ini
  | .verifySlotA ini => accessIni ini
  | .verifySlotB ini => accessIni ini
  | .flashRead ini => accessIni ini
  | .flashProgram ini _ => accessIni ini
  | .flashErase4k ini _ => accessIni ini
  | .flashErase64k ini _ => accessIni ini
  | .rstWarm ini => accessIni ini
  | .logFreeze ini => accessIni ini
  | .logThaw ini => accessIni ini
  | .clearEventRecords _ _ _ _ handles => handles.length ≤ 255
  | .internalErrorDetected _ _ _ ini _ => r8Listed ini
  | .backupDomainPowerOnReset | .vbatSwitchover .. | .alwaysOnPowerOnReset .. | .alwaysOnSupplyLoss .. | .resetNAssert
  | .resetNRelease .. | .inputGoodTimerExpiry | .minOffTimeExpiry | .onRequest .. | .bootStage1 .. | .bootStage2 ..
  | .dchTrainingDone .. | .pairWaitExpiry | .startComplete | .startFail .. | .startMaxExpiry | .stewardWatchdogExpiry
  | .bootStableTimeExpiry | .warmReset .. | .dozeIdleExpiry .. | .dozeWake .. | .memRd .. | .memSpecRd .. | .memWr ..
  | .memWrPtl .. | .memClnEvct .. | .writeThrottleExpiry .. | .biRspFromHost .. | .biConflict .. | .biTimeoutExpiry ..
  | .coldSweepSnoop .. | .gpfPhase2 .. | .headLinkDown .. | .perstNAssert .. | .perstNRelease .. | .hotReset ..
  | .cxlReset .. | .ideIntegrityFailure .. | .decoderCommit .. | .injectPoison .. | .clearPoison .. | .getPoisonList ..
  | .getTimestamp .. | .setTimestamp .. | .setShutdownState .. | .getHealthInfo .. | .setLsa .. | .getMeasurements ..
  | .sanitizeFillDone .. | .identify | .backgroundOperationStatus | .getResponseMessageLimit | .setResponseMessageLimit ..
  | .tunnelManagementCommand .. | .getLdInfo .. | .getLdAllocations .. | .setLdAllocations .. | .getQosControl ..
  | .setQosControl .. | .getQosStatus .. | .getQosAllocatedBw .. | .setQosAllocatedBw .. | .getQosBwLimit ..
  | .setQosBwLimit .. | .getMultiHeadedInfo | .getHeadInfo .. | .getDcdInfo | .getHostDcRegionConfiguration ..
  | .setDcRegionConfiguration .. | .getDcRegionExtentLists .. | .setEndpointId .. | .getEndpointId | .getMctpVersionSupport
  | .getMessageTypeSupport | .getVendorDefinedMessageSupport | .entdaa .. | .setdasa .. | .i3cTargetReset
  | .mctpRegisterRead .. | .mctpRegisterWrite .. | .galleryResetDone .. | .frameSwitch | .scrubRead .. | .cleanerCopy ..
  | .slabCloseTimeout .. | .wordlineFillTimeout | .vaultProgramDone .. | .vaultEraseDone .. | .eraseBatchIssue
  | .vaultCodewordReadDone .. | .lunReadyTimeout .. | .busyStallTimeout .. | .vaultPatrolRead .. | .compactionTread ..
  | .checkpointTimer | .allowanceBucketTimer | .demandFetchDone .. | .restoreTreadDone .. | .pfSenseLow | .pfSenseRecover
  | .pfFilterExpiry | .pfNFall | .cutOff .. | .landingUnitProgrammed .. | .saveRecordProgrammed .. | .pmdTrainDone ..
  | .pmdTrainTimeout .. | .codewordLock .. | .alignTimeout .. | .codewordLockLoss .. | .initTimeout .. | .lostIdleExpiry ..
  | .ctrlIdle .. | .retryReq .. | .retryReqRepeat .. | .retrainReq .. | .heartbeatSend .. | .linkLostTimeout ..
  | .laneSerWindow .. | .partnerLossTimeout | .departWaitExpiry | .departHoldExpiry | .fehelNop .. | .heartbeat ..
  | .depart .. | .pfault .. | .barrierMir .. | .barrierReq .. | .barrierBlk .. | .resyncSendTread .. | .homeReturnStart ..
  | .homeXferRetry .. | .ringNop .. | .ringCopy .. | .ringFill .. | .ringCompare .. | .ringCrc32c .. | .persistBarrier ..
  | .ringFlight .. | .descriptorComplete .. | .intDelayExpiry .. | .flightApplyDone .. | .seqEnd | .seqEnable | .seqWait
  | .waitExpiry | .seqCheck | .checkPass .. | .checkTimeout .. | .jumpIf | .seqPmbus | .seqMark | .waitev | .waitevEvent
  | .waitevTimeout | .seqWatchdogExpiry | .railBlankExpiry .. | .railTrip .. | .railUnderVoltage .. | .adcReferenceCheck ..
  | .pmbusAlert .. | .holdMeasurementStart | .holdV0Sample .. | .holdDroopReached .. | .holdDroopTimeout
  | .holdMeasurementEnd .. | .holdMeasurementAbort .. | .holdPeriodExpiry | .holdDeferRetry | .holdChargeWaitExpiry
  | .holdEnergyRecompute .. | .thermalThrottleStart | .thermalThrottleEnd | .faultMessage .. | .consequentialWindowExpiry ..
  | .armFatalExpiry | .collectorSelfCheck .. | .alcoveCommit | .gatheredWriteExpiry | .urgentCommit | .ringSlotWrite
  | .pageLoadDone | .marginScanPage .. | .wearHourlyWrite | .rtcSecondsCarry | .oscStopDetected | .trimPeriodExpiry
  | .trimMeasurementEnd .. | .timeRefLost | .corePllLoss .. | .refclk100Loss | .aonCalibration | .clockMonitorCheck ..
  | .xspiIdleStop | .crossingResetDiscard .. | .verifyDone .. | .flashCommandDone .. | .pfNRise | .pfSenseGood | .vbatLow ..
  | .refclk100Return .. | .twinRefclkLoss | .thermalHigh | .thermalCritical | .dimmThermal .. | .headLinkUp .. | .ideKm ..
  | .creditStarve .. | .pmbusTransactionEnd .. | .roleGenerationAdvance .. | .backupDomainWriteEffective => true

end Sys2Proof
end

