-- ==== Sys2Proof/Safety.lean ====
section
/-! DEFINITION. Safety.lean: the terms in which claims speak: the parts of the device, what a command leaves unchanged, the rights that
commands need, the canonical form of memory, and a safe run. -/
namespace Sys2Proof.Machine

/-- The parts of the device's state. -/
inductive Part where
  | glb | img | dimm | fcu | rtc | alc | clk | rst | boot | seq | pwrImg | pf | hold | sns | budget | mgmt | heads
  | lds | halls | snoops | releases | tenants | gals | dchs | reqs | nextReq | twin | pair | svr | vlt | rings
  | flights | fgen | commitSeq | flightCount | flightAbandoned | partnerApplied | poisonOver | throttling | out | free | dram
  | poison | flash
  deriving DecidableEq, Repr

/-- The part holds in t what it holds in s. -/
def Part.same (s t : State) : Part → Prop
  | .glb => t.dev.ctl.glb = s.dev.ctl.glb
  | .img => t.dev.ctl.img = s.dev.ctl.img
  | .dimm => t.dev.ctl.dimm = s.dev.ctl.dimm
  | .fcu => t.dev.ctl.fcu = s.dev.ctl.fcu
  | .rtc => t.dev.ctl.rtc = s.dev.ctl.rtc
  | .alc => t.dev.ctl.alc = s.dev.ctl.alc
  | .clk => t.dev.ctl.clk = s.dev.ctl.clk
  | .rst => t.dev.ctl.rst = s.dev.ctl.rst
  | .boot => t.dev.ctl.boot = s.dev.ctl.boot
  | .seq => t.dev.ctl.seq = s.dev.ctl.seq
  | .pwrImg => t.dev.ctl.pwrImg = s.dev.ctl.pwrImg
  | .pf => t.dev.ctl.pf = s.dev.ctl.pf
  | .hold => t.dev.ctl.hold = s.dev.ctl.hold
  | .sns => t.dev.ctl.sns = s.dev.ctl.sns
  | .budget => t.dev.ctl.budget = s.dev.ctl.budget
  | .mgmt => t.dev.ctl.mgmt = s.dev.ctl.mgmt
  | .heads => t.dev.ctl.heads = s.dev.ctl.heads
  | .lds => t.dev.ctl.lds = s.dev.ctl.lds
  | .halls => t.dev.ctl.halls = s.dev.ctl.halls
  | .snoops => t.dev.ctl.snoops = s.dev.ctl.snoops
  | .releases => t.dev.ctl.releases = s.dev.ctl.releases
  | .tenants => t.dev.ctl.tenants = s.dev.ctl.tenants
  | .gals => t.dev.ctl.gals = s.dev.ctl.gals
  | .dchs => t.dev.ctl.dchs = s.dev.ctl.dchs
  | .reqs => t.dev.ctl.reqs = s.dev.ctl.reqs
  | .nextReq => t.dev.ctl.nextReq = s.dev.ctl.nextReq
  | .twin => t.dev.ctl.twin = s.dev.ctl.twin
  | .pair => t.dev.ctl.pair = s.dev.ctl.pair
  | .svr => t.dev.ctl.svr = s.dev.ctl.svr
  | .vlt => t.dev.ctl.vlt = s.dev.ctl.vlt
  | .rings => t.dev.ctl.rings = s.dev.ctl.rings
  | .flights => t.dev.ctl.flights = s.dev.ctl.flights
  | .fgen => t.dev.ctl.fgen = s.dev.ctl.fgen
  | .commitSeq => t.dev.ctl.commitSeq = s.dev.ctl.commitSeq
  | .flightCount => t.dev.ctl.flightCount = s.dev.ctl.flightCount
  | .flightAbandoned => t.dev.ctl.flightAbandoned = s.dev.ctl.flightAbandoned
  | .partnerApplied => t.dev.ctl.partnerApplied = s.dev.ctl.partnerApplied
  | .poisonOver => t.dev.ctl.poisonOver = s.dev.ctl.poisonOver
  | .throttling => t.dev.ctl.throttling = s.dev.ctl.throttling
  | .out => t.dev.ctl.out = s.dev.ctl.out
  | .free => t.dev.ctl.free = s.dev.ctl.free
  | .dram => t.dev.mem.dram = s.dev.mem.dram
  | .poison => t.dev.mem.poison = s.dev.mem.poison
  | .flash => t.dev.mem.flash = s.dev.mem.flash

/-- Every part of the device but those listed, and the queue, are unchanged. -/
def OnlyChanges (ps : List Part) (s t : State) : Prop := t.pending = s.pending ∧ ∀ p, p ∉ ps → p.same s t

/-- The registers of the device. -/
abbrev State.ctl (s : State) : Ctl := s.dev.ctl

/-- The state with other registers. -/
def State.withCtl (s : State) (c : Ctl) : State := { s with dev := { s.dev with ctl := c } }

/-- The command runs and its next state meets P. -/
def Runs (i : Instr) (s : State) (P : State → Prop) : Prop := ∃ t, exec i s = .next t ∧ P t

/-- The initiator may write the registers of the always-on blocks: it reaches the device and has management rights (R502, R503). -/
def MayWrite (s : State) (ini : Byte) : Prop := canReach s.dev.ctl ini.toNat = true ∧ mgmtRight s.dev.ctl ini.toNat = true

/-- The state with another real-time clock. -/
def State.withRtc (s : State) (r : Rtc) : State := s.withCtl { s.ctl with rtc := r }

/-- The state with another Alcove. -/
def State.withAlc (s : State) (a : Alc) : State := s.withCtl { s.ctl with alc := a }

/-- The state with another rail sequencer. -/
def State.withSeq (s : State) (x : Seq) : State := s.withCtl { s.ctl with seq := x }

/-- The state with another hold-up meter. -/
def State.withHold (s : State) (x : Hold) : State := s.withCtl { s.ctl with hold := x }

/-- The state with another power-fail detector. -/
def State.withPf (s : State) (x : Pf) : State := s.withCtl { s.ctl with pf := x }

/-- The state with another global state. -/
def State.withGlb (s : State) (x : Glb) : State := s.withCtl { s.ctl with glb := x }

/-- The state with another fault collector. -/
def State.withFcu (s : State) (x : Fcu) : State := s.withCtl { s.ctl with fcu := x }

/-- The state with another clock block. -/
def State.withClk (s : State) (x : Clk) : State := s.withCtl { s.ctl with clk := x }

/-- The state with another boot controller. -/
def State.withBoot (s : State) (x : Boot) : State := s.withCtl { s.ctl with boot := x }

/-- Nothing is in progress between the device and its hosts: no request, snoop, release, tenancy operation, flight or flush. -/
def Idle (c : Ctl) : Prop :=
  c.reqs = [] ∧ c.snoops = [] ∧ c.releases = [] ∧ c.tenants = [] ∧ c.flights = [] ∧ ∀ h < 16, (headAt c h).gpf = []

/-- A write to the riser of this address need not wait (R77, R78): the riser is dirty, or there is room below the ceiling and no mirror message waits
for it. -/
abbrev Room (c : Ctl) (a : Nat) : Prop := isDirty c a = true ∨ (atCeiling c = false ∧ ∀ x ∈ c.twin.held, x.stall = false)

/-- The device serves the address alone and out of its DRAM: SERVICE.SOLO, the gallery in service, the tread restored, no transfer of a home
in progress, and room in the dirty budget for the riser. -/
def Plain (c : Ctl) (a : Nat) : Prop :=
  c.glb.mode = .solo ∧ galOf c a < 8 ∧ galFenced c (galOf c a) = false ∧ unrestored c (treadNo a) = false ∧ c.pair.xfers = [] ∧ c.pair.rsyOut = []
    ∧ Room c a

/-- A request of LD l of head h at a DPA reaches a hall assigned to it, whose line the device serves alone. -/
def LdServed (c : Ctl) (h l dpa : Nat) : Prop :=
  memArrives c h l = true ∧ bitOf (headAt c h).memActive l = true ∧ decodeKind c (4 * h + l) dpa = 0
    ∧ (ldAt c (4 * h + l)).biFenced = false ∧ Plain c (dpaOff dpa / 64 * 64)

/-- The device serves the address's hall with its partner, out of its own DRAM: SERVICE.PAIRED, a link in steering, the gallery in service on
both sides, the tread restored and not stale, no transfer of a home in progress, and room in the dirty budget for the riser. -/
def PairPlain (c : Ctl) (a : Nat) : Prop :=
  c.glb.mode = .paired ∧ c.twin.steered ≠ [] ∧ galOf c a < 8 ∧ galFenced c (galOf c a) = false ∧ partnerFenced c (galOf c a) = false
    ∧ unrestored c (treadNo a) = false ∧ stale c (treadNo a) = false ∧ c.pair.xfers = [] ∧ c.pair.rsyOut = [] ∧ prxOut c < 1024
    ∧ Room c a

/-- The device serves every byte of a range of DPAs alone, in private halls of the LD that are in service (R90, R326, R335). -/
def RangeServed (c : Ctl) (d a n : Nat) : Prop :=
  1 ≤ n ∧ a + n ≤ region1 ∧ rangeFail c d a n = none ∧ rangeOffline c a n = false
    ∧ ∀ i < n, Plain c (dpaOff a + i) ∧ (hallAt c (hallOf (dpaOff a + i))).mode = .priv

/-- The dirty budget has room for every riser of a range, without a delay: all are dirty, or they are one riser, the ceiling is not reached and
nothing is throttled (R76, R77). -/
def RangeRoom (c : Ctl) (a n : Nat) : Prop :=
  (∀ i < n, isDirty c (dpaOff a + i) = true)
    ∨ (riserNo (dpaOff a) = riserNo (dpaOff a + n - 1) ∧ Room c (dpaOff a) ∧ throttleNs c = 0)

/-- An MSI-X interrupt of an LD has been sent, waits behind its mask, or finds the LD out of reach (R87, R340). -/
def Signals (s t : State) (d v : Nat) : Prop :=
  if ldReach s.ctl d = false then t.ctl.out = s.ctl.out ∧ t.ctl.lds = s.ctl.lds
  else if (ldAt s.ctl d).msixMask.getLsbD v then t.ctl.out = s.ctl.out ∧ (d < 64 → (ldAt t.ctl d).msixPend = (ldAt s.ctl d).msixPend ||| BitVec.twoPow 32 v)
  else t.ctl.out = .msix d v :: s.ctl.out ∧ t.ctl.lds = s.ctl.lds

/-- No line of a range is poisoned. -/
def RangeSound (m : Store) (a n : Nat) : Prop := ∀ i < n, linePoison m (dpaOff a + i) = false

/-- The HADDR lies in the range of n bytes from a DPA. -/
def InRange (a n h : Nat) : Prop := dpaOff a ≤ h ∧ h < dpaOff a + n

/-- The source s has a message at the root (R385, R393). -/
def Raised (c : Ctl) (s : Nat) : Prop := (srcAt c s).active = true ∧ ∃ m ∈ c.fcu.waiting, m.source = s

/-- No message waits on the links, and no loss of a departed partner is about to be declared (R188, R200). -/
def Calm (c : Ctl) : Prop := c.twin.held = [] ∧ c.twin.departDue = false

/-- A message that link k delivers is taken: the link is ACTIVE, the device is not departing, no message and no barrier waits on the links, no loss
is about to be declared, and the receive buffer has room (R184, R188, R194, R201). -/
def LinkTakes (c : Ctl) (k : Nat) (m : Msg) : Prop :=
  (linkAt c k).state = .active ∧ c.twin.holding = false ∧ Calm c ∧ c.twin.barriers = []
    ∧ (msgVc m = 4 ∨ (linkAt c k).rxDue.getD (msgVc m) 0 + 1 + msgLen m ≤ rxSize (msgVc m))

/-- A numbered message is the next of its stream (R187, R188). -/
def NextIn (c : Ctl) (sp : Space) (t : Tag) : Prop := tgetD c.twin.expSeq (streamKey t.orig sp) 0 = t.seq

/-- A message waits to leave on link k, or has left and is kept for replay (R197). -/
def Leaves (c : Ctl) (k : Nat) (m : Msg) : Prop := m ∈ (linkAt c k).txq ∨ ∃ f ∈ (linkAt c k).replayBuf, f.msg = m

/-- A numbered message has been sent and waits for its ACK or answer (R187, R189). -/
def Sends (c : Ctl) (cont : Cont) (p : Msg → Prop) : Prop := ∃ x ∈ c.twin.sent, x.cont = cont ∧ p x.msg

/-- The canonical form of every memory of the device: addresses strictly rising, no entry equal to what an unlisted address reads as. -/
def Store.wf (m : Store) : Bool := cwf 0 m.dram && risingFrom 0 m.poison && cwf 0xFF m.flash

/-- One byte of host memory by HADDR. -/
def State.byte (s : State) (haddr : Nat) : Byte := cget 0 s.dev.mem.dram haddr

/-- A safe step is one that answers a next state with every memory in canonical form. -/
def SafeStep (s : State) : Prop := ∃ t, step s = .next t ∧ t.dev.mem.wf = true

/-- A safe run: each of the next n steps is safe. -/
def SafeRun : Nat → State → Prop
  | 0, s => s.dev.mem.wf = true
  | n + 1, s => s.dev.mem.wf = true ∧ ∃ t, step s = .next t ∧ SafeRun n t

end Sys2Proof.Machine
end

