-- ==== Sys2Proof/Certificates/Slice0/Obligations.lean ====
section
/-! DEFINITION. Certificates/Slice0/Obligations.lean: the statements for the provers. -/
open Sys2Proof Sys2Proof.Machine

/-- The queue (log entry 4): a step takes the command at the front and runs it on the state with the queue's rest; on an empty queue it is one
edge of the clock's oscillator, which changes the real-time clock and, where the alarm fires, nothing but its flags and its source. -/
def Obligations.StepTakesTheFront : Prop :=
  (∀ (i : Instr) (q : List Instr) (s : State), step { s with pending := i :: q } = exec i { s with pending := q })
  ∧ ∀ s : State, s.pending = [] → ∃ t, step s = .next t ∧ OnlyChanges [.rtc, .fcu] s t ∧ t.ctl.rtc = (rtcEdge s.ctl).rtc

/-- R439, R458, R26, R332: the state after reset is that of a device without its always-on supply after a backup-domain power-on reset. The queue
is empty, the backup domain holds the values of its Reset column, and so do the registers of the other blocks that are named here.
Choices of the model: log entries 1 and 6. -/
def Obligations.ResetState : Prop :=
  let s := State.reset
  let c := s.ctl
  s.pending = [] ∧ c.glb.mode = .off
    ∧ c.rtc.seconds = 0 ∧ c.rtc.frac = 0 ∧ c.rtc.oscStopped = true ∧ c.rtc.halt = false ∧ c.rtc.halted = false ∧ c.rtc.adjusted = false
    ∧ c.rtc.armed = false ∧ c.rtc.alarm = 0 ∧ c.rtc.wake = false ∧ c.rtc.trim = 0 ∧ c.rtc.causeAlarm = false ∧ c.rtc.causeRestore = false
    ∧ regWord c 0x7C0028 = 1
    ∧ regWord c 0x0000008 = 0x94721F3A ∧ regWord c 0x0000018 = 0 ∧ regWord c 0x0000100 = 0 ∧ regWord c 0x0000180 = 0
    ∧ (∀ h < 16, regWord c (0x100000 + h * 0x10000) = 0x07D00401)
    ∧ regWord c 0x7E2030 = 0xFF00080019
    ∧ (∀ r : Fin 1024, regWord c (0x1000010 + r * 0x1000) = 0x20006 ∧ regWord c (0x1000018 + r * 0x1000) = 0
        ∧ regWord c (0x1000030 + r * 0x1000) = 8 ∧ regWord c (0x1000040 + r * 0x1000) = 0xFF)

/-- The canonical form of the memories holds at reset. -/
def Obligations.ResetMemoryCanonical : Prop := State.reset.dev.mem.wf = true

/-- The invariant of the memories, and that no step stops: from every state whose DRAM, poison marks, flash and label areas are in canonical
form, whatever waits, a step answers a next state whose memories are in canonical form, and it leaves the rest of the queue as it is. The
spec gives every command an effect in every state, or none (log entries 4 and 9). -/
def Obligations.EveryStepKeepsMemoryCanonical : Prop :=
  ∀ s : State, s.dev.mem.wf = true → ∃ t, step s = .next t ∧ t.dev.mem.wf = true ∧ t.pending = s.pending.drop 1

/-- R90, R118: a CXL.mem request that fails its decode, or meets Memory_Active at 0, is answered on the bus, counted and recorded on its
head, and the LD's event record is signalled on vector 1; nothing is read or written. Choices of the model: log entry 103. -/
def Obligations.MemoryViolations : Prop :=
  ∀ (h : Fin 16) (l : Fin 4) (tag : BitVec 16) (dpa : BitVec 52) (kind : Nat) (s : State), aonOn s.ctl = true → kind ≠ 0 →
    memArrives s.ctl h l = true →
    kind = (if bitOf (headAt s.ctl h).memActive l = false ∨ serving s.ctl = false then 4 else decodeKind s.ctl (4 * h + l) dpa.toNat) →
    let signalled : List Out := if (ldAt s.ctl (4 * h + l)).msixMask.getLsbD 1 then s.ctl.out else .msix (4 * h + l) 1 :: s.ctl.out
    let refused (i : Instr) (o : BitVec 2 → Out) := Runs i s (fun t => OnlyChanges [.heads, .lds, .fcu, .out] s t
      ∧ (∃ load, t.ctl.out = o load :: signalled)
      ∧ (headAt t.ctl h).viol.violations = satInc (headAt s.ctl h).viol.violations 0xFFFFFF ∧ Raised t.ctl (16 * h + 6)
      ∧ (s.ctl.fcu.frozen = false → ∃ e, tget (headAt t.ctl h).viol.log (headAt s.ctl h).viol.next = some e ∧ e.kind = kind
        ∧ e.addr = dpa.toNat ∧ e.ini = 4 * h + l))
    (∀ snp ecc, refused (.memRd h l tag dpa snp ecc) (.cxlData h l tag.toNat 0 true .noOp))
    ∧ (∀ data p, refused (.memWr h l tag dpa data p) (.cxlCmp h l tag.toNat))
    ∧ (∀ mask data p, refused (.memWrPtl h l tag dpa mask data p) (.cxlCmp h l tag.toNat))
    ∧ refused (.memClnEvct h l tag dpa) (.cxlCmp h l tag.toNat)

/-- R42, R45, R83, R98, R115, R116: an LD's access to a private hall that the device serves alone. A read returns the line and its poison,
a write stores its enabled bytes, marks the riser dirty and is then completed, after the throttle delay where one applies.
Choices of the model: log entry 15. -/
def Obligations.PrivateHallAccess : Prop :=
  ∀ (h : Fin 16) (l : Fin 4) (tag : BitVec 16) (dpa : BitVec 52) (snp : Snp) (data : Line) (mask : Mask) (p : Bool)
    (s : State), aonOn s.ctl = true → Idle s.ctl → LdServed s.ctl h l dpa.toNat → (hallAt s.ctl (hallOf (dpaOff dpa.toNat))).mode = .priv → s.dev.mem.wf = true →
    let a := dpaOff dpa.toNat / 64 * 64
    let written (t : State) (on : Nat → Bool) := (∀ i < 64, State.byte t (a + i) = if on i then lineByte data i else State.byte s (a + i))
      ∧ (∀ x, x < a ∨ a + 64 ≤ x → State.byte t x = State.byte s x) ∧ isDirty t.ctl a = true
    let done (i : Instr) (on : Nat → Bool) (marked : Bool) := isDirty s.ctl a = true ∨ throttleNs s.ctl = 0 →
      Runs i s (fun t => OnlyChanges [.heads, .gals, .pair, .nextReq, .free, .poisonOver, .fcu, .out, .dram, .poison] s t
        ∧ (∃ load, t.ctl.out = .cxlCmp h l tag.toNat load :: s.ctl.out) ∧ written t on ∧ linePoison t.dev.mem a = marked
        ∧ (p = true → Raised t.ctl (16 * h + 10)) ∧ (p = false → t.ctl.fcu = s.ctl.fcu))
    let decoded (ecc : EccRes) := eccDecode (failedAt s.ctl a) ecc
    (linePoison s.dev.mem a = false → Runs (.memRd h l tag dpa snp .clean) s (fun t =>
      OnlyChanges [.heads, .gals, .nextReq, .free, .poisonOver, .out] s t
      ∧ ∃ load, t.ctl.out = .cxlData h l tag.toNat (lineData s.dev.mem a) false .noOp load :: s.ctl.out))
    ∧ (linePoison s.dev.mem a = true → Runs (.memRd h l tag dpa snp .clean) s (fun t =>
      OnlyChanges [.heads, .gals, .nextReq, .free, .poisonOver, .fcu, .out] s t ∧ Raised t.ctl (16 * h + 11)
      ∧ ∃ load, t.ctl.out = .cxlData h l tag.toNat (lineData s.dev.mem a) true .noOp load :: s.ctl.out))
    ∧ (∀ ecc, decoded ecc = .uncorrectable → Runs (.memRd h l tag dpa snp ecc) s (fun t =>
      t.pending = s.pending ∧ t.dev.mem.dram = s.dev.mem.dram ∧ linePoison t.dev.mem a = true ∧ Raised t.ctl (16 * h + 11)
      ∧ ∃ load, .cxlData h l tag.toNat (lineData s.dev.mem a) true .noOp load ∈ t.ctl.out))
    ∧ (∀ ecc devs, decoded ecc = .corrected devs → Runs (.memRd h l tag dpa snp ecc) s (fun t => t.pending = s.pending ∧ t.dev.mem = s.dev.mem
      ∧ ∃ load, .cxlData h l tag.toNat (lineData s.dev.mem a) (linePoison s.dev.mem a) .noOp load ∈ t.ctl.out))
    ∧ done (.memWr h l tag dpa data p) (fun _ => true) p
    ∧ done (.memWrPtl h l tag dpa mask data p) (fun i => mask.toNat.testBit i)
        (p || (mask.toNat != 2 ^ 64 - 1 && linePoison s.dev.mem a))
    ∧ (isDirty s.ctl a = false → 0 < throttleNs s.ctl → Runs (.memWr h l tag dpa data false) s (fun t =>
        OnlyChanges [.heads, .gals, .pair, .nextReq, .free, .poisonOver, .reqs, .dram, .poison] s t ∧ t.ctl.out = s.ctl.out ∧ written t (fun _ => true)
        ∧ ∃ r, t.ctl.reqs = [r] ∧ r.src = .host h l tag.toNat ∧ r.wait = .throttle))
    ∧ Runs (.memClnEvct h l tag dpa) s (fun t => OnlyChanges [.heads, .gals, .nextReq, .poisonOver, .out] s t
        ∧ ∃ load, t.ctl.out = .cxlCmp h l tag.toNat load :: s.ctl.out)
    ∧ (∀ free, exec (.memSpecRd h l tag dpa free) s = .next s)

/-- R76, R78: when its delay is over, a throttled write is completed, and a mirror message acknowledged. R113: a flush is answered when no write of its head is in progress, and
waits for those that are. -/
def Obligations.DelayedCompletions : Prop :=
  ∀ (h : Fin 16) (l : Fin 4) (tag : BitVec 16) (r : Req) (s : State), s.ctl.snoops = [] → s.ctl.releases = [] → s.ctl.tenants = [] →
    (∀ k < 16, (headAt s.ctl k).gpf = []) → r.src = .host h l tag.toNat →
    (∀ k, s.ctl.reqs = [r] → r.wait = .throttle → Runs (.writeThrottleExpiry .request k r.id) s (fun t => OnlyChanges [.heads, .reqs, .poisonOver, .out] s t
      ∧ t.ctl.reqs = [] ∧ ∃ load, t.ctl.out = .cxlCmp h l tag.toNat load :: s.ctl.out))
    ∧ (∀ (k : Fin 4) ack id, s.ctl.twin.ackHeld = [(k.val, ack, true)] → Runs (.writeThrottleExpiry .mirrorAck k id) s (fun t =>
      OnlyChanges [.twin, .out] s t ∧ t.ctl.twin.ackHeld = [] ∧ ∃ delay stall, Leaves t.ctl k (.ack .mir ack delay stall)))
    ∧ ((headAt s.ctl h).linkUp = true → serving s.ctl = true → s.ctl.reqs = [] →
      Runs (.gpfPhase2 h) s (fun t => OnlyChanges [.heads, .out] s t ∧ t.ctl.out = .gpf h :: s.ctl.out))
    ∧ ((headAt s.ctl h).linkUp = true → serving s.ctl = true → s.ctl.reqs = [r] → r.isWrite = true →
      Runs (.gpfPhase2 h) s (fun t => OnlyChanges [.heads] s t ∧ (headAt t.ctl h).gpf = [[r.id]]))

/-- R98, R100, R104, R106, R107: the coherence directory of a home. A read with SnpInv of an untracked line takes it exclusive, with SnpData
shared; MemClnEvct and an answer to BISnpInv remove the holder; a conflict is acknowledged and keeps the entry BUSY; a holder that does not answer in time is
treated as invalidated, its LD fenced and BI_TIMEOUT raised; the sweep snoops its next block at every sharer.
Choices of the model: log entries 16, 22 and 102. -/
def Obligations.CoherenceDirectory : Prop :=
  ∀ (h : Fin 16) (l : Fin 4) (tag : BitVec 16) (dpa : BitVec 52) (s : State), aonOn s.ctl = true → Idle { s.ctl with snoops := [] } →
    let me : Holder := { here := true, ld := 4 * h + l }
    let line (a : BitVec 46) := lineNo a.toNat
    let dirOf (t : State) (n : Nat) := (galAt t.ctl (galOf t.ctl (n * 64))).dir
    let snooped (a : BitVec 46) := s.ctl.snoops = [{ kind := .inv, holder := me, line := line a, req := 0, fwd := none, sent := true, sweep := false }]
    (s.ctl.snoops = [] → LdServed s.ctl h l dpa.toNat → (hallAt s.ctl (hallOf (dpaOff dpa.toNat))).mode = .shared →
        (hallAt s.ctl (hallOf (dpaOff dpa.toNat))).home = true →
      let n := lineNo (dpaOff dpa.toNat)
      ((hallAt s.ctl (hallOf (dpaOff dpa.toNat))).cold = false → dirAt s.ctl n = none → (dirSetOf s.ctl n).length < 12 →
          linePoison s.dev.mem (dpaOff dpa.toNat) = false → ∀ snp, snp = .inv ∨ snp = .data →
        Runs (.memRd h l tag dpa snp .clean) s (fun t => OnlyChanges [.heads, .gals, .nextReq, .free, .poisonOver, .out] s t
          ∧ dirAt t.ctl n = some { line := n, state := if snp = .inv then .exclusive else .shared, holders := [me] }
          ∧ ∃ load, t.ctl.out = .cxlData h l tag.toNat (lineData s.dev.mem (dpaOff dpa.toNat)) false .noOp load :: s.ctl.out))
      ∧ (∀ st, dirOf s n = [{ line := n, state := st, holders := [me] }] →
        Runs (.memClnEvct h l tag dpa) s (fun t => OnlyChanges [.heads, .gals, .nextReq, .poisonOver, .out] s t ∧ dirOf t n = []
          ∧ ∃ load, t.ctl.out = .cxlCmp h l tag.toNat load :: s.ctl.out)))
    ∧ (∀ a resp, snooped a → memReach s.ctl h l = true → Runs (.biRspFromHost h l a resp none false) s (fun t =>
        OnlyChanges [.heads, .gals, .snoops, .poisonOver] s t ∧ t.ctl.snoops = []
        ∧ ∀ st, dirOf s (line a) = [{ line := line a, state := st, holders := [me] }] → dirOf t (line a) = []))
    ∧ (∀ a resp v p, snooped a → memReach s.ctl h l = true → Plain s.ctl (64 * line a) → (ldAt s.ctl (4 * h + l)).biFenced = false →
        s.dev.mem.wf = true → Runs (.biRspFromHost h l a resp (some v) p) s (fun t =>
          OnlyChanges [.heads, .gals, .snoops, .pair, .nextReq, .free, .poisonOver, .dram, .poison] s t ∧ t.ctl.snoops = []
          ∧ lineData t.dev.mem (64 * line a) = v ∧ linePoison t.dev.mem (64 * line a) = p ∧ isDirty t.ctl (64 * line a) = true))
    ∧ (∀ a e, snooped a → memReach s.ctl h l = true → dirAt s.ctl (line a) = some e → e.holders ≠ [] →
        Runs (.biConflict h l a) s (fun t => OnlyChanges [.gals, .out] s t ∧ dirAt t.ctl (line a) = some { e with state := .busy }
          ∧ t.ctl.out = .biConflictAck h l (line a) :: s.ctl.out))
    ∧ (∀ (d : Fin 64) a, d.val = 4 * h + l → snooped a → Runs (.biTimeoutExpiry true d a) s (fun t =>
        OnlyChanges [.heads, .gals, .snoops, .lds, .fcu, .poisonOver, .out] s t ∧ t.ctl.snoops = [] ∧ (ldAt t.ctl d).biFenced = true
        ∧ (headAt t.ctl h).biTimeouts = satInc (headAt s.ctl h).biTimeouts 0xFFFFFFFF ∧ Raised t.ctl (16 * h + 5)
        ∧ ∀ x < 64, x ≠ d.val → (ldAt t.ctl x).biFenced = (ldAt s.ctl x).biFenced))
    ∧ (∀ (d : Fin 64) a, s.ctl.snoops = [{ kind := .inv, holder := { here := false, ld := d }, line := line a, req := 0, fwd := none, sent := true, sweep := false }] →
        Runs (.biTimeoutExpiry false d a) s (fun t => OnlyChanges [.heads, .gals, .snoops, .twin, .poisonOver, .out] s t ∧ t.ctl.snoops = []))
    ∧ (∀ (g : Fin 8) k x, s.ctl.snoops = [] → serving s.ctl = true → coldHall s.ctl g = some (k, x) → x.sharers ≠ [] → x.sharers.length ≤ 64 →
        (∀ y ∈ x.sharers, biReach s.ctl { here := y.here, ld := y.ld } = true ∧ y.here = true) → x.warm = [] →
        Runs (.coldSweepSnoop g) s (fun t => OnlyChanges [.heads, .snoops, .poisonOver, .out] s t
          ∧ t.ctl.snoops = (sharersOf x).map (fun y =>
            { kind := .invBlk, holder := y, line := k * 16777216 + 4 * x.swept, req := 0, fwd := none, sent := true, sweep := true })))

/-- R105, R121, R128, R130, R80, R81: the links of the heads. What takes a link down takes Memory_Active, the IDE keys and the head's
directory entries with it, resets the LDs' CXL.io state and leaves hall assignments and contents alone; a CXL Reset does so to one LD; training
sets the rate and width, or leaves the head out of CXL mode, and reports a degraded link; keys programmed establish a stream and, taken into use,
secure it; an integrity failure marks the stream failed, and its flits reach the device no more.
Choices of the model: log entries 41 and 76. -/
def Obligations.HeadLinks : Prop :=
  ∀ (h : Fin 16) (l : Fin 4) (s : State), aonOn s.ctl = true → Idle s.ctl → s.ctl.rings = [] →
    let kept (t : State) := t.pending = s.pending ∧ t.dev.mem = s.dev.mem ∧ t.ctl.halls = s.ctl.halls ∧ t.ctl.glb = s.ctl.glb
    let gone (t : State) := kept t ∧ (headAt t.ctl h).linkUp = false ∧ (headAt t.ctl h).memActive = 0 ∧ (∀ w, (ideAt t.ctl h w).st = .none)
      ∧ (∀ g < 8, ∀ e ∈ (galAt t.ctl g).dir, ∀ y ∈ e.holders, ¬(y.here = true ∧ y.ld / 4 = h))
      ∧ (∀ i < 4, (ldAt t.ctl (4 * h + i)).biFenced = false ∧ (ldAt t.ctl (4 * h + i)).decoders = [Decoder.reset, Decoder.reset])
      ∧ ∀ k < 16, k ≠ h.val → (headAt t.ctl k).linkUp = (headAt s.ctl k).linkUp
    ((headAt s.ctl h).linkUp = true → Runs (.headLinkDown h) s (fun t => gone t ∧ Raised t.ctl (16 * h))
      ∧ Runs (.hotReset h) s (fun t => gone t ∧ Raised t.ctl (16 * h)))
    ∧ (headsLive s.ctl = true → Runs (.perstNAssert h) s (fun t => gone t ∧ (headAt t.ctl h).perst = true))
    ∧ Runs (.perstNRelease h) s (fun t => OnlyChanges [.heads] s t ∧ (headAt t.ctl h).perst = false)
    ∧ (ldReach s.ctl (4 * h + l) = true → Runs (.cxlReset h l) s (fun t => kept t ∧ (headAt t.ctl h).linkUp = true
        ∧ (ldAt t.ctl (4 * h + l)).biFenced = false ∧ (ldAt t.ctl (4 * h + l)).decoders = [Decoder.reset, Decoder.reset]
        ∧ ∀ g < 8, ∀ e ∈ (galAt t.ctl g).dir, ∀ y ∈ e.holders, y ≠ { here := true, ld := 4 * h + l }))
    ∧ (∀ (rate width : BitVec 4) (f : Bool), headsLive s.ctl = true → s.ctl.clk.ref100 = true → (headAt s.ctl h).perst = false → (headAt s.ctl h).linkUp = false →
        headFenced s.ctl h = false → rate.toNat ≤ (headAt s.ctl h).maxRate → (rate = 4 → f = true) →
        (1 ≤ rate.toNat → width = 8 ∨ width = 4 → Runs (.headLinkUp h rate width f) s (fun t => OnlyChanges [.heads, .fcu, .out] s t
          ∧ (headAt t.ctl h).linkUp = true ∧ (headAt t.ctl h).rate = rate.toNat ∧ (headAt t.ctl h).width = width.toNat
          ∧ (headAt t.ctl h).memActive = activeMask s.ctl h
          ∧ (srcAt t.ctl (16 * h + 1)).condition = (width = 4 ∨ rate.toNat < (headAt s.ctl h).maxRate)))
        ∧ (rate = 0 ∨ width ≠ 8 ∧ width ≠ 4 → Runs (.headLinkUp h rate width f) s (fun t => OnlyChanges [.heads, .fcu] s t
          ∧ (headAt t.ctl h).linkUp = false ∧ (srcAt t.ctl (16 * h + 1)).condition = true)))
    ∧ (∀ w, (headAt s.ctl h).linkUp = true →
        ((ideAt s.ctl h w).st = .secure → Runs (.ideIntegrityFailure ⟨h, w⟩) s (fun t => OnlyChanges [.heads, .fcu] s t ∧ (ideAt t.ctl h w).st = .failed
          ∧ Raised t.ctl (16 * h + 3) ∧ (w = .cachemem → ∀ m, memReach t.ctl h m = false) ∧ (w = .io → ∀ m < 4, ioReach t.ctl (4 * h + m) = false)))
        ∧ Runs (.ideKm ⟨h, w⟩ .program) s (fun t => OnlyChanges [.heads] s t
          ∧ ideAt t.ctl h w = { st := if (ideAt s.ctl h w).st = .none then .established else (ideAt s.ctl h w).st, next := (ideAt s.ctl h w).st != .failed })
        ∧ ((ideAt s.ctl h w).next = true → Runs (.ideKm ⟨h, w⟩ .go) s (fun t => OnlyChanges [.heads] s t
          ∧ ideAt t.ctl h w = { st := .secure, next := false }))
        ∧ Runs (.ideKm ⟨h, w⟩ .failed) s (fun t => OnlyChanges [.fcu] s t ∧ Raised t.ctl (16 * h + 4)))

/-- R88, R91, R115, R117, R122, R124, R126, R109, R534: the commands of an LD. A decoder commits when it has one way and shows an error
otherwise; the poison list, the time in nanoseconds, the shutdown state, health, label writes, event records and measurements are
answered with their contents; a record is cleared by its handle, in order; a poison injection marks the line and a clear writes its data
and takes the mark away; the peak of a head's tracker is set to its present use.
Choices of the model: log entries 31, 34 and 36. -/
def Obligations.LdCommands : Prop :=
  ∀ (h : Fin 16) (l : Fin 4) (s : State), ioReach s.ctl (4 * h + l) = true →
    let d := 4 * h.val + l.val
    let answers (i : Instr) (ps : List Part) (op code : Nat) (pay : List Byte) (P : State → Prop) := Runs i s (fun t => OnlyChanges ps s t
      ∧ t.ctl.out = .mbox d op code pay :: s.ctl.out ∧ P t)
    (∀ dec ways base size, dec.val < (ldAt s.ctl d).decoders.length → Runs (.decoderCommit h l dec ways base size) s (fun t =>
      OnlyChanges [.lds] s t ∧ (ldAt t.ctl d).decoders[dec.val]? =
        some { committed := ways == 1, error := ways != 1, ways := ways, base := base, size := size }))
    ∧ (∀ (dpa len : BitVec 52), let p := (ldAt s.ctl d).poisonPos
        let left := (poisonOf s.dev d dpa.toNat len.toNat).drop (if p.1 = dpa.toNat ∧ p.2.1 = len.toNat then p.2.2 else 0)
      answers (.getPoisonList h l dpa len) [.lds, .out] 0x4300 0 (BitVec.ofNat 8 ((if 254 < left.length then 1 else 0) + if s.ctl.poisonOver.isSome then 2 else 0) :: 0 ::
        bytesOf 8 ((s.ctl.poisonOver.map BitVec.toNat).getD 0) ++ bytesOf 2 (left.take 254).length ++ List.replicate 20 0 ++
        (left.take 254).flatMap (fun r => bytesOf 8 r.1 ++ bytesOf 4 r.2 ++ bytesOf 4 0)) (fun _ => True))
    ∧ answers (.getTimestamp h l) [.out] 0x0300 0 (bytesOf 8 ((s.ctl.rtc.seconds.toNat + 946684800) * 1000000000
        + s.ctl.rtc.frac.toNat / 256 * 1000000000 / 65536)) (fun _ => True)
    ∧ (∀ v, answers (.setShutdownState h l v) [.lds, .out] 0x4204 0 [] (fun t => (ldAt t.ctl d).shutdown = v.toNat
        ∧ (ldAt t.ctl d).dirtyCount = (ldAt s.ctl d).dirtyCount))
    ∧ (∀ temp, answers (.getHealthInfo h l temp) [.out] 0x4200 0
        (bytesOf 2 (temp % 65536).toNat ++ bytesOf 4 (ldAt s.ctl d).dirtyCount) (fun _ => True))
    ∧ (∀ (off : Nat) (bytes : List Byte), let a := lsaAddr s.ctl.twin.side d + off
      s.ctl.glb.mode = .solo → Idle s.ctl → s.dev.mem.wf = true → bytes ≠ [] → bytes.length ≤ 4088 → off + bytes.length ≤ 131072 →
      (∀ i < bytes.length, Plain s.ctl (a + i) ∧ (hallAt s.ctl (hallOf (a + i))).mode ≠ .shared) →
      ((∀ i < bytes.length, isDirty s.ctl (a + i) = true) ∨ riserNo a = riserNo (a + bytes.length - 1) ∧ Room s.ctl a ∧ throttleNs s.ctl = 0) →
      answers (.setLsa h l off bytes) [.heads, .gals, .pair, .nextReq, .free, .poisonOver, .dram, .poison, .out] 0x4103 0 [] (fun t =>
        (∀ i < bytes.length, State.byte t (a + i) = bytes.getD i 0 ∧ isDirty t.ctl (a + i) = true)
        ∧ ∀ x, x < a ∨ a + bytes.length ≤ x → State.byte t x = State.byte s x))
    ∧ (∀ off bytes, serving s.ctl = true → (∀ r ∈ s.ctl.reqs, r.src ≠ .lsa h l) → (4088 < bytes.length → answers (.setLsa h l off bytes) [.out] 0x4103 0x16 [] (fun _ => True))
      ∧ (bytes.length ≤ 4088 → 131072 < off + bytes.length → answers (.setLsa h l off bytes) [.out] 0x4103 2 [] (fun _ => True)))
    ∧ (∀ log hs, answers (.clearEventRecords h l log true hs) [.lds, .out] 0x0101 0 [] (fun t => (evqOf (ldAt t.ctl d) log).recs = []))
    ∧ (∀ log hs, ((evqOf (ldAt s.ctl d) log).recs.map (fun r => r.1)).take hs.length = hs.map BitVec.toNat →
      answers (.clearEventRecords h l log false hs) [.lds, .out] 0x0101 0 [] (fun t =>
        (evqOf (ldAt t.ctl d) log).recs = (evqOf (ldAt s.ctl d) log).recs.drop hs.length))
    ∧ (∀ i head pg, Runs (.getMeasurements h i head pg) s (fun t => OnlyChanges [.out] s t
      ∧ (i = 1 → t.ctl.out = .spdm h 1 (bytesOf 48 head.toNat) :: s.ctl.out) ∧ (i = 3 → t.ctl.out = .spdm h 3 (bytesOf 48 pg.toNat) :: s.ctl.out)))
    ∧ (∀ ini (k : Fin 16), MayWrite s ini → blkAnswers s.ctl (.hst k) 0 = true →
      Runs (.peakClr ini k) s (fun t => OnlyChanges [.heads] s t ∧ (headAt t.ctl k).peak = trackerOf s.ctl k))
    ∧ (∀ dpa data, Idle s.ctl → LdServed s.ctl h l (BitVec.toNat dpa) → (hallAt s.ctl (hallOf (dpaOff dpa.toNat))).mode = .priv → s.dev.mem.wf = true →
      isDirty s.ctl (dpaOff dpa.toNat) = true ∨ throttleNs s.ctl = 0 →
      answers (.injectPoison h l dpa) [.gals, .pair, .nextReq, .free, .poisonOver, .heads, .poison, .out] 0x4301 0 [] (fun t => linePoison t.dev.mem (dpaOff dpa.toNat) = true)
      ∧ answers (.clearPoison h l dpa data) [.gals, .pair, .nextReq, .free, .poisonOver, .heads, .dram, .poison, .out] 0x4302 0 [] (fun t =>
        linePoison t.dev.mem (dpaOff dpa.toNat) = false ∧ lineData t.dev.mem (dpaOff dpa.toNat) = data))

/-- R132 to R137: the end of a channel's training. A missing DIMM, one that R132 does not list, one that differs from the vault's record and
a failed step give RESULT 0x8, 0x9, 0xA and 0xB and raise TRAIN_FAIL; a pass at the device's rate gives its margins, of which one below 15 %
is reported; a pass at a lower rate sends every other channel that passed back to training.
Choices of the model: log entries 12 and 45. -/
def Obligations.DramTraining : Prop :=
  ∀ (ch : Fin 32) (p : TrainProbe) (s : State), aonOn s.ctl = true → s.ctl.glb.mode = .start → s.ctl.boot.phase = .training →
    (dchAt s.ctl ch).result = 1 →
    let low := p.rdMargin.toNat < 15 ∨ p.wrMargin.toNat < 15
    let listed := p.detected = true ∧ p.spdOk = true ∧ (orgRb p.cap p.die p.ranks p.stack).isSome = true
    let known := ∀ l, dimmRecord s.ctl = some l → l = probeOrg p
    let ends (res : Nat) (P : State → Prop) := Runs (.dchTrainingDone ch p) s (fun t => OnlyChanges [.dchs, .dimm, .alc, .fcu] s t
      ∧ (dchAt t.ctl ch).result = res ∧ P t)
    let fails (res : Nat) := ends res (fun t => (dchAt t.ctl ch).rate = 0 ∧ (dchAt t.ctl ch).rdMargin = 0 ∧ (dchAt t.ctl ch).wrMargin = 0
      ∧ t.ctl.dimm = s.ctl.dimm ∧ Raised t.ctl (0x100 + 32 * (ch / 4) + 6 * (ch % 4))
      ∧ ∀ k < 32, k ≠ ch.val → (dchAt t.ctl k).result = (dchAt s.ctl k).result)
    (p.detected = false → fails 8)
    ∧ (p.detected = true → (p.spdOk = false ∨ orgRb p.cap p.die p.ranks p.stack = none) → fails 9)
    ∧ (∀ l, listed → dimmRecord s.ctl = some l → l ≠ probeOrg p → fails 0xA)
    ∧ (listed → known → p.pass = none → fails 0xB)
    ∧ (∀ r, listed → known → p.pass = some r → s.ctl.dimm.rate ≤ r.val → s.ctl.dimm.rate = rateCode s.ctl.img.dramRate →
      ends (if low then 3 else 2) (fun t => t.ctl.dimm = s.ctl.dimm ∧ (dchAt t.ctl ch).rate = s.ctl.dimm.rate
        ∧ (dchAt t.ctl ch).rdMargin = p.rdMargin.toNat ∧ (dchAt t.ctl ch).cap = p.cap
        ∧ (low → Raised t.ctl (0x101 + 32 * (ch / 4) + 6 * (ch % 4)))
        ∧ ∀ k < 32, k ≠ ch.val → (dchAt t.ctl k).result = (dchAt s.ctl k).result))
    ∧ (∀ r, listed → known → p.pass = some r → s.ctl.dimm.rate ≤ r.val → s.ctl.dimm.rate < rateCode s.ctl.img.dramRate →
      ends 4 (fun t => t.ctl.dimm = s.ctl.dimm ∧ (dchAt t.ctl ch).rate = s.ctl.dimm.rate
        ∧ Raised t.ctl (0x101 + 32 * (ch / 4) + 6 * (ch % 4))
        ∧ ∀ k < 32, k ≠ ch.val → (dchAt t.ctl k).result = (dchAt s.ctl k).result))
    ∧ (∀ r, listed → known → p.pass = some r → r.val < s.ctl.dimm.rate → s.ctl.dimm.rate ≤ rateCode s.ctl.img.dramRate →
      ends 4 (fun t => t.ctl.dimm.rate = r.val ∧ Raised t.ctl (0x101 + 32 * (ch / 4) + 6 * (ch % 4))
        ∧ ∀ k < 32, k ≠ ch.val → (dchAt t.ctl k).result =
          if 2 ≤ (dchAt s.ctl k).result ∧ (dchAt s.ctl k).result ≤ 4 then 1 else (dchAt s.ctl k).result))

/-- R131, R164: the gallery reset. It starts only on a gallery whose memory is fenced, resets the gallery's two heads and sends its four
channels to training; it ends with the fence cleared and the halls to be restored, or with the fence kept.
Choices of the model: log entry 46. -/
def Obligations.GalleryReset : Prop :=
  ∀ (ini : Byte) (g : Fin 8) (p : Fin 4 → TrainProbe) (s : State), aonOn s.ctl = true → s.ctl.glb.mode = .solo → Idle s.ctl → s.ctl.rings = [] →
    let done : Instr := .galleryResetDone g (p 0) (p 1) (p 2) (p 3)
    (MayWrite s ini → (galAt s.ctl g).fenced = true → (galAt s.ctl g).resetting = false →
      Runs (.galReset ini g) s (fun t => t.pending = s.pending ∧ t.dev.mem = s.dev.mem ∧ t.ctl.halls = s.ctl.halls ∧ t.ctl.glb = s.ctl.glb
        ∧ (galAt t.ctl g).resetting = true ∧ (galAt t.ctl g).fenced = true ∧ (headAt t.ctl (2 * g)).linkUp = false
        ∧ (headAt t.ctl (2 * g + 1)).linkUp = false ∧ t.ctl.rst.lastKind = 4
        ∧ ∀ k < 32, (dchAt t.ctl k).result = if k / 4 = g then 1 else (dchAt s.ctl k).result))
    ∧ (MayWrite s ini → (galAt s.ctl g).fenced = false ∨ (galAt s.ctl g).resetting = true →
      Runs (.galReset ini g) s (fun t => OnlyChanges [.heads, .mgmt] s t))
    ∧ ((galAt s.ctl g).resetting = true → (∀ i, (p i).detected = false) → Runs done s (fun t => OnlyChanges [.gals, .dchs, .alc, .fcu] s t
        ∧ (galAt t.ctl g).resetting = false ∧ (galAt t.ctl g).fenced = (galAt s.ctl g).fenced
        ∧ ∀ i < 4, (dchAt t.ctl (4 * g + i)).result = 8 ∧ Raised t.ctl (0x100 + 32 * g + 6 * i)))
    ∧ ((galAt s.ctl g).resetting = true → s.ctl.twin.held = [] → s.ctl.dimm.perGal ≤ 2048 → dimmRecord s.ctl = none → s.ctl.dimm.rate = rateCode s.ctl.img.dramRate →
        (∀ i, (p i).detected = true ∧ (p i).spdOk = true ∧ (orgRb (p i).cap (p i).die (p i).ranks (p i).stack).isSome = true
          ∧ 15 ≤ (p i).rdMargin.toNat ∧ 15 ≤ (p i).wrMargin.toNat ∧ ∃ r, (p i).pass = some r ∧ s.ctl.dimm.rate ≤ r.val) →
      Runs done s (fun t => t.pending = s.pending ∧ (∀ a < 2 ^ 44, State.byte t a = State.byte s a) ∧ (galAt t.ctl g).resetting = false ∧ (galAt t.ctl g).fenced = false
        ∧ (galAt t.ctl g).frame = 0 ∧ t.ctl.glb.restoring = true ∧ (∀ i < 4, (dchAt t.ctl (4 * g + i)).result = 2)
        ∧ ∀ k ∈ hallsOfGal s.ctl g, ∀ j < 262144, unrestored t.ctl (k * 262144 + j) = true))

/-- R28, R29, R142, R165: scrub reads the gallery's lines in turn, passes over treads that are not restored and counts its passes; an idle
gallery enters DOZE and wakes; a hot DIMM raises DIMM_THERMAL.
Choices of the model: log entry 50. -/
def Obligations.ScrubDozeAndSensors : Prop :=
  ∀ (g : Fin 8) (s : State), aonOn s.ctl = true →
    let x := galAt s.ctl g
    let n := galLines s.ctl
    let a := lineAddr s.ctl g x.scrubPos
    let moved (t : State) := (galAt t.ctl g).scrubPos = (if x.scrubPos + 1 ≥ n then 0 else x.scrubPos + 1)
      ∧ (galAt t.ctl g).scrubPasses = (if x.scrubPos + 1 ≥ n then satInc x.scrubPasses 0xFFFFFFFF else x.scrubPasses)
    (s.ctl.glb.mode.service = true → x.fenced = false → x.doze = false → 0 < n →
      (∀ ecc, unrestored s.ctl (treadNo a) = true ∨ stale s.ctl (treadNo a) = true →
        Runs (.scrubRead g ecc) s (fun t => OnlyChanges [.gals] s t ∧ moved t))
      ∧ (Idle s.ctl → unrestored s.ctl (treadNo a) = false → stale s.ctl (treadNo a) = false →
        Runs (.scrubRead g .clean) s (fun t => OnlyChanges [.gals, .heads, .nextReq, .free, .poisonOver] s t ∧ moved t)
        ∧ ∀ ecc, s.ctl.glb.mode = .solo → eccDecode (failedAt s.ctl a) ecc = .uncorrectable → x.scrubPos < n →
          Runs (.scrubRead g ecc) s (fun t => t.pending = s.pending ∧ t.dev.mem.dram = s.dev.mem.dram
            ∧ linePoison t.dev.mem a = true ∧ Raised t.ctl (srcDch (chanOf s.ctl a) 3))))
    ∧ (s.ctl.glb.mode.service = true → x.fenced = false → x.doze = false → galIdle s.ctl g = true →
      Runs (.dozeIdleExpiry g) s (fun t => OnlyChanges [.gals, .clk] s t ∧ (galAt t.ctl g).doze = true
        ∧ (galAt t.ctl g).dozeEntries = (x.dozeEntries + 1) % 65536 ∧ ∀ k, k ≠ g.val → galAt t.ctl k = galAt s.ctl k))
    ∧ Runs (.dozeWake g) s (fun t => OnlyChanges [.gals] s t ∧ (galAt t.ctl g).doze = false ∧ ∀ k, k ≠ g.val → galAt t.ctl k = galAt s.ctl k)
    ∧ (∀ ch : Fin 32, s.ctl.glb.mode.service = true → Runs (.dimmThermal ch) s (fun t => OnlyChanges [.dchs, .fcu] s t
        ∧ (dchAt t.ctl ch).hot = true ∧ Raised t.ctl (0x11F + 32 * (ch / 4))))

/-- R171, R173, R174, R202: the training of a twin link. PMD training that leaves two good lanes or more goes on to ALIGN, with fewer the link is
declared lost; three marker codewords lead to INIT, and a link in a fast retrain sends INIT when it has lock again, its lanes without lock failed; a
timeout, or lock lost in INIT, ends in LOST with TRAIN_FAIL; an idle LOST link trains again; an ACTIVE link that loses lock or is told to retrain
enters a fast retrain, which the side that starts it asks for. With its last link a device discards its streams.
Choices of the model: log entry 12. -/
def Obligations.LinkTraining : Prop :=
  ∀ (tl : Fin 4) (s : State), aonOn s.ctl = true →
    let l := linkAt s.ctl tl
    let st := l.state
    let others (t : State) := ∀ k < 4, k ≠ tl.val → (linkAt t.ctl k).state = (linkAt s.ctl k).state
    let down (i : Instr) (cause source : Nat) := Runs i s (fun t => OnlyChanges [.twin, .pair, .tenants, .releases, .fcu, .out] s t
      ∧ (linkAt t.ctl tl).state = .lost ∧ (linkAt t.ctl tl).downCause = cause ∧ Raised t.ctl (srcLink tl source) ∧ others t)
    let retrains (i : Instr) (P : State → Prop) := Runs i s (fun t => OnlyChanges [.twin, .fcu, .out] s t ∧ (linkAt t.ctl tl).state = .retrain
      ∧ (linkAt t.ctl tl).retrains = (l.retrains + 1) % 2 ^ 16 ∧ (linkAt t.ctl tl).credit = l.credit ∧ Raised t.ctl (srcLink tl 6) ∧ others t ∧ P t)
    let asks (t : State) := (linkAt t.ctl tl).replayBuf = l.replayBuf ∧ .ctrl tl (.retrainReq (facked l)) ∈ t.ctl.out
    (∀ good, st = .pmdTrain → s.ctl.clk.ref156 = true →
      let n := ((List.range 4).filter (fun i => BitVec.getLsbD good i)).length
      (2 ≤ n → Runs (.pmdTrainDone tl good) s (fun t => OnlyChanges [.twin, .fcu] s t ∧ (linkAt t.ctl tl).state = .align ∧ others t
        ∧ ∀ i < 4, ((linkAt t.ctl tl).lanes[i]?).map (fun x => x.failed) = (l.lanes[i]?).map (fun _ => !good.getLsbD i)))
      ∧ (n < 2 → down (.pmdTrainDone tl good) 8 0))
    ∧ (∀ good, s.ctl.clk.ref156 = false → exec (.pmdTrainDone tl good) s = .next s)
    ∧ (st = .pmdTrain → down (.pmdTrainTimeout tl) 2 2)
    ∧ (st = .align → down (.alignTimeout tl) 2 2)
    ∧ (∀ m lost, st = .align → Runs (.codewordLock tl ⟨m, lost⟩) s (fun t => OnlyChanges [.twin, .out] s t ∧ others t
        ∧ (linkAt t.ctl tl).state = .init ∧ (linkAt t.ctl tl).laneMap = BitVec.toNat m ∧ (linkAt t.ctl tl).initSent = true
        ∧ t.ctl.out = .ctrl tl (.init (initFields t.ctl tl)) :: s.ctl.out))
    ∧ (∀ m lost, st = .retrain → l.initSent = false → l.lanes.length = 4 →
        let good := (List.range 4).filter (fun i => let p := BitVec.toNat m / 16 ^ i % 4; !(laneBad l p || BitVec.getLsbD lost p))
        (2 ≤ good.length → Runs (.codewordLock tl ⟨m, lost⟩) s (fun t => OnlyChanges [.twin, .fcu, .out] s t ∧ others t
          ∧ (linkAt t.ctl tl).state = .retrain ∧ (linkAt t.ctl tl).laneMap = m.toNat ∧ (linkAt t.ctl tl).initSent = true
          ∧ (∀ i < 4, laneBad (linkAt t.ctl tl) i = (laneBad l i || lost.getLsbD i)) ∧ t.ctl.out = .ctrl tl (.init (initFields t.ctl tl)) :: s.ctl.out))
        ∧ (good.length < 2 → down (.codewordLock tl ⟨m, lost⟩) 8 0))
    ∧ (st = .init → down (.initTimeout tl) 2 2 ∧ down (.codewordLockLoss tl) 2 2)
    ∧ (st = .lost → l.enabled = true → twinPowered s.ctl = true → s.ctl.pair.paired = true → s.ctl.twin.holding = false →
        (unitFenced s.ctl (0x20 + tl) = false → Runs (.lostIdleExpiry tl) s (fun t => OnlyChanges [.twin, .out] s t
          ∧ (linkAt t.ctl tl).state = .pmdTrain ∧ t.ctl.out = .link tl false :: s.ctl.out ∧ others t))
        ∧ (unitFenced s.ctl (0x20 + tl) = true → Runs (.lostIdleExpiry tl) s (fun t => OnlyChanges [.twin] s t
          ∧ (linkAt t.ctl tl).state = .fenced ∧ others t)))
    ∧ (st = .active → s.ctl.twin.holding = false → retrains (.codewordLockLoss tl) asks
        ∧ (∀ fack, retrains (.retrainReq ⟨tl, fack⟩) (fun t => tl.val ∉ s.ctl.twin.steered → t.ctl.out = s.ctl.out))
        ∧ ∀ ini, MayWrite s ini → blkAnswers s.ctl (.twn tl) 0 = true → retrains (.linkRetrain ini tl) asks)
    ∧ (∀ fack, st ≠ .active → exec (.retrainReq ⟨tl, fack⟩) s = .next s)

/-- R174, R175, R195: INIT and INIT_ACK, in full training and in a fast retrain. An INIT whose version, pair ID, side or link does not fit raises
MISWIRED and the link does not come up; one that fits is answered with INIT_ACK, behind an INIT where none was sent. When both INITs are acknowledged
the link is ACTIVE at the width of the lanes that both sides have and is steered; its flits go on where they were if FAST is set on both sides, and
start anew otherwise. With fewer than two lanes in a direction it is declared lost. -/
def Obligations.LinkInit : Prop :=
  ∀ (tl : Fin 4) (f : InitFields) (s : State), aonOn s.ctl = true → Calm s.ctl →
    let l := linkAt s.ctl tl
    let fits := f.version = 1 ∧ f.pairId = s.ctl.twin.pairId ∧ f.side.toNat ≠ s.ctl.twin.side ∧ f.tl.toNat = tl.val
    let theirs := ((List.range 4).filter (fun i => f.rxLanes.getLsbD i)).length
    let ours := (goodLanes l).length
    let fast := l.fast && f.fast
    let width (n : Nat) : Nat := if n = 4 then 4 else 2
    l.state = .init ∨ l.state = .retrain →
    (¬fits → Runs (.ctrlInit tl f) s (fun t => OnlyChanges [.twin, .fcu] s t ∧ (linkAt t.ctl tl).state = l.state
        ∧ (linkAt t.ctl tl).downCause = 3 ∧ Raised t.ctl (srcLink tl 3)) ∧ exec (.initAck tl f) s = .next s)
    ∧ (fits → l.initAcked = false → Runs (.ctrlInit tl f) s (fun t => OnlyChanges [.twin, .out] s t
        ∧ (linkAt t.ctl tl).state = l.state ∧ (linkAt t.ctl tl).initRcvd = true ∧ (linkAt t.ctl tl).initSent = true
        ∧ (linkAt t.ctl tl).peerTl = f.tl.toNat ∧ (linkAt t.ctl tl).peerSide = f.side.toNat
        ∧ t.ctl.out = .ctrl tl (.initAck (initFields t.ctl tl)) :: (if l.initSent then s.ctl.out else .ctrl tl (.init (initFields t.ctl tl)) :: s.ctl.out)))
    ∧ (fits → l.initSent = true → l.initRcvd = true →
        (2 ≤ theirs → 2 ≤ ours → s.ctl.twin.sent = [] → (fast = true → winSum (winAdd l.replayWin (now s.ctl) l.replayBuf.length 65) ≤ 1000) →
          Runs (.initAck tl f) s (fun t => OnlyChanges [.twin, .pair, .fcu, .out] s t
            ∧ (linkAt t.ctl tl).state = .active ∧ tl.val ∈ t.ctl.twin.steered
            ∧ (linkAt t.ctl tl).txWidth = width theirs ∧ (linkAt t.ctl tl).rxWidth = width ours
            ∧ (linkAt t.ctl tl).nextExp = if fast then l.nextExp else 0))
        ∧ (theirs < 2 ∨ ours < 2 → Runs (.initAck tl f) s (fun t => OnlyChanges [.twin, .pair, .tenants, .releases, .fcu, .out] s t
            ∧ (linkAt t.ctl tl).state = .lost ∧ (linkAt t.ctl tl).downCause = 8 ∧ Raised t.ctl (srcLink tl 0))))

/-- R193, R199, R200 to R202, R205, R206: an ACTIVE link in use. Heartbeats leave and are counted; a link without them is lost and leaves
steering; a lane over its limit in three windows fails; DEPART and PFAULT of the current epoch mark the partner as leaving; a reset of the
link lifts its fence and trains it; the hold after DEPART ends with every link powered down. -/
def Obligations.LinkLossAndRecovery : Prop :=
  ∀ (tl : Fin 4) (s : State), aonOn s.ctl = true → Calm s.ctl →
    let l := linkAt s.ctl tl
    let others (t : State) := ∀ k < 4, k ≠ tl.val → (linkAt t.ctl k).state = (linkAt s.ctl k).state
    (l.state = .active → s.ctl.twin.holding = false → Runs (.heartbeatSend tl) s (fun t => OnlyChanges [.twin, .out] s t ∧ others t
      ∧ (linkAt t.ctl tl).hbTx = (l.hbTx + 1) % 65536
      ∧ ∃ up db, Leaves t.ctl tl (.heartbeat (modeCode s.ctl.glb.mode) up s.ctl.pair.epoch l.hbTx db s.ctl.glb.restoring)))
    ∧ (∀ st up e n db rs, l.state = .active → s.ctl.twin.holding = false → s.ctl.pair.helloSent = true →
        Runs (.heartbeat tl st up e n db rs) s (fun t => OnlyChanges [.twin, .pair] s t ∧ (linkAt t.ctl tl).hbTime = now s.ctl
          ∧ (linkAt t.ctl tl).hbRx = (l.hbRx + 1) % 2 ^ 32
          ∧ ∃ q, t.ctl.pair.partner = some q ∧ q.state = st.toNat ∧ q.dbEff = db.toNat ∧ q.restoring = rs))
    ∧ (l.state = .active ∨ l.state = .retrain → Runs (.linkLostTimeout tl) s (fun t =>
        OnlyChanges [.twin, .pair, .tenants, .releases, .fcu, .out] s t ∧ others t ∧ (linkAt t.ctl tl).state = .lost ∧ (linkAt t.ctl tl).losses = (l.losses + 1) % 2 ^ 16 ∧ tl.val ∉ t.ctl.twin.steered
        ∧ Raised t.ctl (srcLink tl 0)))
    ∧ (∀ ini, MayWrite s ini → blkAnswers s.ctl (.twn tl) 0 = true → twinPowered s.ctl = true → l.enabled = true → s.ctl.pair.paired = true →
        s.ctl.twin.holding = false → Runs (.linkReset ini tl) s (fun t => OnlyChanges [.twin, .pair, .tenants, .releases, .fcu, .out] s t ∧ others t
          ∧ (linkAt t.ctl tl).state = .pmdTrain ∧ tl.val ∉ t.ctl.twin.steered ∧ unitFenced t.ctl (0x20 + tl) = false))
    ∧ (∀ ini, MayWrite s ini → blkAnswers s.ctl (.twn tl) 0 = true → twinPowered s.ctl = true → l.enabled = false →
        Runs (.linkReset ini tl) s (fun t => OnlyChanges [.pair, .fcu] s t ∧ unitFenced t.ctl (0x20 + tl) = false))
    ∧ (∀ (lane : Fin 4) x errs ppm, l.state = .active → l.lanes[lane.val]? = some x →
        (ppm ≤ s.ctl.twin.serLimit → Runs (.laneSerWindow tl lane errs ppm) s (fun t => OnlyChanges [.twin] s t
          ∧ ((linkAt t.ctl tl).lanes[lane.val]?).map (fun y => y.overRow) = some 0))
        ∧ (s.ctl.twin.serLimit < ppm → x.overRow = 2 → x.failed = false → s.ctl.twin.holding = false →
          let left := ((List.range 4).filter (fun i => physLane l i ≠ lane.val ∧ laneBad l (physLane l i) = false)).length
          (2 ≤ left → Runs (.laneSerWindow tl lane errs ppm) s (fun t => OnlyChanges [.twin, .fcu, .out] s t ∧ (linkAt t.ctl tl).state = .retrain
            ∧ ((linkAt t.ctl tl).lanes[lane.val]?).map (fun y => y.failed) = some true ∧ Raised t.ctl (srcLink tl 1)))
          ∧ (left < 2 → Runs (.laneSerWindow tl lane errs ppm) s (fun t => OnlyChanges [.twin, .pair, .tenants, .releases, .fcu, .out] s t
            ∧ (linkAt t.ctl tl).state = .lost ∧ (linkAt t.ctl tl).downCause = 8 ∧ Raised t.ctl (srcLink tl 0) ∧ Raised t.ctl (srcLink tl 1)))))
    ∧ (l.state = .active → s.ctl.twin.holding = false → lossOpen s.ctl = true → (∃ k < 4, k ≠ tl.val ∧ (linkAt s.ctl k).state = .active ∧ (linkAt s.ctl k).departed = false) →
        (∀ cause e, BitVec.toNat e = s.ctl.pair.epoch → Runs (.depart tl cause e) s (fun t => OnlyChanges [.twin, .pair, .fcu] s t
          ∧ t.ctl.twin.departing = true ∧ (linkAt t.ctl tl).departed = true ∧ t.ctl.pair.sepCause = 2 ∧ Raised t.ctl (srcLink tl 11)))
        ∧ (∀ src kind e, BitVec.toNat e = s.ctl.pair.epoch → Runs (.pfault tl e src kind) s (fun t => OnlyChanges [.twin, .pair, .fcu] s t
          ∧ t.ctl.twin.departing = true ∧ (linkAt t.ctl tl).departed = true ∧ t.ctl.pair.sepCause = 3 ∧ Raised t.ctl (srcLink tl 11)))
        ∧ (∀ cause e, BitVec.toNat e ≠ s.ctl.pair.epoch → Runs (.depart tl cause e) s (fun t => OnlyChanges [.twin] s t
          ∧ t.ctl.twin.departing = s.ctl.twin.departing)))
    ∧ (s.ctl.twin.holding = true → Runs .departHoldExpiry s (fun t => OnlyChanges [.twin, .pair, .tenants, .releases, .fcu, .clk, .out] s t ∧ t.ctl.twin.holding = false
        ∧ t.ctl.twin.sent = [] ∧ t.ctl.twin.steered = [] ∧ ∀ k < 4, (linkAt t.ctl k).state = .disabled))
    ∧ ((srcAt s.ctl 0x21F).condition = false → Runs .twinRefclkLoss s (fun t => OnlyChanges [.clk, .fcu] s t ∧ t.ctl.clk.ref156 = false
        ∧ Raised t.ctl 0x21F))
    ∧ (∀ vc : Fin 4, l.state = .active → (∃ m ∈ l.txq, msgVc m = vc.val ∧ hasCredit l m = false) →
        Runs (.creditStarve tl vc) s (fun t => OnlyChanges [.fcu] s t ∧ Raised t.ctl (srcLink tl 12)))

/-- R176 to R180, R184, R197, R198: DATA flits and replay. A flit with a bad CRC, an uncorrectable codeword or another FSEQ is discarded
and RETRY_REQ leaves; a good one is taken in order, its FACK frees the replay buffer and its messages are processed, and CTRL IDLE carries the FACK
back when no DATA flit does; a RETRY_REQ sends every flit from its FSEQ again; after eight RETRY_REQ without progress the link retrains.
Choices of the model: log entries 30 and 78. -/
def Obligations.FlitsAndReplay : Prop :=
  ∀ (tl : Fin 4) (s : State), aonOn s.ctl = true → (linkAt s.ctl tl).state = .active → s.ctl.twin.holding = false →
    let l := linkAt s.ctl tl
    let asks (i : Instr) (ps : List Part) := Runs i s (fun t => OnlyChanges ps s t ∧ (linkAt t.ctl tl).nextExp = l.nextExp
      ∧ (linkAt t.ctl tl).awaiting = true ∧ (linkAt t.ctl tl).retryReqs = l.retryReqs + 1 ∧ (linkAt t.ctl tl).rxCont = l.rxCont
      ∧ t.ctl.out = .ctrl tl (.retryReq (facked l) l.nextExp) :: s.ctl.out)
    let field (w : Word) (o n : Nat) : Nat := (w.extractLsb' o n).toNat
    let inOrder (hdr : Word) := field hdr 60 4 = 0 ∧ field hdr 48 12 = l.nextExp ∧ field hdr 31 5 = 0 ∧ l.contSlots = 0 ∧ l.rxCont = []
      ∧ (l.awaiting = true → hdr.getLsbD 6 = true)
    (∀ hdr slots crc cor unc, (0 < unc ∨ slots.length ≠ 31 ∨ flitCrc hdr slots ≠ BitVec.toNat crc) → l.awaiting = false → l.retryReqs < 8 →
        asks (.dataFlit tl hdr slots crc cor unc) [.twin, .fcu, .out])
    ∧ (∀ hdr slots crc cor, flitCrc hdr slots = BitVec.toNat crc → slots.length = 31 → field hdr 60 4 = 0 → field hdr 48 12 ≠ l.nextExp →
        l.awaiting = false → l.retryReqs < 8 → asks (.dataFlit tl hdr slots crc cor 0) [.twin, .out])
    ∧ (∀ hdr crc cor, flitCrc hdr (List.replicate 31 0) = BitVec.toNat crc → inOrder hdr → l.txq = [] →
        (∀ x ∈ l.replayBuf, x.fseq ≠ field hdr 36 12) →
        Runs (.dataFlit tl hdr (List.replicate 31 0) crc cor 0) s (fun t => OnlyChanges [.twin, .out] s t
          ∧ t.ctl.out = .ctrl tl (.idle (facked (linkAt t.ctl tl))) :: s.ctl.out
          ∧ (linkAt t.ctl tl).nextExp = (l.nextExp + 1) % 4096 ∧ (linkAt t.ctl tl).awaiting = false ∧ (linkAt t.ctl tl).retryReqs = 0
          ∧ (linkAt t.ctl tl).replayBuf = l.replayBuf))
    ∧ (∀ hdr (h d0 d1 d2 d3 : Slot) crc cor ini (a : Nat),
        let tag : Tag := { orig := (h.extractLsb' 70 2).toNat, seq := (h.extractLsb' 40 30).toNat }
        let v : Line := d3 ++ d2 ++ d1 ++ d0
        let slots := [h, d0, d1, d2, d3] ++ List.replicate 26 0
        flitCrc hdr slots = BitVec.toNat crc → inOrder hdr → h.extractLsb' 0 8 = 0x10#8 → h.extractLsb' 8 5 = 4#5 → h.getLsbD 16 = false →
        (h.extractLsb' 72 46).toNat = a → a % 64 = 0 → (h.extractLsb' 118 8).toNat = ini → (h.extractLsb' 24 16).toNat = (hallAt s.ctl (hallOf a)).gen →
        LinkTakes s.ctl tl (.mirWr64 false 0 tag a ini v) → NextIn s.ctl .mir tag → galOf s.ctl a < 8 → galFenced s.ctl (galOf s.ctl a) = false →
        placeWaits s.ctl a ini s.ctl.nextReq = false → s.dev.mem.wf = true →
        Runs (.dataFlit tl hdr slots crc cor 0) s (fun t => OnlyChanges [.twin, .gals, .free, .out, .dram, .poison] s t
          ∧ (linkAt t.ctl tl).nextExp = (l.nextExp + 1) % 4096 ∧ lineData t.dev.mem a = v ∧ linePoison t.dev.mem a = false
          ∧ isDirty t.ctl a = true))
    ∧ (∀ fack pre x post, l.replayBuf = pre ++ x :: post → x.fseq = BitVec.toNat fack → (∀ y ∈ pre, y.fseq ≠ fack.toNat) → l.txq = [] →
        Runs (.ctrlIdle tl fack) s (fun t => OnlyChanges [.twin] s t ∧ (linkAt t.ctl tl).replayBuf = post))
    ∧ (∀ (fack expected : BitVec 12) pre x post, l.replayBuf = pre ++ x :: post → x.fseq = expected.toNat → (∀ y ∈ pre, y.fseq ≠ expected.toNat) →
        (∀ y ∈ l.replayBuf, y.fseq ≠ fack.toNat) → l.txq = [] → winSum (winAdd l.replayWin (now s.ctl) (post.length + 1) 65) ≤ 1000 →
        Runs (.retryReq tl fack expected) s (fun t => OnlyChanges [.twin, .out] s t ∧ (linkAt t.ctl tl).replayBuf = l.replayBuf
          ∧ (linkAt t.ctl tl).replays = satAdd l.replays (post.length + 1) 0xFFFFFFFF
          ∧ t.ctl.out = ((x :: post).map (fun y => Out.fehel tl y.fseq y.fack true y.credits y.msg)).reverse ++ s.ctl.out))
    ∧ (l.awaiting = true → l.retryReqs < 8 → asks (.retryReqRepeat tl) [.twin, .out])
    ∧ (l.awaiting = true → 8 ≤ l.retryReqs → Runs (.retryReqRepeat tl) s (fun t => OnlyChanges [.twin, .fcu, .out] s t
        ∧ (linkAt t.ctl tl).state = .retrain ∧ Raised t.ctl (srcLink tl 5)))
    ∧ (l.awaiting = false → exec (.retryReqRepeat tl) s = .next s)
    ∧ (LinkTakes s.ctl tl .nop → Runs (.fehelNop tl) s (fun t => OnlyChanges [.twin] s t
        ∧ ∃ r, linkAt t.ctl tl = { l with rxSlots := r }))

/-- R45, R187 to R190, R194: streams, acknowledgement and barriers. A message with the SEQ that is due is processed, an older one is
answered again, a later one is a protocol error; one of another HGEN is refused with STALE and changes nothing; an ACK covers its stream
and completes the write that waited for it; what comes behind a barrier waits until the barrier has come on every link of its MASK. -/
def Obligations.StreamsAndBarriers : Prop :=
  ∀ (tl : Fin 4) (p : Bool) (gen : BitVec 16) (tag : Tag) (a : BitVec 46) (ini : Byte) (data : Line) (s : State), aonOn s.ctl = true →
    LinkTakes s.ctl tl (.mirWr64 p gen.toNat tag a.toNat ini.toNat data) →
    let write : Instr := .mirWr64 tl p gen tag a ini data
    let due := tgetD s.ctl.twin.expSeq (streamKey tag.orig .mir) 0
    let h := hallAt s.ctl (hallOf a.toNat)
    let quiet := s.ctl.pair.rejoin = .none ∧ s.ctl.pair.xfers = [] ∧ ∀ g < 8, galIncomplete s.ctl g = false
    (tag.seq ≠ due → (due + 2 ^ 30 - tag.seq) % 2 ^ 30 < 2 ^ 29 → Runs write s (fun t => OnlyChanges [.twin, .out] s t
      ∧ Leaves t.ctl tl (.ack .mir { orig := tag.orig, seq := (mirDone s.ctl tag.orig + 2 ^ 30 - 1) % 2 ^ 30 } (ackDelay s.ctl) (atCeiling s.ctl))))
    ∧ (tag.seq ≠ due → ¬(due + 2 ^ 30 - tag.seq) % 2 ^ 30 < 2 ^ 29 → Runs write s (fun t => OnlyChanges [.twin, .fcu] s t
        ∧ Raised t.ctl (srcLink tl 7)))
    ∧ (tag.seq = due → gen.toNat ≠ h.gen → Runs write s (fun t => OnlyChanges [.twin, .out] s t
        ∧ Leaves t.ctl tl (.stale .mir h.home h.gen tag a.toNat ini.toNat)
        ∧ (s.ctl.twin.ackHeld = [] → Leaves t.ctl tl (.ack .mir tag (ackDelay s.ctl) (atCeiling s.ctl)))))
    ∧ (∀ r x hd hl ht delay stall, Idle { s.ctl with reqs := [] } → s.ctl.reqs = [r] → s.ctl.twin.sent = [x] → x.space = .mir → x.tag = tag →
        x.cont = .write r.id → r.src = .host hd hl ht → r.placed = true → r.wait = .ack → r.delay = false → quiet →
        s.ctl.twin.prxWait = [] → Runs (.ack tl .mir tag delay stall) s (fun t => OnlyChanges [.twin, .pair, .heads, .fcu, .reqs, .poisonOver, .out] s t
          ∧ t.ctl.twin.sent = [] ∧ t.ctl.reqs = [] ∧ ∃ load, Out.cxlCmp hd hl ht load ∈ t.ctl.out))
    ∧ (∀ delay stall, Idle s.ctl → s.ctl.twin.sent = [] → quiet →
        Runs (.ack tl .mir tag delay stall) s (fun t => OnlyChanges [.twin, .pair, .heads, .fcu, .poisonOver, .out] s t
          ∧ ∀ q, s.ctl.pair.partner = some q → t.ctl.pair.partner = some { q with delayNs := delay.toNat, stall := stall }))
    ∧ (∀ hh x, Idle s.ctl → s.ctl.twin.sent = [x] → x.space = .mir → x.tag = tag → x.cont = .none → s.ctl.twin.prxWait = [] →
        Runs (.stale tl .mir hh gen tag a ini) s (fun t => OnlyChanges [.twin, .heads, .fcu, .poisonOver] s t ∧ t.ctl.twin.sent = []))
    ∧ (∀ (j : Fin 4) (mask : BitVec 4) (e : Byte), j ≠ tl → maskList 4 mask.toNat = (List.range 4).filter (fun k => k = tl.val ∨ k = j.val) →
        ((linkAt s.ctl j).state = .active ∨ (linkAt s.ctl j).state = .retrain) →
        let arrives (i : Instr) (vc : Nat) := (linkAt s.ctl tl).rxDue.getD vc 0 + 1 ≤ rxSize vc → Runs i s (fun t => OnlyChanges [.twin] s t
          ∧ t.ctl.twin.barriers = [{ vc := vc, epoch := e.toNat, missing := [j.val], arrived := [tl.val] }])
        arrives (.barrierMir tl mask e) 0 ∧ arrives (.barrierReq tl mask e) 1 ∧ arrives (.barrierBlk tl mask e) 3)
    ∧ (∀ e j, Runs write (s.withCtl { s.ctl with twin := { s.ctl.twin with barriers := [{ vc := 0, epoch := e, missing := [j], arrived := [tl.val] }] } })
        (fun t => OnlyChanges [.twin] s t ∧ t.ctl.twin.held = [{ link := tl, since := s.ctl.nextReq, stall := false, msg := .mirWr64 p gen.toNat tag a.toNat ini.toNat data }]))
    ∧ (∀ e : Byte, (linkAt s.ctl tl).rxDue.getD 0 0 + 1 ≤ rxSize 0 →
        Runs (.barrierMir tl 0 e) (s.withCtl { s.ctl with twin := { s.ctl.twin with barriers := [{ vc := 0, epoch := e.toNat, missing := [tl.val], arrived := [] }] } })
          (fun t => OnlyChanges [.twin] s t ∧ t.ctl.twin.barriers = [] ∧ t.ctl.twin.held = []))

/-- R45, R50, R161, R188, R346, R347: what arrives to be mirrored. A mirror write of the hall's generation is placed in DRAM, its riser
marked dirty, and acknowledged; one that must wait is held; the halls of a fenced gallery are acknowledged without being placed. Journal
chunks build the partner's flight, JRN_END commits it here under this device's COMMIT_SEQ once the journal is whole, JRN_DONE frees it. R76, R78: a
write to a clean riser is acknowledged after the throttle delay. Choices of the model: log entries 15, 37 and 109. -/
def Obligations.MirrorWritesAndJournals : Prop :=
  ∀ (tl : Fin 4) (p : Bool) (p4 : BitVec 4) (gen : BitVec 16) (tag : Tag) (a : BitVec 46) (ini : Byte) (data : Line) (riser : Riser) (s : State),
    aonOn s.ctl = true → LinkTakes s.ctl tl (.mirWr256 p4 gen.toNat tag a.toNat ini.toNat riser) → NextIn s.ctl .mir tag →
    s.ctl.twin.ackHeld = [] →
    let h := hallAt s.ctl (hallOf a.toNat)
    let g := galOf s.ctl a.toNat
    let ack (t : State) := Leaves t.ctl tl (.ack .mir tag (ackDelay t.ctl) (atCeiling t.ctl))
    let outside (t : State) (lo n : Nat) := ∀ x, x < lo ∨ lo + n ≤ x → State.byte t x = State.byte s x
    let parts : List Part := [.twin, .gals, .free, .out, .dram, .poison]
    (gen.toNat = h.gen → galFenced s.ctl g = false → g < 8 → placeWaits s.ctl a.toNat ini.toNat s.ctl.nextReq = false → s.dev.mem.wf = true →
      isDirty s.ctl a.toNat = true ∨ throttleNs s.ctl = 0 →
      Runs (.mirWr64 tl p gen tag a ini data) s (fun t => OnlyChanges parts s t ∧ ack t
        ∧ lineData t.dev.mem a.toNat = data ∧ linePoison t.dev.mem a.toNat = p ∧ outside t (a.toNat / 64 * 64) 64 ∧ isDirty t.ctl a.toNat = true)
      ∧ Runs (.mirWr256 tl p4 gen tag a ini riser) s (fun t => OnlyChanges parts s t ∧ ack t
        ∧ dramRiser t.dev.mem (riserNo a.toNat) = riser ∧ riserPoison t.dev.mem (riserNo a.toNat) = p4 ∧ outside t (a.toNat / 256 * 256) 256
        ∧ isDirty t.ctl a.toNat = true))
    ∧ (gen.toNat = h.gen → galFenced s.ctl g = false → g < 8 → placeWaits s.ctl a.toNat ini.toNat s.ctl.nextReq = false → s.dev.mem.wf = true →
      isDirty s.ctl a.toNat = false → 0 < throttleNs s.ctl → Runs (.mirWr64 tl p gen tag a ini data) s (fun t => OnlyChanges [.twin, .gals, .free, .dram, .poison] s t
        ∧ lineData t.dev.mem a.toNat = data ∧ isDirty t.ctl a.toNat = true ∧ t.ctl.twin.ackHeld = [(tl.val, tag, true)]))
    ∧ (gen.toNat = h.gen → galFenced s.ctl g = false → placeWaits s.ctl a.toNat ini.toNat s.ctl.nextReq = true →
        Runs (.mirWr64 tl p gen tag a ini data) s (fun t => OnlyChanges [.twin, .svr] s t
          ∧ t.ctl.twin.held = [{ link := tl, since := s.ctl.nextReq, stall := roomWaits s.ctl a.toNat s.ctl.nextReq, msg := .mirWr64 p gen.toNat tag a.toNat ini.toNat data }]
          ∧ t.ctl.twin.expSeq = s.ctl.twin.expSeq))
    ∧ (gen.toNat = h.gen → galFenced s.ctl g = true →
        Runs (.mirWr64 tl p gen tag a ini data) s (fun t => OnlyChanges [.twin, .out] s t ∧ ack t))
    ∧ (∀ (fgen : BitVec 16) (joff : BitVec 24) (slot : Byte) bytes, flightAt s.ctl false slot.toNat = none → bytes.length % 16 = 0 → bytes.length ≤ 256 →
        Runs (.jrnWr tl fgen tag joff slot ini bytes) s (fun t => OnlyChanges [.twin, .flights, .out] s t ∧ ack t
          ∧ ∃ f, t.ctl.flights = s.ctl.flights ++ [f] ∧ f.own = false ∧ f.slot = slot.toNat ∧ f.fgen = fgen.toNat ∧ f.held = false
            ∧ f.journal = List.replicate (16 * joff.toNat) 0 ++ bytes))
    ∧ (∀ (jlen : BitVec 24) (slot : Byte) (segs : BitVec 10) f, s.ctl.flights = [f] → f.own = false → f.slot = slot.toNat → f.held = false →
        f.fgen < 65536 → 16 * jlen.toNat ≤ f.journal.length → Runs (.jrnEnd tl (BitVec.ofNat 16 f.fgen) tag jlen slot segs) s (fun t =>
          OnlyChanges [.twin, .flights, .commitSeq, .out] s t ∧ ack t ∧ t.ctl.commitSeq = s.ctl.commitSeq + 1
          ∧ t.ctl.flights = [{ f with st := .committed, commitSeq := s.ctl.commitSeq, segs := parseJournal f.journal segs.toNat }]))
    ∧ (∀ (fgen : BitVec 16) (slot : Byte) f, Idle { s.ctl with flights := [] } → s.ctl.flights = [f] → f.own = false → f.slot = slot.toNat →
        Runs (.jrnDone tl fgen tag slot) s (fun t => OnlyChanges [.twin, .flights, .heads, .budget, .poisonOver, .out] s t ∧ ack t ∧ t.ctl.flights = []))

/-- R42, R45, R98, R208, R212 to R215: accesses to a private hall in SERVICE.PAIRED. The home places a write and mirrors it, and completes
it only when the mirror is acknowledged; the other device proxies writes and reads its own copy; an answer completes what waited for it.
Choices of the model: log entries 15 and 30. -/
def Obligations.PairedAccess : Prop :=
  ∀ (h : Fin 16) (l : Fin 4) (ht : BitVec 16) (dpa : BitVec 52) (data : Line) (mask : Mask) (p : Bool) (tl : Fin 4) (tag : Tag) (gen : BitVec 16)
    (addr : BitVec 46) (ini : Byte) (s : State), aonOn s.ctl = true →
    let a := addr.toNat / 64 * 64
    let x := hallAt s.ctl (hallOf a)
    let local_ := Idle s.ctl ∧ PairPlain s.ctl a ∧ isMeta a = false ∧ x.mode = .priv ∧ s.dev.mem.wf = true
    let asked := local_ ∧ memArrives s.ctl h l = true ∧ bitOf (headAt s.ctl h).memActive l = true ∧ decodeKind s.ctl (4 * h + l) dpa.toNat = 0
      ∧ dpaOff dpa.toNat / 64 * 64 = a
    let came := local_ ∧ LinkTakes s.ctl tl (.prxWrPtl p gen.toNat tag a ini.toNat mask data) ∧ NextIn s.ctl .req tag ∧ tl.val ∈ s.ctl.twin.steered
      ∧ gen.toNat = x.gen ∧ x.home = true
    let written (t : State) (on : Nat → Bool) := (∀ i < 64, State.byte t (a + i) = if on i then lineByte data i else State.byte s (a + i))
      ∧ (∀ y, y < a ∨ a + 64 ≤ y → State.byte t y = State.byte s y) ∧ isDirty t.ctl a = true
    let mirrors (t : State) (src : Source) (i : Nat) := (∃ r, t.ctl.reqs = [r] ∧ r.id = s.ctl.nextReq ∧ r.src = src ∧ r.placed = true ∧ r.wait = .ack)
      ∧ Sends t.ctl (.write s.ctl.nextReq) (fun m => ∃ tg, m = .mirWr64 (linePoison t.dev.mem a) x.gen tg a i (lineData t.dev.mem a))
    let answer (r : Req) (op : ReqOp) := Idle { s.ctl with reqs := [] } ∧ s.ctl.reqs = [r] ∧ r.src = .host h l ht.toNat ∧ r.op = op
      ∧ s.ctl.twin.prxWait = [] ∧ ∃ y, s.ctl.twin.sent = [y] ∧ y.space = .req ∧ y.tag = tag ∧ y.cont = .proxy r.id
    (asked → x.home = true → Runs (.memWr h l ht dpa data p) s (fun t =>
      OnlyChanges [.heads, .gals, .nextReq, .free, .poisonOver, .reqs, .twin, .fcu, .out, .dram, .poison] s t ∧ written t (fun _ => true) ∧ linePoison t.dev.mem a = p
      ∧ mirrors t (.host h l ht.toNat) (4 * h + l) ∧ ∀ load, Out.cxlCmp h l ht.toNat load ∈ t.ctl.out → Out.cxlCmp h l ht.toNat load ∈ s.ctl.out))
    ∧ (asked → x.home = false → Runs (.memWr h l ht dpa data p) s (fun t => OnlyChanges [.heads, .nextReq, .poisonOver, .reqs, .twin, .fcu, .out] s t
        ∧ (∃ r, t.ctl.reqs = [r] ∧ r.wait = .partner)
        ∧ Sends t.ctl (.proxy s.ctl.nextReq) (fun m => ∃ tg, m = .prxWr64 p x.gen tg a (4 * h + l) data)
        ∧ ∀ load, Out.cxlCmp h l ht.toNat load ∈ t.ctl.out → Out.cxlCmp h l ht.toNat load ∈ s.ctl.out))
    ∧ (∀ snp, asked → linePoison s.dev.mem a = false → Runs (.memRd h l ht dpa snp .clean) s (fun t =>
        OnlyChanges [.heads, .gals, .nextReq, .free, .poisonOver, .out] s t
        ∧ ∃ load, t.ctl.out = .cxlData h l ht.toNat (lineData s.dev.mem a) false .noOp load :: s.ctl.out))
    ∧ (∀ snp, came → Runs (.prxRd tl snp false gen tag addr ini .clean) s (fun t => OnlyChanges [.heads, .gals, .nextReq, .free, .poisonOver, .twin, .out] s t
        ∧ Leaves t.ctl tl (.prxRdData (if linePoison s.dev.mem a then 1 else 0) 0 tag (lineData s.dev.mem a))))
    ∧ (came → Runs (.prxWr64 tl p gen tag addr ini data) s (fun t => OnlyChanges [.heads, .gals, .nextReq, .free, .poisonOver, .reqs, .twin, .out, .dram, .poison] s t
        ∧ written t (fun _ => true) ∧ linePoison t.dev.mem a = p ∧ mirrors t (.proxy tl tag ini.toNat false) ini.toNat
        ∧ t.ctl.twin.answered = s.ctl.twin.answered))
    ∧ (came → Runs (.prxWrptl tl p gen tag addr ini mask data) s (fun t => OnlyChanges [.heads, .gals, .nextReq, .free, .poisonOver, .reqs, .twin, .out, .dram, .poison] s t
        ∧ written t (fun i => mask.toNat.testBit i) ∧ mirrors t (.proxy tl tag ini.toNat false) ini.toNat
        ∧ t.ctl.twin.answered = s.ctl.twin.answered))
    ∧ (came → Runs (.prxCln tl gen tag addr ini) s (fun t => OnlyChanges [.heads, .gals, .nextReq, .poisonOver, .twin, .out] s t
        ∧ Leaves t.ctl tl (.prxCmp 0 tag)))
    ∧ (∀ r op, answer r op → LinkTakes s.ctl tl (.prxRdData 0 0 tag data) →
        (∀ snp, op = .read snp → Runs (.prxRdData tl 0 0 tag data) s (fun t => OnlyChanges [.twin, .heads, .reqs, .fcu, .poisonOver, .out] s t ∧ t.ctl.reqs = []
            ∧ ∃ load, Out.cxlData h l ht.toNat data false .noOp load ∈ t.ctl.out)
          ∧ Runs (.prxRdData tl 1 0 tag data) s (fun t => OnlyChanges [.twin, .heads, .reqs, .fcu, .poisonOver, .out] s t ∧ t.ctl.reqs = []
            ∧ Raised t.ctl (srcHead h 11) ∧ ∃ load, Out.cxlData h l ht.toNat data true .noOp load ∈ t.ctl.out))
        ∧ (op = .write → Runs (.prxCmp tl 0 tag) s (fun t => OnlyChanges [.twin, .heads, .reqs, .fcu, .poisonOver, .out] s t ∧ t.ctl.reqs = []
            ∧ ∃ load, Out.cxlCmp h l ht.toNat load ∈ t.ctl.out)))
    ∧ (∀ snp : Fin 4, Idle s.ctl → LinkTakes s.ctl tl (.biFwd snp 0 tag addr.toNat 0) → NextIn s.ctl .req tag → tl.val ∈ s.ctl.twin.steered →
        gen.toNat = (hallAt s.ctl (hallOf addr.toNat)).gen → ini.toNat = 4 * h + l →
        (biReach s.ctl { here := true, ld := ini.toNat } = true → Runs (.biFwd tl snp gen tag addr ini) s (fun t => OnlyChanges [.snoops, .twin, .out] s t
          ∧ ∃ y, t.ctl.snoops = [y] ∧ y.fwd = some (tag.orig, tag.seq) ∧ y.sent = true ∧ biCode y.kind = snp
            ∧ t.ctl.out = .snoop (ini.toNat / 4) (ini.toNat % 4) y.kind (lineNo addr.toNat) :: s.ctl.out))
        ∧ (biReach s.ctl { here := true, ld := ini.toNat } = false → Runs (.biFwd tl snp gen tag addr ini) s (fun t => OnlyChanges [.twin, .out] s t
          ∧ Leaves t.ctl tl (.biRsp 0 tag addr.toNat none false))))
    ∧ (∀ (resp : Fin 3) (ld line : Nat), Idle { s.ctl with snoops := [] } → LinkTakes s.ctl tl (.biRsp resp tag addr.toNat none false) → s.ctl.twin.prxWait = [] →
        s.ctl.snoops = [{ kind := .inv, holder := { here := false, ld := ld }, line := line, req := 0, fwd := none, sent := true, sweep := false }] →
        (∃ y, s.ctl.twin.sent = [y] ∧ y.space = .req ∧ y.tag = tag ∧ y.cont = .snoop 0 ld line) →
        Runs (.biRsp tl resp tag addr none false) s (fun t => OnlyChanges [.twin, .heads, .gals, .snoops, .fcu, .poisonOver, .out] s t ∧ t.ctl.snoops = []
          ∧ t.ctl.twin.sent = []))

/-- R94 to R96, R104, R127, R161, R183, R229, R235: role requests from the partner. Each takes its effect on the hall map, the fences or
the rejoin and is answered with its status.
Choices of the model: log entry 28. -/
def Obligations.RoleRequests : Prop :=
  ∀ (tl : Fin 4) (tag : Tag) (hall : BitVec 16) (s : State), aonOn s.ctl = true → Idle s.ctl → s.ctl.rings = [] → tl.val ∈ s.ctl.twin.steered →
    LinkTakes s.ctl tl (.role tag (.mapChunk 0 [])) → NextIn s.ctl .req tag →
    let x := hallAt s.ctl hall.toNat
    let answered (i : Instr) (ps : List Part) (sub st : Nat) (P : State → Prop) := Runs i s (fun t => OnlyChanges ([.twin, .out] ++ ps) s t
      ∧ Leaves t.ctl tl (.roleRsp sub st tag none) ∧ P t)
    let mine (side : Fin 2) : Bool := side.val == s.ctl.twin.side
    (∀ (sh : Bool) (d : Fin 64) (side : Fin 2) (slot : Fin 64) (et : BitVec 128),
      let held := x.sharers.any (fun y => y.here == mine side && y.ld == d.val)
      let add := Instr.hallAdd tl tag hall sh d side slot et
      let crossed := s.ctl.twin.side = 0 ∧ ∃ y ∈ s.ctl.twin.sent, ∃ i n, y.cont = .hallOp true i hall.toNat n
      let known := hall.toNat < hallCount s.ctl ∧ (if mine side then ldPresented s.ctl d = true else pairedNow s.ctl = true)
      (held = true → answered add [] 2 0 (fun _ => True))
      ∧ (held = false → crossed → answered add [] 2 2 (fun _ => True))
      ∧ (held = false → ¬crossed → x.sanitize = true ∨ ¬known ∨ (x.mode ≠ .unassigned ∧ (x.mode = .priv ∨ sh = false ∨ x.tag ≠ et.toNat ∨ 64 ≤ x.sharers.length)) →
          answered add [] 2 1 (fun _ => True))
      ∧ (held = false → ¬crossed → x.sanitize = false → known →
          x.mode = .unassigned ∨ (x.mode = .shared ∧ sh = true ∧ x.tag = et.toNat ∧ x.sharers.length < 64) → answered add [.halls, .gals, .lds, .fcu] 2 0 (fun t =>
          hallAt t.ctl hall.toNat = { x with mode := if sh then .shared else .priv, tag := et.toNat, count := x.count + 1,
                                             sharers := x.sharers ++ [{ slot := slot.val, here := mine side, ld := d.val }] }))
      ∧ (x.sharers = [{ slot := slot.val, here := mine side, ld := d.val }] → x.mode = .priv →
          answered (.hallRelease tl tag hall d side) [.halls, .gals, .lds, .heads, .pair, .fcu, .poisonOver] 3 0 (fun t =>
            (hallAt t.ctl hall.toNat).sharers = [] ∧ (hallAt t.ctl hall.toNat).mode = .unassigned)))
    ∧ (∀ (gen : BitVec 16) (side : Fin 2),
        (s.ctl.glb.mode = .paired → answered (.homeXfer tl tag hall gen side) [.halls, .gals, .lds, .heads, .fcu, .poisonOver] 4 0 (fun t =>
          (hallAt t.ctl hall.toNat).home = mine side ∧ (hallAt t.ctl hall.toNat).gen = gen.toNat
          ∧ (mine side = true → x.home = false → x.cold = false → (hallAt t.ctl hall.toNat).cold = decide (x.mode = .shared))))
        ∧ (s.ctl.glb.mode ≠ .paired → answered (.homeXfer tl tag hall gen side) [.heads, .poisonOver] 4 2 (fun _ => True)))
    ∧ (∀ d : Fin 64, answered (.ldFence tl tag d false) [.lds, .fcu] 8 0 (fun t => (ldAt t.ctl d).biFenced = true ∧ Raised t.ctl (srcHead (d / 4) 5))
        ∧ answered (.ldFence tl tag d true) [] 8 0 (fun _ => True))
    ∧ (∀ b, answered (.sanitizeMark tl tag hall b) [.halls, .gals] 9 0 (fun t =>
        hallAt t.ctl hall.toNat = { x with sanitize := b }))
    ∧ (∀ (g : Fin 8) q, s.ctl.pair.partner = some q → s.ctl.pair.rejoin = .none →
        answered (.galFence tl tag g true) [.pair, .lds, .heads, .fcu, .poisonOver] 0xA 0 (fun t => partnerFenced t.ctl g = true ∧ t.ctl.pair.changed.isSome = true)
        ∧ answered (.galFence tl tag g false) [.pair, .lds, .heads, .fcu, .poisonOver] 0xA 0 (fun t => partnerFenced t.ctl g = false))
    ∧ (∀ (first : BitVec 32) es, answered (.mapChunk tl tag first es) [.halls, .gals] 0xB 0 (fun t => ∀ i < 32, ∀ e, es[i]? = some e →
        first.toNat + i < hallCount s.ctl → (hallAt t.ctl (first.toNat + i)).mode = e.mode ∧ (hallAt t.ctl (first.toNat + i)).gen = e.gen
          ∧ (hallAt t.ctl (first.toNat + i)).home = (e.homeSide == s.ctl.twin.side) ∧ (hallAt t.ctl (first.toNat + i)).sanitize = e.sanitize
          ∧ (hallAt t.ctl (first.toNat + i)).count = e.sharers))
    ∧ (∀ (chunk : BitVec 32) (bits : BitVec 2048), answered (.staleMap tl tag chunk bits) [.pair] 0xC 0 (fun t =>
        ∀ i < 2048, bits.getLsbD i = true → s.ctl.pair.stale.all = false ∨ isMeta (4096 * (chunk.toNat * 2048 + i)) = false → stale t.ctl (chunk.toNat * 2048 + i) = true))
    ∧ (∀ n, answered (.staleMapEnd tl tag n true) [.pair, .glb] 0xD 0 (fun t => ∀ k, isMeta (4096 * k) = false → stale t.ctl k = true)
        ∧ answered (.staleMapEnd tl tag n false) [.glb] 0xD 0 (fun _ => True))
    ∧ (s.ctl.pair.diverged = false → answered (.diverged tl tag) [.pair, .fcu] 7 0 (fun t => t.ctl.pair.diverged = true ∧ Raised t.ctl 0x20F))
    ∧ (s.ctl.pair.rejoin = .awaiting → Runs (.resyncBegin tl tag) s (fun t => OnlyChanges [.twin, .pair, .out] s t
        ∧ t.ctl.pair.rejoin = .sendingMap 0 tag tl ∧ Sends t.ctl .resync (fun m => ∃ tg es, m = .role tg (.mapChunk 0 es))))
    ∧ (s.ctl.pair.rejoin ≠ .awaiting → answered (.resyncBegin tl tag) [] 6 2 (fun _ => True))

/-- R217 to R220, R32, R378: the outcome of pairing. Two devices without a save start fresh as a pair with epoch 1; identities that do not
fit are refused and the device starts alone, as it does when no partner answers in time; two devices that both serve alone have diverged.
A start that is ready enters SERVICE once the bank carries the dirty set.
Choices of the model: log entry 39. -/
def Obligations.PairingOutcome : Prop :=
  ∀ (tl : Fin 4) (tag : Tag) (h : Hello) (s : State), aonOn s.ctl = true → s.ctl.svr.saves = [] → s.ctl.pair.paired = true →
    Idle s.ctl → s.ctl.pair.stale = TreadSet.empty →
    let mismatch := h.halls ≠ hallCount s.ctl ∨ h.dimmGib ≠ s.ctl.dimm.capGib ∨ h.side = s.ctl.twin.side ∨ h.pairId ≠ s.ctl.twin.pairId
      ∨ h.prefCrc ≠ s.ctl.pair.prefCrc
    let heard := s.ctl.pair.refused = false ∧ LinkTakes s.ctl tl (.role tag (.hello h)) ∧ NextIn s.ctl .req tag ∧ tl.val ∈ s.ctl.twin.steered
    let pairing := s.ctl.glb.mode = .start ∧ s.ctl.boot.phase = .pairing ∧ s.ctl.pair.partner = none
    let whole := (∀ g < 8, galFenced s.ctl g = false) ∧ ∀ ch < 32, (dchAt s.ctl ch).result < 8
    let enters (t : State) (m : Mode) (code : Nat) := t.pending = s.pending ∧ t.dev.mem = s.dev.mem ∧
      (if chargeOk s.ctl then t.ctl.glb.mode = m ∧ t.ctl.glb.ltCode = code ∧ t.ctl.boot.locked = true else t.ctl.glb.mode = .start ∧ t.ctl.boot.phase = .ready)
    (heard → pairing → whole → ¬mismatch → h.saveSeq = 0 → Runs (.hello tl tag h) s (fun t => enters t .paired 0x10 ∧ t.ctl.pair.outcome = 1
      ∧ t.ctl.pair.epoch = 1 ∧ t.ctl.pair.role = 2 ∧ Leaves t.ctl tl (.roleRsp 1 0 tag (some (ownHello s.ctl)))))
    ∧ (heard → pairing → whole → mismatch → Runs (.hello tl tag h) s (fun t => enters t .solo 0x11 ∧ t.ctl.pair.refused = true
        ∧ t.ctl.pair.role = 5 ∧ Raised t.ctl 0x21E))
    ∧ (∀ q, heard → ¬mismatch → s.ctl.glb.mode = .solo → s.ctl.pair.partner = some q → q.hello = none → q.state = 9 →
        Runs (.hello tl tag h) s (fun t => OnlyChanges [.pair, .twin, .fcu, .out] s t ∧ t.ctl.pair.outcome = 6 ∧ t.ctl.pair.role = 6
          ∧ t.ctl.pair.diverged = true ∧ Raised t.ctl 0x20F))
    ∧ (s.ctl.glb.mode = .start → s.ctl.boot.phase = .pairing → s.ctl.boot.pairWaitOver = false → s.ctl.pair.role ≤ 1 → whole →
        Runs .pairWaitExpiry s (fun t => enters t .solo 0x11 ∧ t.ctl.pair.role = 5 ∧ t.ctl.pair.sepCause = 5))
    ∧ (s.ctl.glb.mode = .start → s.ctl.boot.phase = .ready → s.ctl.pair.rejoin = .none →
        (chargeOk s.ctl = true → Runs .startComplete s (fun t =>
          if s.ctl.pair.role = 2 ∨ s.ctl.pair.role = 3 ∨ s.ctl.pair.role = 4 then enters t .paired 0x10 else enters t .solo 0x11))
        ∧ (chargeOk s.ctl = false → exec .startComplete s = .next s))

/-- R200, R210, R221 to R227: the loss of the partner in SERVICE.PAIRED. The device promotes itself at once: it is the home of every hall,
a hall taken over advances its generation and a shared one is directory-cold, the streams are discarded, the bitmap of changed treads
begins, and no content of DRAM is touched.
Choices of the model: log entry 32. -/
def Obligations.Promotion : Prop :=
  ∀ (tl : Fin 4) (tag : Tag) (s : State), aonOn s.ctl = true → s.ctl.glb.mode = .paired → Idle s.ctl → s.ctl.twin.sent = [] →
    s.ctl.hold.phase = .idle → s.ctl.pair.stale = TreadSet.empty → s.ctl.svr.pulls = [] →
    let promotes (i : Instr) (cause : Nat) := Runs i s (fun t =>
      OnlyChanges [.glb, .fcu, .twin, .pair, .halls, .gals, .lds, .heads, .free, .poisonOver, .out, .budget] s t
      ∧ t.ctl.glb.mode = .solo ∧ t.ctl.glb.ltCode = 0x20 ∧ Raised t.ctl 0x20E
      ∧ t.ctl.twin.steered = [] ∧ t.ctl.twin.sent = [] ∧ t.ctl.twin.held = []
      ∧ t.ctl.pair.partner = none ∧ t.ctl.pair.changed.isSome = true ∧ t.ctl.pair.sepCause = cause
      ∧ t.ctl.pair.promCount = (s.ctl.pair.promCount + 1) % 65536
      ∧ ∀ k x, tget s.ctl.halls k = some x → ∃ y, tget t.ctl.halls k = some y ∧ y.home = true ∧ y.mode = x.mode ∧ y.sharers = x.sharers
        ∧ y.gen = (if x.home then x.gen else (x.gen + 1) % 65536) ∧ (x.home = false → y.cold = decide (x.mode = .shared)))
    promotes .partnerLossTimeout 1
    ∧ (LinkTakes s.ctl tl (.role tag .promoted) → promotes (.promoted tl tag) 1)
    ∧ (s.ctl.twin.departing = true → s.ctl.twin.held = [] → promotes .departWaitExpiry s.ctl.pair.sepCause)
    ∧ (s.ctl.twin.departing = false → exec .departWaitExpiry s = .next s)

/-- R229 to R235, R239: resync and the return of homes. The authoritative device sends the sixteen risers of a set tread; the receiver
places a riser, marks it dirty and ends the tread's staleness with the last one; RSY_DONE ends the resync. A hall goes home by HOME_XFER
with an advanced generation, again after retry later. YIELD is accepted by a diverged device that serves alone, and saves.
Choices of the model: log entries 37 and 65. -/
def Obligations.ResyncAndHomes : Prop :=
  ∀ (tl : Fin 4) (tag : Tag) (a : BitVec 46) (data : Riser) (p : BitVec 4) (gen : BitVec 16) (s : State), aonOn s.ctl = true → Idle s.ctl →
    let r := riserNo a.toNat
    let n := treadNo a.toNat
    (LinkTakes s.ctl tl (.rsyData p false gen.toNat tag a.toNat data) → NextIn s.ctl .blk tag → gen.toNat = (hallAt s.ctl (hallOf a.toNat)).gen →
        galOf s.ctl a.toNat < 8 → galFenced s.ctl (galOf s.ctl a.toNat) = false → isDirty s.ctl a.toNat = true ∨ atCeiling s.ctl = false → s.dev.mem.wf = true →
        Runs (.rsyData tl p false gen tag a data) s (fun t => OnlyChanges [.twin, .gals, .free, .pair, .svr, .glb, .halls, .out, .dram, .poison] s t
          ∧ (metaUse s.ctl r = .other → t.ctl.halls = s.ctl.halls)
          ∧ dramRiser t.dev.mem r = data ∧ riserPoison t.dev.mem r = p ∧ isDirty t.ctl a.toNat = true
          ∧ Leaves t.ctl tl (.ack .blk tag (ackDelay t.ctl) (atCeiling t.ctl))
          ∧ ((∀ i < 16, 16 * n + i = r ∨ s.ctl.pair.staleGot.contains (16 * n + i) = true) → stale t.ctl n = false ∧ unrestored t.ctl n = false)
          ∧ ∀ x, x < 256 * r ∨ 256 * r + 256 ≤ x → State.byte t x = State.byte s x))
    ∧ (∀ m, LinkTakes s.ctl tl (.rsyDone false tag 0) → NextIn s.ctl .blk tag → Runs (.rsyDone tl false tag m) s (fun t =>
        OnlyChanges [.twin, .pair, .glb, .out] s t ∧ t.ctl.pair.rejoin = .none ∧ t.ctl.pair.role = 2 ∧ t.ctl.pair.stale = TreadSet.empty))
    ∧ (∀ k : BitVec 34, s.ctl.pair.rejoin = .sending → s.ctl.glb.mode = .paired → s.ctl.pair.changed = some { all := false, xs := [k.toNat] } →
        s.ctl.pair.rsyOut = [] → k.toNat < treadCount s.ctl → galFenced s.ctl (galOfTread s.ctl k.toNat) = false → partnerFenced s.ctl (galOfTread s.ctl k.toNat) = false → unrestored s.ctl k.toNat = false →
        ((s.ctl.pair.partner.map (fun q => q.stall)).getD false = false) → s.ctl.twin.steered ≠ [] →
        Runs (.resyncSendTread k) s (fun t => OnlyChanges [.twin, .pair, .gals, .free, .out] s t ∧ t.ctl.pair.rsyOut = [k.toNat]
          ∧ ∀ i < 16, Sends t.ctl (.rsy k.toNat) (fun m => ∃ tg, m = .rsyData (riserPoison s.dev.mem (16 * k.toNat + i)) false
            (hallAt s.ctl (k.toNat / 262144)).gen tg (256 * (16 * k.toNat + i)) (riserData s.dev (16 * k.toNat + i)))))
    ∧ (∀ (hall : BitVec 16) q, let k := hall.toNat
        s.ctl.glb.mode = .paired → s.ctl.twin.steered ≠ [] → (hallAt s.ctl k).home = true →
        (s.ctl.pair.homeReturn = true → s.ctl.glb.restoring = false → s.ctl.pair.partner = some q → q.restoring = false → q.state = 8 → k < hallCount s.ctl →
          prefSide s.ctl k ≠ s.ctl.twin.side → galFenced s.ctl (galOfHall s.ctl k) = false → partnerFenced s.ctl (galOfHall s.ctl k) = false →
          xferPaused s.ctl = false → s.ctl.pair.xfers = [] → s.ctl.pair.xferRetry = [] → s.ctl.twin.sent = [] →
          (∀ x ∈ s.ctl.halls, x.1 < k → galOfHall s.ctl x.1 = galOfHall s.ctl k → x.2.home = true → prefSide s.ctl x.1 = s.ctl.twin.side) →
          Runs (.homeReturnStart hall) s (fun t => OnlyChanges [.pair, .halls, .gals, .twin, .heads, .poisonOver, .out] s t ∧ t.ctl.pair.xfers = [k]
            ∧ (hallAt t.ctl k).gen = ((hallAt s.ctl k).gen + 1) % 65536
            ∧ Sends t.ctl (.xfer k) (fun m => ∃ tg, m = .role tg (.homeXfer k (((hallAt s.ctl k).gen + 1) % 65536) (1 - s.ctl.twin.side)))))
        ∧ (s.ctl.pair.xferRetry = [k] → xferPaused s.ctl = false → Runs (.homeXferRetry hall) s (fun t => OnlyChanges [.pair, .twin, .out] s t ∧ t.ctl.pair.xferRetry = []
            ∧ Sends t.ctl (.xfer k) (fun m => ∃ tg, m = .role tg (.homeXfer k (hallAt s.ctl k).gen (1 - s.ctl.twin.side)))))
        ∧ (∀ y sub, LinkTakes s.ctl tl (.roleRsp 4 0 tag none) → s.ctl.twin.prxWait = [] → s.ctl.twin.sent = [y] → y.space = .req → y.tag = tag → y.cont = .xfer k →
            s.ctl.pair.xfers = [k] → (∀ g < 8, galIncomplete s.ctl g = false) →
            Runs (.roleRsp tl sub 0 tag none) s (fun t => OnlyChanges [.twin, .pair, .halls, .gals, .lds, .glb, .heads, .fcu, .poisonOver, .out] s t
              ∧ t.ctl.twin.sent = [] ∧ t.ctl.pair.xfers = [] ∧ (hallAt t.ctl k).home = false ∧ (hallAt t.ctl k).gen = (hallAt s.ctl k).gen)))
    ∧ (∀ ini, MayWrite s ini → blkAnswers s.ctl .twnCommon 0 = true →
        (s.ctl.glb.mode = .solo → s.ctl.pair.role = 6 → Runs (.yieldImage ini) s (fun t => t.pending = s.pending ∧ t.dev.mem = s.dev.mem
          ∧ t.ctl.glb.mode = .save ∧ t.ctl.pair.yielding = true))
        ∧ (s.ctl.pair.role ≠ 6 → Runs (.yieldImage ini) s (fun t => OnlyChanges [.heads, .mgmt] s t)))

/-- R245 to R249, R252, R259, R276: a save from its cut-off to its record. The cut-off takes the next SAVE_SEQ and ASN_CUT, tells the partner
on every ACTIVE link, takes the heads down and lists every dirty riser whose DRAM copy is valid; each landing unit goes under the next unit
number, a failed one again under the next; the record ends the save in DOWN, VAULT.HOLD or a warm reset. DRAM keeps its contents throughout, but for the place of a warm token.
Choices of the model: log entries 14, 80, 94 and 95. -/
def Obligations.SaveToRecord : Prop :=
  ∀ (r : SaveRun) (ns ms : Nat) (s : State), aonOn s.ctl = true → s.ctl.glb.mode = .save → s.ctl.svr.run = some r →
    let kept (t : State) := t.pending = s.pending ∧ t.dev.mem = s.dev.mem
    (r.cut = false → Runs (.cutOff ns) s (fun t => kept t ∧ t.ctl.glb = s.ctl.glb ∧ t.ctl.svr.savePhase = 1 ∧ t.ctl.svr.cutoffNs = Nat.min ns 0xFFFF
      ∧ t.ctl.reqs = [] ∧ (∀ h < 16, (headAt t.ctl h).linkUp = false)
      ∧ t.ctl.twin.holding = true
      ∧ (∀ k < 4, (linkAt s.ctl k).state = .active → Leaves t.ctl k (if r.saved.cause = 0x10 then .pfault s.ctl.pair.epoch r.source r.kind
          else .depart (if r.saved.cause = 0x20 then 2 else if r.saved.cause = 0x21 then 3 else 1) s.ctl.pair.epoch))
      ∧ ∃ x, t.ctl.svr.run = some x ∧ x.cut = true ∧ x.saved.cause = r.saved.cause ∧ x.saved.seq = ringValue s.ctl 1 + 1
        ∧ x.saved.asnCut = t.ctl.vlt.nextAsn ∧ x.saved.incomplete = (List.range 8).filter (galFenced s.ctl)
        ∧ ∀ g < 8, ∀ q ∈ (galAt t.ctl g).dirty, unrestored t.ctl (q / 16) = false → stale t.ctl (q / 16) = false →
          ∃ j ∈ x.jobs, j.kind = 1 ∧ j.gal = g ∧ q ∈ j.risers))
    ∧ (r.cut = true → exec (.cutOff ns) s = .next s)
    ∧ (∀ j rest u, r.cut = true → r.jobs = j :: rest → unitNext s.ctl = some u → s.ctl.vlt.mount = 2 →
        Runs (.landingUnitProgrammed true []) s (fun t => OnlyChanges [.svr] s t ∧ t.ctl.svr.nextUnit = (u + 1) % landUnits s.ctl.vlt
          ∧ ∃ x, t.ctl.svr.run = some x ∧ x.jobs = rest ∧ x.saved.units = r.saved.units ++ [u]
            ∧ x.saved.data = r.saved.data ++ j.risers.map (fun q => { riser := q, data := riserData s.dev q, poison := riserPoison s.dev.mem q }))
        ∧ Runs (.landingUnitProgrammed false []) s (fun t => kept t ∧ t.ctl.svr.run = some r ∧ t.ctl.svr.nextUnit = (u + 1) % landUnits s.ctl.vlt
          ∧ Raised t.ctl (srcVch (unitBlock s.ctl.vlt u / 65536 % 16) 0)))
    ∧ (r.jobs ≠ [] → exec (.saveRecordProgrammed ms) s = .next s)
    ∧ (r.cut = true → r.jobs = [] →
        let stored (t : State) := t.pending = s.pending ∧ t.dev.mem.flash = s.dev.mem.flash ∧ t.dev.mem.poison = s.dev.mem.poison
          ∧ (s.dev.mem.wf = true → ∀ a, (∀ g < 8, a < tokenAddr g ∨ tokenAddr g + 80 ≤ a) → State.byte t a = State.byte s a)
        let committed (t : State) := t.ctl.svr.run = none ∧ ∃ x l, t.ctl.svr.saves = x :: l ∧ x.seq = r.saved.seq ∧ x.data = r.saved.data
          ∧ ((∀ l, lunFenced s.ctl l = false) → x.copyA = true ∧ x.copyB = true) ∧ x.warm = decide ((r.saved.cause = 0x20 ∨ r.saved.cause = 0x21) ∧ r.saved.incomplete = [])
        (r.downAfter = true → s.ctl.seq.prog.isSome = true → Runs (.saveRecordProgrammed ms) s (fun t => kept t ∧ committed t ∧ t.ctl.seq.running = .down
          ∧ t.ctl.seq.downCode = 0x38))
        ∧ (r.downAfter = false → s.ctl.seq.offPending = false → r.saved.cause = 0x20 ∨ r.saved.cause = 0x10 →
            Runs (.saveRecordProgrammed ms) s (fun t => stored t ∧ committed t ∧ t.ctl.glb.mode = .hold ∧ t.ctl.glb.ltCode = 0x39
              ∧ (r.saved.cause = 0x20 → r.saved.incomplete = [] → ∃ k, t.ctl.svr.token = some k ∧ k.seq = r.saved.seq)))
        ∧ (r.downAfter = false → s.ctl.seq.offPending = false → r.saved.cause = 0x21 →
            Runs (.saveRecordProgrammed ms) s (fun t => stored t ∧ t.ctl.glb.mode = .start ∧ t.ctl.glb.ltCode = 0x3A)))

/-- R150, R260, R262, R270 to R275, R281, R302, R320: the mount and the restore. The mount takes the newest valid record and an ASN above
every copy; a tread is restored when its sixteen risers hold their newest copies; what cannot be read, with no partner, reads as poison
and is reported.
Choices of the model: log entries 12 and 62. -/
def Obligations.MountAndRestore : Prop :=
  ∀ (s : State), aonOn s.ctl = true →
    (∀ p : MountProbe, s.ctl.glb.mode = .start → s.ctl.boot.stage = .stage2 → s.ctl.boot.phase = .mounting → mountPlan s.ctl p = .known → p.badLuns = [] →
        (∀ ch < 16, p.rates.getD ch 0 ≠ 0) → (∀ l, lunFenced s.ctl l = false) → p.ckptOk = true → Runs (.vaultMount p) s (fun t =>
          t.pending = s.pending ∧ t.dev.mem = s.dev.mem ∧ t.ctl.glb = s.ctl.glb ∧ t.ctl.vlt.mount = 2 ∧ t.ctl.vlt.failCause = 0
          ∧ t.ctl.boot.phase = .index ∧ t.ctl.svr.restorePhase = 2 ∧ t.ctl.vlt.targets = p.targets ∧ t.ctl.vlt.lunsPer = p.lunsPer
          ∧ (∀ x ∈ t.ctl.vlt.log, x.2.asn < t.ctl.vlt.nextAsn) ∧ (∀ x ∈ t.ctl.vlt.bases, x.2.asn < t.ctl.vlt.nextAsn)
          ∧ ∀ r, newestValid t.ctl = some r → r.asnCut ≤ t.ctl.vlt.nextAsn ∧ t.ctl.svr.lastSeq = r.seq ∧ t.ctl.svr.lastCause = r.cause))
    ∧ (∀ (tread : BitVec 34) us, let n := tread.toNat
        Idle s.ctl → s.ctl.twin.held = [] → lostIn s.ctl n = [] → unrestored s.ctl n = true → s.dev.mem.wf = true →
        let filled (t : State) := unrestored t.ctl n = false
          ∧ (∀ i < 16, dramRiser t.dev.mem (16 * n + i) = (newestCopy s.ctl (16 * n + i)).1 ∧ riserPoison t.dev.mem (16 * n + i) = (newestCopy s.ctl (16 * n + i)).2)
          ∧ ∀ a, a < 4096 * n ∨ 4096 * n + 4096 ≤ a → State.byte t a = State.byte s a
        (restoreNext s.ctl n = true → Runs (.restoreTreadDone tread []) s (fun t => OnlyChanges [.svr, .glb, .gals, .free, .alc, .fcu, .heads, .poisonOver, .dram, .poison] s t ∧ filled t))
        ∧ (serving s.ctl = true ∨ s.ctl.glb.mode = .start → s.ctl.svr.fetches.contains n = true → s.ctl.svr.pulls.contains n = false →
            Runs (.demandFetchDone tread us []) s (fun t => OnlyChanges [.svr, .glb, .gals, .free, .alc, .fcu, .heads, .poisonOver, .dram, .poison] s t ∧ filled t
              ∧ t.ctl.svr.dfCount = (s.ctl.svr.dfCount + 1) % 2 ^ 32))
        ∧ (∀ i : Fin 16, restoreNext s.ctl n = true → partnerSupplies s.ctl n = false → Runs (.restoreTreadDone tread [i]) s (fun t =>
            OnlyChanges [.svr, .glb, .gals, .free, .alc, .heads, .lds, .fcu, .out, .poisonOver, .dram, .poison] s t ∧ unrestored t.ctl n = false
            ∧ riserPoison t.dev.mem (16 * n + i) = 15 ∧ Raised t.ctl 0x2D3 ∧ t.ctl.svr.unrecovered = satInc s.ctl.svr.unrecovered 0xFFFF)))
    ∧ (∀ tread bad, s.ctl.glb.restoring = false → s.ctl.svr.live = [] →
        exec (.restoreTreadDone tread bad) s = .next s)
    ∧ (s.ctl.glb.mode.service = true → Runs .frameSwitch s (fun t => OnlyChanges [.gals] s t
        ∧ ∀ g < 8, (galAt t.ctl g).frame = if (galAt s.ctl g).fenced || (galAt s.ctl g).resetting then (galAt s.ctl g).frame else 0))

/-- R157, R302 to R304, R307, R313, R315: the archive. The cleaner copies a dirty riser into its tracker and its gallery's slab; a closed slab
takes the next ASNs; three slabs fill a wordline of a LUN; when it passes, each riser has a log copy with its ASN and is clean unless it was
written meanwhile; when it fails, nothing is clean and the block is retired. Checkpoints and the allowance window advance with their timers.
Choices of the model: log entry 42. -/
def Obligations.ArchiveAppends : Prop :=
  ∀ (g : Fin 8) (lun : Fin 512) (s : State), aonOn s.ctl = true →
    let v := s.ctl.vlt
    (∀ q : BitVec 38, let r := q.toNat
        let slab := (tget v.openSlab g).getD { id := v.nextSlab, gal := g, firstAsn := 0, risers := [] }
        let full := slab.risers ++ [{ riser := r, data := riserData s.dev r, poison := riserPoison s.dev.mem r }]
        cleanerRuns s.ctl = true → overlayFull s.ctl g = false → galOf s.ctl (r * 256) = g → (galAt s.ctl g).fenced = false → r ∈ (galAt s.ctl g).dirty →
        (galAt s.ctl g).inFlight.any (fun f => f.riser == r) = false → unrestored s.ctl (r / 16) = false → stale s.ctl (r / 16) = false →
        Runs (.cleanerCopy g q) s (fun t => OnlyChanges [.gals, .vlt, .free, .fcu] s t
          ∧ (galAt t.ctl g).inFlight = (galAt s.ctl g).inFlight ++ [{ riser := r, data := riserData s.dev r, redirty := false, slab := slab.id }]
          ∧ (galAt t.ctl g).dirty = (galAt s.ctl g).dirty
          ∧ (slab.risers.length < 61 → tget t.ctl.vlt.openSlab g = some { slab with risers := full } ∧ t.ctl.vlt.nextAsn = v.nextAsn)
          ∧ (slab.risers.length = 61 → v.closed.length < 2 →
              t.ctl.vlt.closed = v.closed ++ [{ slab with firstAsn := v.nextAsn, risers := full }] ∧ t.ctl.vlt.nextAsn = v.nextAsn + 62)))
    ∧ (∀ x, tget v.openSlab g = some x → v.closed.length < 2 → dirtyFrozen s.ctl = false → Runs (.slabCloseTimeout g) s (fun t => OnlyChanges [.vlt] s t
        ∧ t.ctl.vlt.closed = v.closed ++ [{ x with firstAsn := v.nextAsn }] ∧ t.ctl.vlt.nextAsn = v.nextAsn + x.risers.length))
    ∧ (∀ b l, v.closed.length = 1 ∨ v.closed.length = 2 → dirtyFrozen s.ctl = false → lunNext s.ctl = some l → (lunAt v l).openBlock = some b → (lunAt v l).op = none →
        Runs .wordlineFillTimeout s (fun t => OnlyChanges [.vlt] s t ∧ t.ctl.vlt.closed = []
          ∧ ∃ es, es.length = 3 - v.closed.length ∧ (∀ e ∈ es, e.risers = []) ∧ (lunAt t.ctl.vlt l).op = some (.wordline b (v.closed ++ es))))
    ∧ (∀ b x q f, (lunAt v lun).op = some (.wordline b [x]) → x.gal = g → x.risers = [q] → (galAt s.ctl g).inFlight = [f] → f.riser = q.riser → f.slab = x.id →
        galOf s.ctl (q.riser * 256) = g → Idle s.ctl → s.ctl.twin.held = [] →
        (tget v.log q.riser = none → serving s.ctl = true → Runs (.vaultProgramDone lun true) s (fun t => OnlyChanges [.vlt, .gals, .budget, .fcu, .heads, .twin, .poisonOver, .out] s t
          ∧ (pairedNow s.ctl = false → t.ctl.twin = s.ctl.twin ∧ t.ctl.out = s.ctl.out)
          ∧ (galAt t.ctl g).inFlight = [] ∧ (f.redirty = false → q.riser ∉ (galAt t.ctl g).dirty)
          ∧ (f.redirty = true → (galAt t.ctl g).dirty = (galAt s.ctl g).dirty)
          ∧ tget t.ctl.vlt.log q.riser = some { asn := x.firstAsn, data := q.data, poison := q.poison, lun := lun.val, block := b }))
        ∧ Runs (.vaultProgramDone lun false) s (fun t => OnlyChanges [.vlt, .gals, .budget, .fcu, .heads, .svr, .alc, .poisonOver] s t
          ∧ (galAt t.ctl g).inFlight = [] ∧ (galAt t.ctl g).dirty = (galAt s.ctl g).dirty ∧ t.ctl.vlt.log = v.log
          ∧ (blockAt t.ctl.vlt (blockKey lun b)).bad = true ∧ Raised t.ctl (srcVch (lun % 16) 0)))
    ∧ (v.mount = 2 → s.ctl.glb.mode.service = true → Runs .checkpointTimer s (fun t => OnlyChanges [.vlt, .fcu] s t
        ∧ t.ctl.vlt.ckptSeq = v.ckptSeq + 1 ∧ t.ctl.vlt.ckptBytes = 0 ∧ t.ctl.vlt.ckptTime = now s.ctl))
    ∧ (s.ctl.glb.mode.service = true → Runs .allowanceBucketTimer s (fun t => OnlyChanges [.vlt, .budget] s t
        ∧ t.ctl.vlt.buckets = 0 :: v.buckets.take 95))

/-- R263, R293, R298, R300, R301, R306, R310, R311, R315 to R319: reads, compaction and erases of the vault. A codeword that took retries is counted and
from REFRESH_STEPS on marks its block once; an uncorrectable one raises UE; compaction writes a tread's base under a new ASN without
changing what the archive holds; blocks are erased in recorded batches and get a valid header; R263, R293: while the erased reserve is
short a stripe without live units is erased whole, and the reserve then grows by it; a LUN that stays busy is reported.
Choices of the model: log entries 40, 43, 95 and 124. -/
def Obligations.VaultReadsAndErases : Prop :=
  ∀ (lun : Fin 512) (block : BitVec 16) (q : BitVec 38) (s : State), aonOn s.ctl = true →
    let v := s.ctl.vlt
    let k := blockKey lun block.toNat
    let readBy (i : CwRes → Instr) (ps : List Part) :=
      exec (i (.hard 0)) s = .next s
      ∧ (∀ n, 1 ≤ n → n ≤ v.retrySteps → n < v.refreshSteps → Runs (i (.hard n)) s (fun t => OnlyChanges [.vlt] s t
          ∧ t.ctl.vlt.retried = satInc v.retried 0xFFFFFFFF ∧ t.ctl.vlt.blocks = v.blocks))
      ∧ (∀ n, 1 ≤ n → n ≤ v.retrySteps → v.refreshSteps ≤ n → (blockAt v k).refresh = false → Runs (i (.hard n)) s (fun t => OnlyChanges [.vlt, .fcu] s t
          ∧ t.ctl.vlt.retried = satInc v.retried 0xFFFFFFFF ∧ (blockAt t.ctl.vlt k).refresh = true ∧ Raised t.ctl (srcVch (lun % 16) 2)))
      ∧ Runs (i .uncorrectable) s (fun t => OnlyChanges ps s t ∧ (vget t.ctl.vlt.chans (lun % 16) Vch.reset).ue = satInc (vget v.chans (lun % 16) Vch.reset).ue 0xFFFF
          ∧ Raised t.ctl (srcVch (lun % 16) 3))
    let busy := (lunAt v lun).op.isSome = true ∨ (eraseNext s.ctl lun).isSome = true
    (v.mount = 2 → lunFenced s.ctl lun = false → lun.val < lunCount v →
      (s.ctl.glb.mode = .start ∨ s.ctl.glb.mode.service = true → readBy (fun res => .vaultCodewordReadDone lun block res q) [.vlt, .fcu, .svr])
      ∧ (s.ctl.glb.mode.service = true → readBy (fun res => .vaultPatrolRead lun block res) [.vlt, .fcu]))
    ∧ (v.mount = 2 → busy → (lunFenced s.ctl lun = false → Runs (.lunReadyTimeout lun) s (fun t => OnlyChanges [.fcu] s t ∧ Raised t.ctl (srcVch (lun % 16) 4)))
        ∧ Runs (.busyStallTimeout lun) s (fun t => OnlyChanges [.vlt, .fcu] s t ∧ Raised t.ctl (srcVch (lun % 16) 6)
          ∧ (vget t.ctl.vlt.chans (lun % 16) Vch.reset).stalls = satInc (vget v.chans (lun % 16) Vch.reset).stalls 0xFFFF))
    ∧ (v.mount = 2 → s.ctl.glb.mode.service = true → v.batch = [] → v.eraseQ ≠ [] → Runs .eraseBatchIssue s (fun t => OnlyChanges [.vlt, .alc, .svr, .fcu] s t
        ∧ t.ctl.vlt.batch = v.eraseQ.take 255 ∧ t.ctl.vlt.eraseQ = v.eraseQ.drop 255 ∧ t.ctl.vlt.esn = v.esn + 1))
    ∧ (v.batch ≠ [] → exec .eraseBatchIssue s = .next s)
    ∧ (v.mount = 2 → s.ctl.glb.mode.service = true → v.batch = [] → v.eraseQ = [] → s.ctl.svr.reserve < reserveTarget s.ctl → s.ctl.svr.landStripe = none →
        stripeFree s.ctl = true → Runs .eraseBatchIssue s (fun t => OnlyChanges [.vlt, .alc, .svr, .fcu] s t
          ∧ t.ctl.svr.landStripe = some (stripeNext s.ctl) ∧ ∀ k, k ∈ t.ctl.vlt.batch ++ t.ctl.vlt.eraseQ ↔ k ∈ stripeBlocks s.ctl (stripeNext s.ctl)))
    ∧ (∀ b e, v.mount = 2 → s.ctl.glb.mode.service = true → s.ctl.svr.landStripe = some b → v.batch = [e] → v.eraseQ = [] → e / 65536 = lun →
        Runs (.vaultEraseDone lun true) s (fun t => t.ctl.svr.landStripe = none ∧ t.ctl.svr.reserve = s.ctl.svr.reserve + stripeUnits v))
    ∧ (∀ e, v.mount = 2 → s.ctl.glb.mode.service = true → eraseNext s.ctl lun = some e →
        Runs (.vaultEraseDone lun true) s (fun t => OnlyChanges [.vlt, .alc, .fcu, .svr] s t ∧ t.ctl.vlt.batch = v.batch.erase e
          ∧ (blockAt t.ctl.vlt e).pe = (blockAt v e).pe + 1 ∧ (blockAt t.ctl.vlt e).headerOk = true ∧ (blockAt t.ctl.vlt e).closed = false
          ∧ (blockAt t.ctl.vlt e).esn = v.esn)
        ∧ Runs (.vaultEraseDone lun false) s (fun t => OnlyChanges [.vlt, .alc, .fcu, .svr] s t ∧ t.ctl.vlt.batch = v.batch.erase e
          ∧ (blockAt t.ctl.vlt e).bad = true ∧ Raised t.ctl (srcVch (lun % 16) 1)))
    ∧ (∀ (tread : BitVec 34) l b, let n := tread.toNat
        v.mount = 2 → s.ctl.glb.mode.service = true → inVictim s.ctl n = true → inLiveSave s.ctl n = false → compactDue s.ctl = true →
        s.ctl.gals.any (fun g => g.inFlight.any (fun f => f.riser / 16 == n)) = false → lunNext s.ctl = some l → (lunAt v l).openBlock = some b →
        Runs (.compactionTread tread []) s (fun t => OnlyChanges [.vlt, .gals, .free] s t ∧ t.ctl.vlt.nextAsn = v.nextAsn + 1
          ∧ (∀ x ∈ t.ctl.vlt.log, x.1 / 16 = n → v.nextAsn ≤ x.2.asn)
          ∧ ∃ y, tget t.ctl.vlt.bases n = some y ∧ y.asn = v.nextAsn ∧ y.risers.length = 16
            ∧ (unrestored s.ctl n = true → ∀ i < 16, (y.risers[i]?).map (fun x => (x.data, x.poison)) =
              some (((archCopy s.ctl (16 * n + i)).map (fun x => x.2)).getD (0, 0)))))

/-- R325, R330, R331, R332, R340, R342: control of a ring by its owner. ENABLE starts a DISABLED ring with its pointers at 0, or leaves it in
ERROR with code 1; ENABLE 0 drains it and leaves it DISABLED once no descriptor is in progress; the doorbells move the tail and free entries;
illegal sequences are ignored and counted; an access without the right is a violation of kind 6.
Choices of the model: log entries 38 and 81. -/
def Obligations.RingControl : Prop :=
  ∀ (ini : Byte) (r : Fin 1024) (s : State),
    let x := ringAt s.ctl r
    let n := 2 ^ x.logSize
    let ready (off : Nat) := gateOf s.ctl ini.toNat (0x1000000 + r * 0x1000 + off) 8 true = .ok
    let becomes (i : Instr) (P : Ring → Prop) := Runs i s (fun t => OnlyChanges [.rings] s t ∧ P (ringAt t.ctl r)
      ∧ ∀ k, k ≠ r.val → ringAt t.ctl k = ringAt s.ctl k)
    let ignored (i : Instr) := Runs i s (fun t => OnlyChanges [.heads, .mgmt] s t
      ∧ (ini.toNat < 0x40 → (headAt t.ctl (ini.toNat / 4)).viol.ignored = satInc (headAt s.ctl (ini.toNat / 4)).viol.ignored 0xFFFFFFFF)
      ∧ (0x40 ≤ ini.toNat → t.ctl.mgmt.viol.ignored = satInc s.ctl.mgmt.viol.ignored 0xFFFFFFFF))
    let free := (x.cqTail + n - x.cqHead) % n
    let tailOk (tail : Nat) := x.st = .running ∧ tail < n ∧ (tail + n - x.sqHead) % n + x.descs.length + free ≤ n - 1
    let headOk (head : Nat) := head < n ∧ (head + n - x.cqHead) % n ≤ free
    let startOk := 6 ≤ x.logSize ∧ x.logSize ≤ 16 ∧ 2 ≤ x.vector ∧ x.vector ≤ 31 ∧ ringPlaced s.ctl x = true
    (ready 0x18 → x.st = .disabled → startOk → becomes (.ringEnable ini r) (fun y => y = { x with
        st := .running, code := 0, enable := true, sqHead := 0, sqTail := 0, cqHead := 0, cqTail := 0, phase := true, signalled := 0,
        delayRun := false, got := [], doorbells := [], released := [] }))
    ∧ (ready 0x18 → x.st = .disabled → ¬ startOk → becomes (.ringEnable ini r) (fun y => y = { x with st := .error, code := 1, enable := true }))
    ∧ (ready 0x18 → x.st ≠ .disabled → ignored (.ringEnable ini r))
    ∧ (ready 0x18 → x.descs ≠ [] → becomes (.ringDisable ini r) (fun y => y = { x with
        enable := false, st := if x.st = .running then .draining else x.st }))
    ∧ (ready 0x18 → x.descs = [] → becomes (.ringDisable ini r) (fun y => y.st = .disabled ∧ y.enable = false ∧ y.sqBase = x.sqBase ∧ y.cqBase = x.cqBase
        ∧ y.logSize = x.logSize ∧ y.owner = x.owner ∧ y.descs = []))
    ∧ (∀ tail : BitVec 16, ready 0x20 → tailOk tail.toNat → becomes (.rngSqTail ini r tail) (fun y =>
        y = { x with sqTail := tail.toNat, doorbells := y.doorbells }
        ∧ (tail.toNat ≠ x.sqTail → ∀ d, x.owner = some d → ∃ l, y.doorbells = x.doorbells ++ [(tail.toNat, l)]
          ∧ ∀ q ∈ s.ctl.reqs, (∃ h m g, q.src = .host h m g ∧ 4 * h + m = d) → q.isWrite = true → q.id ∈ l)))
    ∧ (∀ tail : BitVec 16, ready 0x20 → ¬ tailOk tail.toNat → ignored (.rngSqTail ini r tail))
    ∧ (∀ head : BitVec 16, ready 0x28 → headOk head.toNat → becomes (.rngCqHead ini r head) (fun y => y = { x with cqHead := head.toNat }))
    ∧ (∀ head : BitVec 16, ready 0x28 → ¬ headOk head.toNat → ignored (.rngCqHead ini r head))
    ∧ (canReach s.ctl ini.toNat = true → ringOwnedBy s.ctl r ini.toNat = false → ini.toNat < 0x40 → ∀ v : BitVec 16,
        ∀ i ∈ ([.ringEnable ini r, .ringDisable ini r, .rngSqTail ini r v, .rngCqHead ini r v] : List Instr),
          Runs i s (fun t => OnlyChanges [.heads, .fcu, .out] s t ∧ Raised t.ctl (16 * (ini.toNat / 4) + 8)
            ∧ ∃ off, t.ctl.out = .cxlIoUr ini.toNat off :: s.ctl.out))
    ∧ (∀ d, x.delayRun = true → x.owner = some d → Runs (.intDelayExpiry r) s (fun t => OnlyChanges [.rings, .lds, .out] s t
        ∧ Signals s t d x.vector ∧ ringAt t.ctl r = { x with signalled := 0, delayRun := false }))
    ∧ (∀ g : Fin 8, gateOf s.ctl ini.toNat (0x200000 + g * 0x20000 + 0x2000) 8 true = .ok →
        let still := s.ctl.rings.any (fun y => y.1 / 128 == g.val && y.2.st != .disabled)
        (unitFenced s.ctl (0x18 + g) = true → still = false → Runs (.ringEngineRestart ini g) s (fun t => OnlyChanges [.fcu] s t
          ∧ unitFenced t.ctl (0x18 + g) = false))
        ∧ (unitFenced s.ctl (0x18 + g) = false ∨ still = true → ignored (.ringEngineRestart ini g)))

/-- R331, R333 to R337, R339, R341, R343 to R345: the next descriptor of a ring that the device serves alone. It leaves the ring with its index and
tag; COPY and FILL write their bytes, and COPY carries poison; COMPARE and CRC32C give their result; a barrier waits for the owner's writes and
the descriptors before it; a flight commits whole under the next COMMIT_SEQ. A descriptor that is not valid has status 1, one outside its
owner's halls status 2 with a violation; a poisoned one, or a ring that lies no longer in its owner's halls, stops the ring in ERROR.
Choices of the model: log entry 33. -/
def Obligations.RingDescriptors : Prop :=
  ∀ (r : Fin 1024) (s : State) (d : Nat), d < 64 → aonOn s.ctl = true → Idle s.ctl → s.dev.mem.wf = true →
    let x := ringAt s.ctl r
    let D := dpaOff x.sqBase.toNat + 64 * x.sqHead
    let fld (o n : Nat) := ofBytes (cread 0 s.dev.mem.dram (D + o) n)
    let zero (lo : Nat) := ∀ i, lo ≤ i → i < 64 → State.byte s (D + i) = 0
    let header (op : Nat) := fld 0 1 = op ∧ fld 1 1 < 4 ∧ fld 2 2 = 0 ∧ (bitOf (fld 1 1) 1 = true → x.descs = [])
    let starts (i : Instr) (ps : List Part) (P : State → Desc → Prop) := Runs i s (fun t =>
      OnlyChanges ([.rings, .gals, .nextReq, .heads, .free, .poisonOver] ++ ps) s t ∧ (∀ k, k ≠ r.val → ringAt t.ctl k = ringAt s.ctl k)
      ∧ ∃ e, ringAt t.ctl r = { x with sqHead := (x.sqHead + 1) % 2 ^ x.logSize, descs := x.descs ++ [e],
                                       doorbells := (ringAt t.ctl r).doorbells, released := (ringAt t.ctl r).released }
        ∧ e.index = x.sqHead ∧ e.opcode = fld 0 1 ∧ e.irq = bitOf (fld 1 1) 0 ∧ e.tag = fld 4 4 ∧ P t e)
    let ends (i : Instr) (st : Nat) := starts i [] (fun _ e => e.st = .finished ∧ e.status = st ∧ e.result = 0)
    let stored (t : State) (a n : Nat) (v : Nat → Byte) := (∀ j < n, State.byte t (dpaOff a + j) = v j)
      ∧ (∀ h, ¬ InRange a n h → State.byte t h = State.byte s h)
      ∧ ∀ h, (∀ j < n, lineNo (dpaOff a + j) ≠ lineNo h) → linePoison t.dev.mem h = linePoison s.dev.mem h
    x.owner = some d → x.sqBase.toNat % 4096 = 0 → x.got = [] → ringMay s.ctl r = true →
    (ringPlaced s.ctl x = false → Runs (.ringNop r .clean) s (fun t => OnlyChanges [.rings] s t ∧ (ringAt t.ctl r).st = .error ∧ (ringAt t.ctl r).code = 1
      ∧ (ringAt t.ctl r).sqHead = x.sqHead))
    ∧ (ringPlaced s.ctl x = true → RangeServed s.ctl d (x.sqBase.toNat + 64 * x.sqHead) 64 →
      (linePoison s.dev.mem D = true → Runs (.ringNop r .clean) s (fun t => OnlyChanges [.rings, .gals, .nextReq, .heads, .free, .poisonOver] s t
        ∧ (ringAt t.ctl r).st = .error ∧ (ringAt t.ctl r).code = 2 ∧ (ringAt t.ctl r).descs = x.descs))
      ∧ (linePoison s.dev.mem D = false →
        let src := fld 8 8; let dst := fld 16 8; let n := fld 24 4; let lenOk := 1 ≤ n ∧ n ≤ 0x1000000
        let apart := src + n ≤ dst ∨ dst + n ≤ src
        (header 0 → zero 8 → ends (.ringNop r .clean) 0)
        ∧ (header 0 → ¬ zero 8 → ends (.ringNop r .clean) 1)
        ∧ (6 < fld 0 1 → (bitOf (fld 1 1) 1 = true → x.descs = []) → ends (.ringNop r .clean) 1)
        ∧ (header 1 → lenOk → apart → zero 28 → RangeServed s.ctl d src n → RangeServed s.ctl d dst n → RangeRoom s.ctl dst n →
            starts (.ringCopy r .clean .clean) [.pair, .dram, .poison] (fun t e => e.st = .writing ∧ e.status = 0 ∧ e.result = 0
              ∧ stored t dst n (fun j => State.byte s (dpaOff src + j)) ∧ (∀ j < n, isDirty t.ctl (dpaOff dst + j) = true)
              ∧ (e.poisonCopied = true ↔ ∃ j < n, linePoison s.dev.mem (dpaOff src + j) = true)
              ∧ ∀ j < n, linePoison s.dev.mem (dpaOff src + j) = true → linePoison t.dev.mem (dpaOff dst + j) = true))
        ∧ (header 1 → ¬ (lenOk ∧ apart ∧ zero 28) → ends (.ringCopy r .clean .clean) 1)
        ∧ (header 1 → lenOk → apart → zero 28 → rangeFail s.ctl d src n ≠ none → x.released = [] →
            starts (.ringCopy r .clean .clean) [.fcu] (fun t e => e.st = .finished ∧ e.status = 2
              ∧ (headAt t.ctl (d / 4)).viol.violations = satInc (headAt s.ctl (d / 4)).viol.violations 0xFFFFFF ∧ Raised t.ctl (16 * (d / 4) + 6)))
        ∧ (header 1 → lenOk → apart → zero 28 → rangeFail s.ctl d src n = none → rangeFail s.ctl d dst n = none →
            rangeOffline s.ctl src n = true ∨ rangeOffline s.ctl dst n = true → ends (.ringCopy r .clean .clean) 3)
        ∧ (header 2 → lenOk → zero 28 → RangeServed s.ctl d src n → RangeRoom s.ctl src n →
            starts (.ringFill r .clean) [.pair, .dram, .poison] (fun t e => e.st = .writing ∧ e.status = 0 ∧ e.result = 0
              ∧ stored t src n (fun j => State.byte s (D + 16 + (dpaOff src + j) % 8)) ∧ ∀ j < n, isDirty t.ctl (dpaOff src + j) = true))
        ∧ (header 3 → lenOk → zero 28 → RangeServed s.ctl d src n → RangeServed s.ctl d dst n →
            let same (j : Nat) := State.byte s (dpaOff src + j) = State.byte s (dpaOff dst + j)
            (RangeSound s.dev.mem src n → RangeSound s.dev.mem dst n →
              ((∀ j < n, same j) → starts (.ringCompare r .clean .clean) [] (fun _ e => e.st = .finished ∧ e.status = 0 ∧ e.result = 0xFFFFFFFFFFFFFFFF))
              ∧ ∀ k < n, ¬ same k → (∀ j < k, same j) →
                starts (.ringCompare r .clean .clean) [] (fun _ e => e.st = .finished ∧ e.status = 0 ∧ e.result = BitVec.ofNat 64 k))
            ∧ (¬ (RangeSound s.dev.mem src n ∧ RangeSound s.dev.mem dst n) → ends (.ringCompare r .clean .clean) 4))
        ∧ (header 4 → lenOk → fld 16 8 = 0 → zero 32 → RangeServed s.ctl d src n →
            (RangeSound s.dev.mem src n → starts (.ringCrc32c r .clean .clean) [] (fun _ e => e.st = .finished ∧ e.status = 0
              ∧ e.result = BitVec.ofNat 64 (crc32cFrom (fld 28 4) (cread 0 s.dev.mem.dram (dpaOff src) n))))
            ∧ (¬ RangeSound s.dev.mem src n → ends (.ringCrc32c r .clean .clean) 4))
        ∧ (header 5 → fld 8 1 ≤ 1 → zero 9 → starts (.persistBarrier r .clean) [] (fun _ e => e.status = 0 ∧ ∃ l m, e.st = .barrier l m
              ∧ (∀ b ∈ x.doorbells.head?, l = b.2) ∧ (∀ y ∈ x.descs, y.id ∈ m)
              ∧ (fld 8 1 = 1 → ∀ z ∈ s.ctl.rings, z.2.owner = some d → ∀ y ∈ z.2.descs, y.id ∈ m)))
        ∧ (header 5 → ¬ (fld 8 1 ≤ 1 ∧ zero 9) → ends (.persistBarrier r .clean) 1)
        ∧ (header 6 → zero 18 → src % 4096 = 0 →
            let k := fld 16 2
            let at_ (i o n : Nat) := ofBytes (cread 0 s.dev.mem.dram (dpaOff src + 32 * i + o) n)
            let sdst (i : Nat) := at_ i 0 8; let ssrc (i : Nat) := at_ i 8 8; let slen (i : Nat) := at_ i 16 4; let fill (i : Nat) := at_ i 20 1
            1 ≤ k → k ≤ 512 → (∀ y ∈ x.descs, y.id < s.ctl.nextReq) → RangeServed s.ctl d src (32 * k) → RangeSound s.dev.mem src (32 * k) →
            (∀ i < k, 1 ≤ slen i ∧ slen i ≤ 0x100000 ∧ fill i ≤ 1 ∧ at_ i 21 11 = 0 ∧ RangeServed s.ctl d (sdst i) (slen i)
              ∧ (∀ j < slen i, isDirty s.ctl (dpaOff (sdst i) + j) = true)
              ∧ (fill i = 0 → RangeServed s.ctl d (ssrc i) (slen i) ∧ RangeSound s.dev.mem (ssrc i) (slen i))) →
            (∀ i < k, ∀ j < i, sdst i + slen i ≤ sdst j ∨ sdst j + slen j ≤ sdst i) → ((List.range k).map slen).sum ≤ 0x100000 →
            starts (.ringFlight r .clean .clean) [.pair, .dram, .poison, .flights, .fgen, .commitSeq, .flightCount] (fun t e =>
              e.st = .finished ∧ e.status = 0 ∧ e.result = BitVec.ofNat 64 s.ctl.commitSeq ∧ t.ctl.commitSeq = s.ctl.commitSeq + 1
              ∧ tgetD t.ctl.flightCount (r / 128) 0 = (tgetD s.ctl.flightCount (r / 128) 0 + 1) % 2 ^ 32
              ∧ (∃ f, t.ctl.flights = [f] ∧ f.own = true ∧ f.slot = 32 * (r / 128) ∧ f.st = .committed ∧ f.commitSeq = s.ctl.commitSeq)
              ∧ (∀ i < k, ∀ j < slen i, State.byte t (dpaOff (sdst i) + j) =
                  if fill i = 1 then State.byte s (dpaOff src + 32 * i + 8 + (dpaOff (sdst i) + j) % 8) else State.byte s (dpaOff (ssrc i) + j))
              ∧ ∀ h, (∀ i < k, ¬ InRange (sdst i) (slen i) h) → State.byte t h = State.byte s h))))

/-- R338, R340, R341, R345: the completion entry of a descriptor, 16 B at CQ_TAIL with its tag, index, status, phase and result, and its
interrupt; a descriptor that is not done, or a barrier whose writes and descriptors are not done, gets none; where the entry's hall is offline the ring stops in
ERROR with code 3; a committed flight whose writes are durable retires, and tells the partner first.
Choices of the model: log entry 33. -/
def Obligations.CompletionsAndFlights : Prop :=
  ∀ (r : Fin 1024) (index : BitVec 16) (s : State) (d : Nat) (e : Desc), aonOn s.ctl = true → s.dev.mem.wf = true →
    let x := ringAt s.ctl r
    let a := x.cqBase.toNat + 16 * x.cqTail
    let tail := (x.cqTail + 1) % 2 ^ x.logSize
    x.owner = some d → x.descs.find? (fun e => e.index == index.toNat) = some e →
    (Idle s.ctl → x.cqBase.toNat % 4096 = 0 → e.st = .finished → x.enable = true → RangeServed s.ctl d a 16 → RangeRoom s.ctl a 16 →
      let entry (P : State → Prop) := Runs (.descriptorComplete r index) s (fun t => OnlyChanges [.rings, .gals, .nextReq, .heads, .free, .poisonOver, .pair, .lds, .out, .dram, .poison] s t
        ∧ (∀ k, k ≠ r.val → ringAt t.ctl k = ringAt s.ctl k)
        ∧ (let y := ringAt t.ctl r
           y.cqTail = tail ∧ y.phase = (if tail = 0 then !x.phase else x.phase) ∧ y.completed = (x.completed + 1) % 2 ^ 32
           ∧ y.errors = (if e.status = 0 then x.errors else satInc x.errors 0xFFFFFFFF) ∧ y.descs = delFirst (fun f => f.id == e.id) x.descs
           ∧ y.st = x.st ∧ y.sqHead = x.sqHead ∧ y.sqTail = x.sqTail ∧ y.cqHead = x.cqHead)
        ∧ cread 0 t.dev.mem.dram (dpaOff a) 16 = bytesOf 4 e.tag ++ bytesOf 2 e.index
            ++ [BitVec.ofNat 8 e.status, BitVec.ofNat 8 (b2n x.phase + 2 * b2n e.poisonCopied)] ++ bytesOf 8 e.result.toNat
        ∧ (∀ h, ¬ InRange a 16 h → State.byte t h = State.byte s h) ∧ P t)
      (e.irq = false → e.status = 0 → entry (fun t => t.ctl.out = s.ctl.out ∧ t.ctl.lds = s.ctl.lds))
      ∧ (e.status ≠ 0 ∨ e.irq = true ∧ (x.intCount = 0 ∧ x.intDelay = 0 ∨ x.intCount ≠ 0 ∧ x.intCount ≤ x.signalled + 1) →
          entry (fun t => Signals s t d x.vector ∧ (ringAt t.ctl r).signalled = 0))
      ∧ (e.status = 0 → e.irq = true → ¬ (x.intCount = 0 ∧ x.intDelay = 0) → (x.intCount = 0 ∨ x.signalled + 1 < x.intCount) →
          entry (fun t => t.ctl.out = s.ctl.out ∧ t.ctl.lds = s.ctl.lds ∧ (ringAt t.ctl r).signalled = x.signalled + 1
            ∧ ((ringAt t.ctl r).delayRun = true ↔ x.intDelay ≠ 0))))
    ∧ (∀ l m, e.st = .barrier l m → ((∃ q ∈ s.ctl.reqs, q.id ∈ l) ∨ ∃ z ∈ s.ctl.rings, ∃ f ∈ z.2.descs, f.id ∈ m) →
        exec (.descriptorComplete r index) s = .next s)
    ∧ (∀ slot, e.st = .flight slot → exec (.descriptorComplete r index) s = .next s)
    ∧ (serving s.ctl = true → e.st = .finished → x.st = .running → x.enable = true → rangeOffline s.ctl a 16 = true →
        Runs (.descriptorComplete r index) s (fun t => OnlyChanges [.rings] s t ∧ (ringAt t.ctl r).st = .error ∧ (ringAt t.ctl r).code = 3
          ∧ (ringAt t.ctl r).cqTail = x.cqTail))
    ∧ (∀ (slot : Byte) (f : Flight), s.ctl.reqs = [] → s.ctl.flights = [f] → f.slot = slot.toNat → f.st = .committed →
        (Idle { s.ctl with flights := [] } → pairedNow s.ctl = false →
          Runs (.flightApplyDone f.own slot) s (fun t => OnlyChanges [.flights, .budget, .heads, .poisonOver, .partnerApplied] s t ∧ t.ctl.flights = []
            ∧ (f.own = true → t.ctl.partnerApplied = s.ctl.partnerApplied)
            ∧ (f.own = false → tgetD t.ctl.partnerApplied (slot.toNat / 32) 0 = satInc (tgetD s.ctl.partnerApplied (slot.toNat / 32) 0) 0xFFFF)))
        ∧ (∀ k, f.own = true → pairedNow s.ctl = true → steerEntry s.ctl (slot.toNat % 64) = some k → k < 4 →
          Runs (.flightApplyDone true slot) s (fun t => OnlyChanges [.flights, .twin, .out] s t ∧ t.ctl.flights = [{ f with st := .retiring }]
            ∧ Sends t.ctl (.retire slot.toNat) (fun m => ∃ tag, m = .jrnDone f.fgen tag slot.toNat))))

/-- R357 to R360: the sequencer's instructions. ENABLE drives the rails of its mask and no other, and in SAVE_SHED and TRIP drives none
high; WAIT, CHECK and WAITEV wait where the spec has them wait and otherwise complete at once; JUMP_IF takes the condition's branch; MARK
sets and clears its flags; END stops SAVE_SHED and TRIP.
Choices of the model: log entry 29. -/
def Obligations.SequencerInstructions : Prop :=
  ∀ s : State, aonOn s.ctl = true →
    let next : Seq := { s.ctl.seq with pc := (s.ctl.seq.pc + 1) % 256, wait := .none }
    (∀ level mask, seqFetch s.ctl = some (.enable level mask) →
      (level = true → s.ctl.seq.running ≠ .shed ∧ s.ctl.seq.running ≠ .trip) →
      Runs .seqEnable s (fun t => OnlyChanges [.seq, .out, .fcu] s t ∧ t.ctl.seq.pc = (s.ctl.seq.pc + 1) % 256
        ∧ ∀ r < 16, (railAt t.ctl r).en = if mask.getLsbD r then level else (railAt s.ctl r).en))
    ∧ (∀ mask, seqFetch s.ctl = some (.enable true mask) → s.ctl.seq.running = .shed ∨ s.ctl.seq.running = .trip →
      Runs .seqEnable s (fun t => OnlyChanges [.seq, .fcu] s t ∧ t.ctl.seq = next ∧ Raised t.ctl 0x2C5))
    ∧ (∀ ms n, seqFetch s.ctl = some (.wait ms n) →
      exec .seqWait s = .next (s.withSeq { s.ctl.seq with wait := .wait }))
    ∧ (s.ctl.seq.running ≠ .none → s.ctl.seq.wait = .wait → exec .waitExpiry s = .next (s.withSeq next))
    ∧ (∀ r disch n, seqFetch s.ctl = some (.check r disch n) → (disch = true → (railAt s.ctl r).driven = true) →
      exec .seqCheck s = .next (s.withSeq { s.ctl.seq with wait := .check r disch }))
    ∧ (∀ r n, seqFetch s.ctl = some (.check r true n) → (railAt s.ctl r).driven = false →
      exec .seqCheck s = .next (s.withSeq next))
    ∧ (∀ cond neg target p, seqFetch s.ctl = some (.jumpIf cond neg target) → s.ctl.seq.prog = some p →
      (s.ctl.seq.running = .up → target ≠ p.down) →
      exec .jumpIf s = .next (s.withSeq (if seqCond s.ctl cond != neg then { s.ctl.seq with pc := target } else next)))
    ∧ (∀ set clr v, seqFetch s.ctl = some (.mark set clr v) → set &&& clr = 0 →
      Runs .seqMark s (fun t => OnlyChanges [.seq, .free] s t
        ∧ t.ctl.seq = { next with user := (s.ctl.seq.user ||| set) &&& ~~~clr, mark := v }))
    ∧ (∀ ev n, seqFetch s.ctl = some (.waitev ev n) →
      exec .waitev s = .next (s.withSeq (if s.ctl.seq.running = .shed then { s.ctl.seq with wait := .event (ev == 1) } else next)))
    ∧ (seqFetch s.ctl = some .fin → s.ctl.seq.running = .shed ∨ s.ctl.seq.running = .trip →
      exec .seqEnd s = .next (s.withSeq { s.ctl.seq with running := .none, wait := .none, warm := false }))

/-- R359, R369: what ends a waiting instruction. The sample that passes an up check arms its rail; a timeout sets FAIL or STUCK, raises
its source and the program goes on; a PMBus transaction is sent, retried twice and then sets PMBUS_FAIL; an awaited event or its timeout
lets the program go on; a program past its time is stopped.
Choices of the model: log entry 12. -/
def Obligations.SequencerWaits : Prop :=
  ∀ (code : BitVec 12) (s : State), aonOn s.ctl = true →
    let pc' := (s.ctl.seq.pc + 1) % 256
    (∀ r disch, r < 16 → s.ctl.seq.wait = .check r disch → checkGood s.ctl r disch code.toNat = true →
      Runs (.checkPass code) s (fun t => OnlyChanges [.seq, .sns] s t ∧ t.ctl.seq.pc = pc' ∧ t.ctl.seq.wait = .none
        ∧ (disch = false → (railAt t.ctl r).armed = (railAt s.ctl r).en)))
    ∧ (∀ r, r < 16 → s.ctl.seq.wait = .check r false →
      Runs (.checkTimeout code) s (fun t => OnlyChanges [.seq, .sns, .fcu] s t ∧ t.ctl.seq.pc = pc' ∧ t.ctl.seq.wait = .none
        ∧ (railAt t.ctl r).fail = true ∧ Raised t.ctl 0x2C3))
    ∧ (∀ r, r < 16 → s.ctl.seq.wait = .check r true →
      Runs (.checkTimeout code) s (fun t => OnlyChanges [.seq, .sns, .fcu] s t ∧ t.ctl.seq.pc = pc' ∧ t.ctl.seq.wait = .none
        ∧ (railAt t.ctl r).stuck = true ∧ Raised t.ctl 0x2C4))
    ∧ (∀ a c l d p, seqFetch s.ctl = some (.pmbus a c l d) → s.ctl.seq.prog = some p →
      Runs .seqPmbus s (fun t => OnlyChanges [.seq, .out] s t ∧ t.ctl.seq = { s.ctl.seq with wait := .pmbus 0 }
        ∧ t.ctl.out = .pmbus a c l (p.data.getD d 0) :: s.ctl.out))
    ∧ (∀ a c l d p w tries, s.ctl.seq.prog = some p → p.words[s.ctl.seq.pc]? = some w → seqDecode w = some (.pmbus a c l d) →
        s.ctl.seq.wait = .pmbus tries →
      exec (.pmbusTransactionEnd true true) s = .next (s.withSeq { s.ctl.seq with pc := pc', wait := .none })
      ∧ (tries < 2 → Runs (.pmbusTransactionEnd false false) s (fun t => OnlyChanges [.seq, .out] s t
        ∧ t.ctl.seq.wait = .pmbus (tries + 1) ∧ t.ctl.seq.nack = satInc s.ctl.seq.nack 0xFFFF
        ∧ t.ctl.out = .pmbus a c l (p.data.getD d 0) :: s.ctl.out))
      ∧ (2 ≤ tries → Runs (.pmbusTransactionEnd false false) s (fun t => OnlyChanges [.seq, .fcu] s t
        ∧ t.ctl.seq.pmbusFail = true ∧ t.ctl.seq.pc = pc' ∧ t.ctl.seq.wait = .none ∧ Raised t.ctl 0x2C7)))
    ∧ (∀ b, s.ctl.seq.wait = .event b →
      (waitevDone s.ctl = true → exec .waitevEvent s = .next (s.withSeq { s.ctl.seq with pc := pc', wait := .none }))
      ∧ exec .waitevTimeout s = .next (s.withSeq { s.ctl.seq with evTimeout := true, pc := pc', wait := .none }))
    ∧ (s.ctl.seq.running = .shed ∨ s.ctl.seq.running = .trip →
      Runs .seqWatchdogExpiry s (fun t => OnlyChanges [.seq, .fcu] s t ∧ t.ctl.seq.running = .none ∧ t.ctl.seq.wdog = true
        ∧ t.ctl.seq.rails = s.ctl.seq.rails ∧ Raised t.ctl 0x2C6))

/-- R32, R33, R357: where UP and DOWN end. UP from STANDBY enters VAULT.START with code 0x03 and an empty DRAM, keeping flash;
DOWN enters STANDBY with the code it was started for and starts the minimum off time.
Choices of the model: log entries 14 and 84. -/
def Obligations.ProgramsEnd : Prop :=
  ∀ s : State, seqFetch s.ctl = some .fin →
    (s.ctl.seq.running = .up → s.ctl.glb.mode = .standby → s.ctl.clk.ref100 = true →
      Runs .seqEnd s (fun t => t.pending = s.pending ∧ t.ctl.glb.mode = .start ∧ t.ctl.glb.ltCode = 0x03
        ∧ t.dev.mem = { s.dev.mem with dram := [], poison := [] } ∧ t.ctl.boot.locked = false ∧ t.ctl.boot.stage = .stage1
        ∧ t.ctl.rst.coldStarts = (s.ctl.rst.coldStarts + 1) % 2 ^ 16 ∧ t.ctl.seq.running = .none
        ∧ t.ctl.rtc.adjusted = false))
    ∧ (s.ctl.seq.running = .down → s.ctl.seq.downCode ≠ 0 →
      Runs .seqEnd s (fun t => t.pending = s.pending ∧ t.dev.mem = s.dev.mem ∧ t.ctl.glb.mode = .standby
        ∧ t.ctl.glb.ltCode = s.ctl.seq.downCode ∧ t.ctl.glb.minOff = true ∧ t.ctl.seq.running = .none
        ∧ t.ctl.alc.buf = [] ∧ (s.ctl.seq.downCode = 0x38 → t.ctl.rtc.causeRestore = true)
        ∧ t.ctl.img = s.ctl.img ∧ t.ctl.pf = s.ctl.pf ∧ t.ctl.rst = s.ctl.rst))

/-- R33, R241, R243, R244, R362: the power-fail detector and OFF. A low input bus starts the filter and clears INPUT_GOOD, a recovery
before its end counts a glitch, its end and a falling PF_N in SERVICE enter VAULT.SAVE with code 0x30 and the cause of the trigger, and
an OFF request does so with cause 0x03, while in STANDBY it is an illegal sequence.
Choices of the model: log entry 14. -/
def Obligations.PowerFailTriggers : Prop :=
  ∀ (ini : Byte) (s : State), aonOn s.ctl = true →
    let saves (i : Instr) (cause : Nat) := Runs i s (fun t => t.pending = s.pending ∧ t.dev.mem = s.dev.mem
      ∧ t.ctl.glb.mode = .save ∧ t.ctl.glb.ltCode = 0x30 ∧ t.ctl.pf.triggers = (s.ctl.pf.triggers + 1) % 2 ^ 16
      ∧ t.ctl.pf.lastSource = cause ∧ t.ctl.gals = s.ctl.gals
      ∧ ∃ r, t.ctl.svr.run = some r ∧ r.saved.cause = cause ∧ r.downAfter = true ∧ r.cut = false)
    (s.ctl.pf.senseArmed = true →
      Runs .pfSenseLow s (fun t => OnlyChanges [.pf, .glb] s t ∧ t.ctl.pf.filtering = true ∧ t.ctl.pf.inputGood = false
        ∧ t.ctl.glb = { s.ctl.glb with inputGood100 := false }))
    ∧ (s.ctl.pf.filtering = true →
      Runs .pfSenseRecover s (fun t => OnlyChanges [.pf, .fcu] s t ∧ t.ctl.pf.filtering = false
        ∧ t.ctl.pf.glitches = satInc s.ctl.pf.glitches 0xFFFF ∧ t.ctl.pf.triggers = s.ctl.pf.triggers))
    ∧ (s.ctl.glb.mode.service = true → s.ctl.pf.filtering = true → saves .pfFilterExpiry 1)
    ∧ (s.ctl.glb.mode.service = true → s.ctl.pf.pfN = true → s.ctl.pf.pfNArmed = true → s.ctl.pwrImg.pfNEn = true →
      saves .pfNFall 2)
    ∧ (s.ctl.glb.mode.service = true → s.ctl.glb.fatal = false → MayWrite s ini → saves (.offRequest ini) 3)
    ∧ (s.ctl.glb.mode = .standby → s.ctl.seq.running = .none → MayWrite s ini →
      Runs (.offRequest ini) s (fun t => OnlyChanges [.heads, .mgmt] s t))
    ∧ (s.ctl.pf.senseGood = true →
      exec .pfNRise s = .next (s.withPf { s.ctl.pf with pfN := true, pfNArmed := true, inputGood := true }))
    ∧ (s.ctl.pf.filtering = false → s.ctl.pf.pfN = true →
      exec .pfSenseGood s = .next (s.withPf { s.ctl.pf with senseLow := false, senseGood := true, senseArmed := true, inputGood := true }))
    ∧ (s.ctl.pf.inputGood = true →
      exec .inputGoodTimerExpiry s = .next (s.withGlb { s.ctl.glb with inputGood100 := true }))
    ∧ exec .minOffTimeExpiry s = .next (s.withGlb { s.ctl.glb with minOff := false })

/-- R353, R355, R365, R366, R370: supervision. BLANK after its enable a rail is running; a sample beyond its window on a running rail, or
its regulator's report, trips the device: every enable low, TRIP_N low, FATAL latched, STANDBY with code 0x7F; an armed rail below UV_CODE
raises RAIL_UV; a reference reading off raises ADC_FAULT; MINMAX_CLR sets both extremes to the last code.
Choices of the model: log entry 92. -/
def Obligations.RailSupervision : Prop :=
  ∀ (ini : Byte) (r : Fin 16) (code : BitVec 12) (s : State), aonOn s.ctl = true →
    let trips (i : Instr) (src cause : Nat) := Runs i s (fun t => t.pending = s.pending ∧ t.dev.mem = s.dev.mem
      ∧ t.ctl.glb.fatal = true ∧ t.ctl.glb.mode = .standby ∧ t.ctl.glb.ltCode = 0x7F ∧ (∀ k < 16, (railAt t.ctl k).en = false)
      ∧ t.ctl.seq.tripN = false ∧ t.ctl.seq.tripCause = cause ∧ t.ctl.seq.tripRail = r.val ∧ t.ctl.hold.loadEn = false
      ∧ Raised t.ctl src)
    ((railAt s.ctl r.val).en = true →
      Runs (.railBlankExpiry r) s (fun t => OnlyChanges [.seq] s t ∧ (railAt t.ctl r.val).running = true
        ∧ ∀ k, k ≠ r.val → railAt t.ctl k = railAt s.ctl k))
    ∧ ((railAt s.ctl r.val).running = true → s.ctl.glb.fatal = false → railOv (railCfg s.ctl r.val) < code.toNat →
      trips (.railTrip r false code) 0x2C0 1)
    ∧ ((railAt s.ctl r.val).running = true → s.ctl.glb.fatal = false → railOcEn (railCfg s.ctl r.val) = true →
        fieldOf (railCfg s.ctl r.val).cfg.toNat 27 16 < code.toNat → trips (.railTrip r true code) 0x2C1 2)
    ∧ (∀ addr page q, s.ctl.glb.fatal = false → railsOfReg s.ctl (BitVec.toNat addr) (BitVec.toNat page) = r.val :: q →
      trips (.pmbusAlert addr page true false false .ok) 0x2C0 3)
    ∧ ((railAt s.ctl r.val).armed = true → code.toNat < railUv (railCfg s.ctl r.val) → (srcAt s.ctl 0x2C2).condition = false →
      Runs (.railUnderVoltage r code) s (fun t => OnlyChanges [.seq, .sns, .fcu] s t ∧ (railAt t.ctl r.val).en = (railAt s.ctl r.val).en
        ∧ Raised t.ctl 0x2C2))
    ∧ ((srcAt s.ctl 0x2C9).condition = false →
      Runs (.adcReferenceCheck false true) s (fun t => OnlyChanges [.fcu] s t ∧ Raised t.ctl 0x2C9))
    ∧ (∀ ch : Fin 17, MayWrite s ini →
      Runs (.minmaxClr ini ch) s (fun t => OnlyChanges [.sns] s t
        ∧ (vget t.ctl.sns ch.val Sns.reset) =
          { vget s.ctl.sns ch.val Sns.reset with
            min := (vget s.ctl.sns ch.val Sns.reset).code
            max := (vget s.ctl.sns ch.val Sns.reset).code }))

/-- R373 to R378, R518: the hold-up measurement. A request starts it when its conditions hold and defers it otherwise; V0 switches the
load on unless the bank has not settled; the droop switches it off; the end takes an accepted result into force and keeps the old one
otherwise; an abort or a missing droop keeps it too; the recomputation takes the lowest voltage of the last second.
Choices of the model: log entries 24 and 71. -/
def Obligations.HoldUpMeasurement : Prop :=
  ∀ (ini : Byte) (s : State), aonOn s.ctl = true →
    let fails (i : Instr) (res : Nat) := Runs i s (fun t => OnlyChanges [.hold, .fcu, .mgmt, .lds, .out] s t
      ∧ t.ctl.hold.phase = .idle ∧ t.ctl.hold.loadEn = false ∧ t.ctl.hold.result = res
      ∧ t.ctl.hold.inForce = s.ctl.hold.inForce ∧ Raised t.ctl 0x2CB)
    let begun := s.withHold { s.ctl.hold with phase := .settle, result := 2, deferred := false }
    (MayWrite s ini → s.ctl.hold.phase = .idle → holdReady s.ctl = true → exec (.holdMeasure ini) s = .next begun)
    ∧ (MayWrite s ini → s.ctl.hold.phase = .idle → holdReady s.ctl = false →
      exec (.holdMeasure ini) s = .next (s.withHold { s.ctl.hold with deferred := true }))
    ∧ (MayWrite s ini → s.ctl.hold.phase ≠ .idle → Runs (.holdMeasure ini) s (fun t => OnlyChanges [.heads, .mgmt] s t))
    ∧ (s.ctl.hold.deferred = true → s.ctl.hold.phase = .idle → holdReady s.ctl = true →
      exec .holdMeasurementStart s = .next begun
      ∧ (s.ctl.glb.mode.service = true → exec .holdDeferRetry s = .next begun ∧ exec .holdPeriodExpiry s = .next begun))
    ∧ (∀ v0 span, s.ctl.hold.phase = .settle →
      (span ≤ 4 → exec (.holdV0Sample v0 span) s =
        .next (s.withHold { s.ctl.hold with v0 := v0, loadEn := true, phase := .load }))
      ∧ (4 < span → fails (.holdV0Sample v0 span) 9))
    ∧ (∀ v1 v2 dt, s.ctl.hold.phase = .load →
      (v2 + s.ctl.pwrImg.droop ≤ s.ctl.hold.v0 → exec (.holdDroopReached v1 v2 dt) s =
        .next (s.withHold { s.ctl.hold with v1 := v1, v2 := v2, dt := dt, loadEn := false, phase := .recover }))
      ∧ fails .holdDroopTimeout 5)
    ∧ (∀ v3 m, s.ctl.hold.phase = .recover → holdResult s.ctl v3 = .inr m →
      Runs (.holdMeasurementEnd v3) s (fun t => OnlyChanges [.hold, .fcu, .mgmt, .lds, .out, .alc, .budget, .twin] s t
        ∧ (pairedNow s.ctl = false → t.ctl.twin = s.ctl.twin)
        ∧ t.ctl.hold.inForce = some m ∧ t.ctl.hold.result = 1 ∧ t.ctl.hold.phase = .idle))
    ∧ (∀ v3 n, s.ctl.hold.phase = .recover → holdResult s.ctl v3 = .inl n → fails (.holdMeasurementEnd v3) n)
    ∧ (s.ctl.hold.phase ≠ .idle → fails (.holdMeasurementAbort true) 3 ∧ fails (.holdMeasurementAbort false) 4)
    ∧ (holdWaits s.ctl = true → Runs .holdChargeWaitExpiry s (fun t => OnlyChanges [.fcu] s t ∧ Raised t.ctl 0x2CD))
    ∧ (∀ code low, s.ctl.glb.mode ≠ .start →
      Runs (.holdEnergyRecompute code low true) s (fun t => OnlyChanges [.hold, .sns, .budget, .fcu, .twin, .out] s t
        ∧ (pairedNow s.ctl = false → t.ctl.twin = s.ctl.twin ∧ t.ctl.out = s.ctl.out)
        ∧ t.ctl.hold.vBank = codeMv s.ctl (BitVec.toNat code) ∧ t.ctl.hold.settled = true
        ∧ t.ctl.hold.vStart = startMv s.ctl low ∧ t.ctl.hold.dbHold = dbHoldAt s.ctl (startMv s.ctl low)))

/-- R387, R534: the junction sensors. Throttling begins in SERVICE and raises its source, whose condition ends with it; the high and the
critical limit raise theirs. -/
def Obligations.ThermalReactions : Prop :=
  ∀ s : State, aonOn s.ctl = true →
    (s.ctl.glb.mode.service = true → s.ctl.throttling = false → (srcAt s.ctl 0x2D5).condition = false →
      Runs .thermalThrottleStart s (fun t => OnlyChanges [.throttling, .fcu] s t ∧ t.ctl.throttling = true ∧ Raised t.ctl 0x2D5))
    ∧ (s.ctl.throttling = true →
      Runs .thermalThrottleEnd s (fun t => OnlyChanges [.throttling, .fcu] s t ∧ t.ctl.throttling = false
        ∧ (srcAt t.ctl 0x2D5).condition = false))
    ∧ Runs .thermalHigh s (fun t => OnlyChanges [.fcu] s t ∧ Raised t.ctl 0x2D6)
    ∧ Runs .thermalCritical s (fun t => OnlyChanges [.fcu] s t ∧ Raised t.ctl 0x2D7)

/-- R397, R398, R402, R403, R407: what the root decides of one waiting message. A stale, consequential or fenced message and one of class
S0 is entered in the log with its flag and causes no reaction; a message of class S2 in SERVICE starts a save of cause 0x10 with code
0x31; one of class S3 always acts: FATAL is latched and the device enters STANDBY with code 0x7F.
Choices of the model: log entries 23 and 82. -/
def Obligations.FaultDecisionOrder : Prop :=
  ∀ (src : Fin 768) (m : FMsg) (s : State), aonOn s.ctl = true → s.ctl.fcu.waiting = [m] → m.source = src.val →
    s.ctl.fcu.self = false → s.ctl.fcu.frozen = false → m.source ≠ 0x2DF →
    let cls := classOf s.ctl m.source
    let u := unitOf s.ctl.vlt.targets m.source m.addr
    let logged (P : LogEntry → Prop) := Runs (.faultMessage src) s (fun t => OnlyChanges [.fcu, .alc] s t
      ∧ t.ctl.fcu.unit = s.ctl.fcu.unit ∧ ∃ e, tget t.ctl.fcu.log s.ctl.fcu.next = some e ∧ e.source = m.source ∧ e.kind = m.kind ∧ P e)
    (cls ≠ .s3 → loggedLately s.ctl m = false → m.rgen ≠ (unitAt s.ctl u).rgen → (srcAt s.ctl m.source).condition = false →
      logged (fun e => e.stale = true ∧ e.reaction = 0))
    ∧ (∀ w, cls ≠ .s3 → loggedLately s.ctl m = false → m.rgen = (unitAt s.ctl u).rgen → windowOf s.ctl m = some w →
      logged (fun e => e.conseq = true ∧ e.cause = w.cause ∧ e.reaction = 0))
    ∧ (cls = .s1 ∨ cls = .s2 → m.rgen = (unitAt s.ctl u).rgen → windowOf s.ctl m = none → unitFenced s.ctl u = true →
      logged (fun e => e.fenced = true ∧ e.reaction = 0))
    ∧ (cls = .s0 → loggedLately s.ctl m = false → m.rgen = (unitAt s.ctl u).rgen → windowOf s.ctl m = none →
      logged (fun e => e.stale = false ∧ e.conseq = false ∧ e.fenced = false ∧ e.reaction = 0))
    ∧ (cls = .s2 → m.rgen = (unitAt s.ctl u).rgen → windowOf s.ctl m = none → unitFenced s.ctl u = false →
        s.ctl.glb.mode.service = true → s.ctl.seq.running ≠ .down →
      Runs (.faultMessage src) s (fun t => t.pending = s.pending ∧ t.dev.mem = s.dev.mem ∧ t.ctl.glb.mode = .save
        ∧ t.ctl.glb.ltCode = 0x31 ∧ t.ctl.gals = s.ctl.gals
        ∧ ∃ r, t.ctl.svr.run = some r ∧ r.saved.cause = 0x10 ∧ r.source = m.source ∧ r.kind = m.kind ∧ r.downAfter = false))
    ∧ (cls = .s3 → s.ctl.glb.fatal = false →
      Runs (.faultMessage src) s (fun t => t.pending = s.pending ∧ t.dev.mem = s.dev.mem ∧ t.ctl.glb.fatal = true
        ∧ t.ctl.glb.mode = .standby ∧ t.ctl.glb.ltCode = 0x7F ∧ (∀ k < 16, (railAt t.ctl k).en = false) ∧ t.ctl.seq.tripCause = 5))

/-- R381, R394, R396, R401, R405, R406, R412, R413, R416, R440, R464: what else reaches the collector. A force raises its source with kind
0x3F and the writer's initiator, an S3 source only while armed; ARM_FATAL and its expiry; the capture is cleared; a head's fence is
lifted; a window closes; a held generation advance takes effect; a self-fault in SERVICE starts a save; a unit's error raises its source,
with the count, the flag, the lost record copy or the damaged page 0 that some errors bring; a kind that R383 never raises does nothing.
Choices of the model: log entries 23, 74 and 126. -/
def Obligations.CollectorControls : Prop :=
  ∀ (ini : Byte) (src : Fin 768) (s : State), MayWrite s ini →
    let forced : FMsg :=
      { source := src.val, kind := 0x3F, addr := 0, ini := ini.toNat, access := 6
        rgen := (unitAt s.ctl (unitOf s.ctl.vlt.targets src.val 0)).rgen, rep := 0, forced := true }
    (srcDefined src.val = true → classOf s.ctl src.val ≠ .s3 → (∀ m ∈ s.ctl.fcu.waiting, m.source ≠ src.val) →
      Runs (.fcuForce ini src) s (fun t => OnlyChanges [.fcu] s t ∧ t.ctl.fcu.waiting = s.ctl.fcu.waiting ++ [forced]))
    ∧ (srcDefined src.val = true → classOf s.ctl src.val = .s3 → s.ctl.fcu.armed = true →
        (∀ m ∈ s.ctl.fcu.waiting, m.source ≠ src.val) →
      Runs (.fcuForce ini src) s (fun t => OnlyChanges [.fcu] s t ∧ t.ctl.fcu.waiting = s.ctl.fcu.waiting ++ [forced]
        ∧ t.ctl.fcu.armed = false))
    ∧ (srcDefined src.val = true → classOf s.ctl src.val = .s3 → s.ctl.fcu.armed = false →
      Runs (.fcuForce ini src) s (fun t => OnlyChanges [.heads, .mgmt] s t))
    ∧ exec (.armFatal ini) s = .next (s.withFcu { s.ctl.fcu with armed := true })
    ∧ exec .armFatalExpiry s = .next (s.withFcu { s.ctl.fcu with armed := false })
    ∧ exec (.captureClr ini) s = .next (s.withFcu { s.ctl.fcu with captured := none, captureMore := false })
    ∧ (∀ h : Fin 16, headFenced s.ctl h.val = true →
      Runs (.fcuHeadUnfence ini (1 <<< h.val)) s (fun t => OnlyChanges [.fcu] s t ∧ headFenced t.ctl h.val = false
        ∧ ∀ k, k ≠ h.val → unitAt t.ctl k = unitAt s.ctl k))
    ∧ (∀ ev, exec (.consequentialWindowExpiry ev) s =
      .next (s.withFcu { s.ctl.fcu with windows := s.ctl.fcu.windows.filter (fun w => w.ev != ev) }))
    ∧ (∀ u : Fin 576, unitDefined u.val = true → 0 < (unitAt s.ctl u.val).held →
      Runs (.roleGenerationAdvance u) s (fun t => OnlyChanges [.fcu] s t
        ∧ unitAt t.ctl u.val = { unitAt s.ctl u.val with
            rgen := ((unitAt s.ctl u.val).rgen + 1) % 16
            held := (unitAt s.ctl u.val).held - 1 }))
    ∧ (∀ cause : Fin 5, cause ≠ 0 → s.ctl.fcu.self = false → s.ctl.glb.mode.service = true → s.ctl.seq.running ≠ .down →
      Runs (.collectorSelfCheck cause false) s (fun t => t.pending = s.pending ∧ t.dev.mem = s.dev.mem ∧ t.ctl.fcu.self = true
        ∧ t.ctl.fcu.selfCause = cause.val ∧ t.ctl.glb.mode = .save ∧ t.ctl.glb.ltCode = 0x31))
    ∧ (∀ kind addr i access, 0x13 < kind.toNat → exec (.internalErrorDetected src kind addr i access) s = .next s)
    ∧ (∀ kind addr i access, kind.toNat ≤ 0x13 → 0x2C0 ≤ src.val → srcDefined src.val = true → isCondition src.val = false →
        src.val ∉ [0x2E1, 0x2E2, 0x2E3, 0x2E4, 0x2E7, 0x2E8, 0x2F6, 0x2F9] →
      Runs (.internalErrorDetected src kind addr i access) s (fun t => OnlyChanges [.fcu] s t ∧ Raised t.ctl src.val))
    ∧ (∀ kind addr i access, kind.toNat ≤ 0x13 →
      Runs (.internalErrorDetected 0x2E7 kind addr i access) s (fun t => OnlyChanges [.fcu, .alc] s t
        ∧ t.ctl.alc.ce = satInc s.ctl.alc.ce 0xFFFF ∧ t.ctl.alc.recs = s.ctl.alc.recs ∧ t.ctl.alc.cells = s.ctl.alc.cells ∧ Raised t.ctl 0x2E7)
      ∧ Runs (.internalErrorDetected 0x2E1 kind 0x8C00 i access) s (fun t => OnlyChanges [.fcu, .alc] s t
        ∧ slotAt t.ctl 0x05 = { slotAt s.ctl 0x05 with a := .damaged } ∧ Raised t.ctl 0x2E1)
      ∧ Runs (.internalErrorDetected 0x2E8 kind 0x30 i access) s (fun t => OnlyChanges [.fcu, .alc] s t
        ∧ page0Class t.ctl = .damaged ∧ Raised t.ctl 0x2E8)
      ∧ Runs (.internalErrorDetected 0x2F6 kind addr i access) s (fun t => OnlyChanges [.fcu, .rtc] s t
        ∧ t.ctl.rtc = { s.ctl.rtc with oscStopped := true } ∧ Raised t.ctl 0x2F6)
      ∧ Runs (.internalErrorDetected 0x2F9 kind addr i access) s (fun t => OnlyChanges [.fcu, .clk] s t
        ∧ t.ctl.clk.overrun = satInc s.ctl.clk.overrun 0xFFFFFFFF ∧ Raised t.ctl 0x2F9))

/-- R428 to R430: FLUSH and the 100 ms limit start a commit of a buffer that holds writes; the commit writes a record to both copies
under the next SEQ and empties the buffer; an urgent commit carries its records alone, takes them out of the buffer and is followed by
the fault entries that wait for it.
Choices of the model: log entry 72. -/
def Obligations.AlcoveCommits : Prop :=
  ∀ (ini : Byte) (id : Nat) (v : RecVal) (s : State), MayWrite s ini → s.ctl.alc.ready = true →
    (s.ctl.alc.buf ≠ [] →
      exec (.alcFlush ini) s = .next (s.withAlc { s.ctl.alc with busy := true })
      ∧ exec .gatheredWriteExpiry s = .next (s.withAlc { s.ctl.alc with busy := true }))
    ∧ (s.ctl.alc.busy = true → s.ctl.alc.buf = [.record id v] →
      Runs .alcoveCommit s (fun t => OnlyChanges [.alc, .fcu] s t ∧ t.ctl.alc.buf = [] ∧ t.ctl.alc.busy = false
        ∧ t.ctl.alc.journal.state = 2 ∧ t.ctl.alc.commits = (s.ctl.alc.commits + 1) % 2 ^ 32
        ∧ (let n := ((slotAt s.ctl id).pick.map (fun x => x.1)).getD 0 + 1
           slotAt t.ctl id = { a := .valid n v, b := .valid n v })))
    ∧ (s.ctl.alc.urgent = [(id, v)] →
      Runs .urgentCommit s (fun t => OnlyChanges [.alc, .fcu] s t ∧ t.ctl.alc.urgent = [] ∧ t.ctl.fcu.alcDue = []
        ∧ t.ctl.alc.ringQ = s.ctl.fcu.alcDue.map (fun e => (5, .fault e)) ++ s.ctl.alc.ringQ
        ∧ (∀ w, .record id w ∉ t.ctl.alc.buf)
        ∧ (let n := ((slotAt s.ctl id).pick.map (fun x => x.1)).getD 0 + 1
           slotAt t.ctl id = { a := .valid n v, b := .valid n v })))

/-- R435: a ring update writes the slot after the newest, with SEQ one higher, and no other slot; the hourly write gathers the page
counts into WEAR (R437); the margin scan counts its page and moves to the next (R436).
Choices of the model: log entry 12. -/
def Obligations.AlcoveRingsWearAndMargin : Prop :=
  ∀ (r : Nat) (v : RingVal) (q : List (Nat × RingVal)) (weak : Nat) (s : State),
    aonOn s.ctl = true → s.ctl.alc.ready = true →
    (s.ctl.alc.ringQ = (r, v) :: q →
      Runs .ringSlotWrite s (fun t => OnlyChanges [.alc, .fcu] s t ∧ t.ctl.alc.ringQ = q
        ∧ (aringAt t.ctl r).newest = (aringAt s.ctl r).newest + 1
        ∧ tget (aringAt t.ctl r).slots (((aringAt s.ctl r).newest + 1) % ringSlots r) =
            some (.valid ((aringAt s.ctl r).newest + 1) v)
        ∧ (∀ p, p ≠ ((aringAt s.ctl r).newest + 1) % ringSlots r →
            tget (aringAt t.ctl r).slots p = tget (aringAt s.ctl r).slots p)
        ∧ (∀ k, k ≠ r → aringAt t.ctl k = aringAt s.ctl k)))
    ∧ (s.ctl.alc.buf = [] →
      exec .wearHourlyWrite s = .next (s.withAlc { s.ctl.alc with buf := [.record 0x08 (.wear s.ctl.alc.wear)] }))
    ∧ (s.ctl.alc.buf = [] → s.ctl.alc.marginPage < 127 →
      Runs (.marginScanPage weak) s (fun t => OnlyChanges [.alc, .fcu] s t ∧ t.ctl.alc.marginRun = true
        ∧ t.ctl.alc.marginPage = s.ctl.alc.marginPage + 1
        ∧ tgetD t.ctl.alc.wear s.ctl.alc.marginPage 0 = tgetD s.ctl.alc.wear s.ctl.alc.marginPage 0 + 512 + Nat.min weak 512
        ∧ t.ctl.alc.buf = [.record 0x09 (.margin (s.ctl.alc.marginPage + 1) s.ctl.alc.marginTime)]))

/-- R421, R422: the key locks page 0 only when the page is whole, and no other value does; a write raises block protection at once and
commits it, and none lowers it after the boot lock. -/
def Obligations.AlcoveLockAndProtection : Prop :=
  ∀ (ini : Byte) (key : BitVec 32) (bp : Fin 4) (s : State), MayWrite s ini →
    (s.ctl.alc.locked = false → page0Valid s.ctl = true →
      Runs (.alcKey ini 0x4C4F434B) s (fun t => OnlyChanges [.alc, .fcu] s t ∧ t.ctl.alc.locked = true
        ∧ t.ctl.alc.cells = s.ctl.alc.cells))
    ∧ (key ≠ 0x4C4F434B ∨ s.ctl.alc.locked = true →
      Runs (.alcKey ini key) s (fun t => OnlyChanges [.heads, .mgmt] s t))
    ∧ (s.ctl.alc.locked = false → page0Valid s.ctl = false →
      Runs (.alcKey ini 0x4C4F434B) s (fun t => OnlyChanges [.alc, .fcu, .heads, .mgmt] s t ∧ t.ctl.alc.locked = false))
    ∧ (s.ctl.alc.bp < bp.val → s.ctl.alc.buf = [] → s.ctl.alc.urgent = [] →
      Runs (.alcBp ini bp) s (fun t => OnlyChanges [.alc, .fcu] s t ∧ t.ctl.alc.bp = bp.val
        ∧ recOf t.ctl 0x07 = some (.protect bp.val)))
    ∧ (bp.val < s.ctl.alc.bp → s.ctl.boot.locked = true →
      Runs (.alcBp ini bp) s (fun t => OnlyChanges [.heads, .mgmt] s t))

/-- R423: the window. Naming another page clears WIN_LOADED and asks for a load, the load ends with the page's words, a read returns the
word named and advances WORD, and a write is taken by the OEM area and refused, counted and reported for the device's own pages. -/
def Obligations.AlcoveWindow : Prop :=
  ∀ (ini : Byte) (val : Word) (s : State), MayWrite s ini →
    (fieldOf val.toNat 18 12 ≠ s.ctl.alc.winPage →
      exec (.winAddrWrite ini val) s = .next (s.withAlc { s.ctl.alc with
        winPage := fieldOf val.toNat 18 12
        winWord := fieldOf val.toNat 11 3
        winLoaded := false
        loading := true }))
    ∧ (s.ctl.alc.ready = true → s.ctl.alc.loading = true →
      Runs .pageLoadDone s (fun t => OnlyChanges [.alc, .fcu] s t ∧ t.ctl.alc.winLoaded = true
        ∧ t.ctl.alc.pageBuf = renderPage s.ctl s.ctl.alc.winPage
        ∧ tgetD t.ctl.alc.wear s.ctl.alc.winPage 0 = tgetD s.ctl.alc.wear s.ctl.alc.winPage 0 + 512))
    ∧ (s.ctl.alc.winLoaded = true →
      Runs (.winDataRead ini) s (fun t => OnlyChanges [.alc, .out] s t
        ∧ t.ctl.alc = { s.ctl.alc with winWord := (s.ctl.alc.winWord + 1) % 512 }
        ∧ t.ctl.out = .cxlIoData ini.toNat 0x780028 (tgetD s.ctl.alc.pageBuf s.ctl.alc.winWord 0) :: s.ctl.out))
    ∧ (s.ctl.alc.winLoaded = false →
      Runs (.winDataRead ini) s (fun t => OnlyChanges [.heads, .mgmt, .out] s t
        ∧ t.ctl.out = .cxlIoData ini.toNat 0x780028 0 :: s.ctl.out))
    ∧ (64 ≤ s.ctl.alc.winPage → s.ctl.alc.bp = 0 → s.ctl.alc.buf = [] → s.ctl.alc.winLoaded = true →
      exec (.winDataWrite ini val) s = .next (s.withAlc { s.ctl.alc with
        buf := [.win (s.ctl.alc.winPage * 4096 + 8 * s.ctl.alc.winWord) val]
        pageBuf := tset s.ctl.alc.pageBuf s.ctl.alc.winWord val
        winWord := (s.ctl.alc.winWord + 1) % 512 }))
    ∧ (0 < s.ctl.alc.winPage → s.ctl.alc.winPage < 64 →
      Runs (.winDataWrite ini val) s (fun t => OnlyChanges [.alc, .fcu] s t
        ∧ t.ctl.alc = { s.ctl.alc with refused := satInc s.ctl.alc.refused 0xFFFF } ∧ Raised t.ctl 0x2E9))

/-- R445 to R447: setting the time. HALT stops the counter at the next oscillator edge and edges leave the held value as it is; a time write while
HALTED is applied at once, one before that at the edge that sets HALTED, and both set ADJUSTED; one while HALT is 0 is ignored and counted;
the resume after a time write clears OSC_STOPPED and raises TIME_SET, one without changes neither; the next edge clears HALTED with the
held value unchanged, and the edge after it advances the counter. -/
def Obligations.RtcSetTimeProcedure : Prop :=
  ∀ (ini : Byte) (val : Word) (s : State), MayWrite s ini →
    (s.ctl.rtc.halt = false →
      exec (.rtcHalt ini) s = .next (s.withRtc { s.ctl.rtc with halt := true, wrote := false }))
    ∧ (s.ctl.rtc.halt = true → s.ctl.rtc.halted = false → Runs .backupDomainWriteEffective s (fun t => OnlyChanges [.rtc, .fcu] s t
        ∧ t.ctl.rtc.halted = true ∧ t.ctl.rtc.heldSec = none ∧ t.ctl.rtc.heldFrac = none
        ∧ t.ctl.rtc.seconds = s.ctl.rtc.heldSec.getD s.ctl.rtc.seconds ∧ t.ctl.rtc.frac = s.ctl.rtc.heldFrac.getD s.ctl.rtc.frac))
    ∧ (s.ctl.rtc.halt = true → s.ctl.rtc.halted = true → Runs .backupDomainWriteEffective s (fun t => OnlyChanges [.rtc] s t
        ∧ t.ctl.rtc.halted = true ∧ t.ctl.rtc.seconds = s.ctl.rtc.seconds ∧ t.ctl.rtc.frac = s.ctl.rtc.frac))
    ∧ (s.ctl.rtc.halt = false → s.ctl.rtc.halted = false → Runs .backupDomainWriteEffective s (fun t => OnlyChanges [.rtc] s t
        ∧ t.ctl.rtc.halted = false ∧ t.ctl.rtc.frac ≠ s.ctl.rtc.frac))
    ∧ (s.ctl.rtc.halt = true → s.ctl.rtc.halted = false →
      exec (.timeWrite ini 0x7C0018 8 val) s =
        .next (s.withRtc { s.ctl.rtc with heldSec := some (val.setWidth 40), adjusted := true, wrote := true })
      ∧ exec (.timeWrite ini 0x7C0008 8 val) s =
        .next (s.withRtc { s.ctl.rtc with heldFrac := some ((val >>> 8).setWidth 24), adjusted := true, wrote := true }))
    ∧ (s.ctl.rtc.halt = true → s.ctl.rtc.halted = true → s.ctl.rtc.heldSec = none → s.ctl.rtc.heldFrac = none →
      s.ctl.rtc.armed = false →
      exec (.timeWrite ini 0x7C0018 8 val) s =
        .next (s.withRtc { s.ctl.rtc with seconds := val.setWidth 40, adjusted := true, wrote := true })
      ∧ exec (.timeWrite ini 0x7C0008 8 val) s =
        .next (s.withRtc { s.ctl.rtc with frac := (val >>> 8).setWidth 24, adjusted := true, wrote := true }))
    ∧ (s.ctl.rtc.halt = false →
      Runs (.timeWrite ini 0x7C0018 8 val) s (fun t => OnlyChanges [.rtc, .heads, .mgmt] s t
        ∧ t.ctl.rtc = { s.ctl.rtc with ignored := satInc s.ctl.rtc.ignored 0xFFFF }
        ∧ (ini = 0x60 → t.ctl.mgmt.viol.ignored = satInc s.ctl.mgmt.viol.ignored 0xFFFFFFFF)))
    ∧ (s.ctl.rtc.halt = true → s.ctl.rtc.wrote = true → Runs (.rtcResume ini) s (fun t => OnlyChanges [.rtc, .fcu] s t ∧ t.ctl.rtc.halt = false
        ∧ t.ctl.rtc.wrote = false ∧ t.ctl.rtc.oscStopped = false ∧ Raised t.ctl 0x2F5
        ∧ (s.ctl.rtc.halted = true → t.ctl.rtc = { s.ctl.rtc with halt := false, wrote := false, oscStopped := false })))
    ∧ (s.ctl.rtc.halt = true → s.ctl.rtc.wrote = false → s.ctl.rtc.heldSec = none → s.ctl.rtc.heldFrac = none →
      Runs (.rtcResume ini) s (fun t => OnlyChanges [.rtc] s t ∧ t.ctl.rtc.halt = false ∧ t.ctl.rtc.oscStopped = s.ctl.rtc.oscStopped
        ∧ (s.ctl.rtc.halted = true → t.ctl.rtc = { s.ctl.rtc with halt := false })))
    ∧ (s.ctl.rtc.halt = false → s.ctl.rtc.halted = true →
      Runs .backupDomainWriteEffective s (fun t => OnlyChanges [.rtc] s t ∧ t.ctl.rtc.halted = false
        ∧ t.ctl.rtc.seconds = s.ctl.rtc.seconds ∧ t.ctl.rtc.frac = s.ctl.rtc.frac))

/-- R441: each edge of a running oscillator adds 511, 512 or 513 to the fraction by the sign of the trim in force, and a carry advances
SECONDS by one: the time in units of 2^-24 s grows by that increment, modulo the width of the counter; RTC_SECONDS_CARRY runs edges
until SECONDS has advanced by one. The switch of supplies changes nothing (R439), and a stopped oscillator sets OSC_STOPPED (R440).
Choices of the model: log entries 4 and 17. -/
def Obligations.RtcCounterAdvances : Prop :=
  ∀ s : State,
    (s.ctl.rtc.halt = false → s.ctl.rtc.halted = false → s.ctl.rtc.trim.natAbs ≤ 8192 → s.ctl.rtc.trimNow.natAbs ≤ 8192 →
      ∃ n, 511 ≤ n ∧ n ≤ 513
        ∧ Runs .backupDomainWriteEffective s (fun t => OnlyChanges [.rtc] s t
          ∧ (t.ctl.rtc.seconds.toNat * 2 ^ 24 + t.ctl.rtc.frac.toNat) % 2 ^ 64 =
            (s.ctl.rtc.seconds.toNat * 2 ^ 24 + s.ctl.rtc.frac.toNat + n) % 2 ^ 64))
    ∧ (s.ctl.rtc.halt = false → s.ctl.rtc.halted = false → s.ctl.rtc.armed = false → s.ctl.rtc.trim = 0 →
        s.ctl.rtc.trimNow = 0 →
      Runs .rtcSecondsCarry s (fun t => OnlyChanges [.rtc] s t ∧ t.ctl.rtc.seconds = s.ctl.rtc.seconds + 1
        ∧ t.ctl.rtc.frac.toNat < 512))
    ∧ (∀ b, exec (.vbatSwitchover b) s = .next s)
    ∧ (aonOn s.ctl = true →
      Runs .oscStopDetected s (fun t => OnlyChanges [.rtc, .fcu] s t ∧ t.ctl.rtc = { s.ctl.rtc with oscStopped := true }
        ∧ ((srcAt s.ctl 0x2F0).condition = false → Raised t.ctl 0x2F0)))
    ∧ (∀ low, aonOn s.ctl = true →
      Runs (.vbatLow low) s (fun t => OnlyChanges [.rtc, .fcu] s t ∧ t.ctl.rtc = { s.ctl.rtc with vbatLow := low }
        ∧ (low = true → (srcAt s.ctl 0x2F1).condition = false → Raised t.ctl 0x2F1)))

/-- R453, R454, R456: arming, disarming and firing of the alarm. An arming write of a time to come arms; one whose value is due fires at
once, except while HALTED; a write with ARMED 0 disarms; the armed alarm fires at the edge whose carry reaches it, and at a time write
that reaches it, at once or at the edge that applies it, then with FIRED_BY_ADJUST and ALARM_BY_ADJUST; it fires no other way, and never
disarmed; firing in OFF or STANDBY with WAKE set sets the alarm cause. CANCEL_REQ clears both causes of PWR_ON_REQ.
Choices of the model: log entry 19. -/
def Obligations.RtcAlarm : Prop :=
  ∀ (ini : Byte) (val : Word) (s : State), MayWrite s ini →
    let cause := s.ctl.rtc.causeAlarm || (s.ctl.rtc.wake && (s.ctl.glb.mode == .off || s.ctl.glb.mode == .standby))
    let fires (t : State) (byWrite : Bool) := t.ctl.rtc.armed = false ∧ t.ctl.rtc.fired = true ∧ t.ctl.rtc.causeAlarm = cause
      ∧ t.ctl.rtc.firedByAdjust = (s.ctl.rtc.firedByAdjust || byWrite) ∧ (byWrite = true → Raised t.ctl 0x2F4)
    let quiet (t : State) := t.ctl.rtc.armed = s.ctl.rtc.armed ∧ t.ctl.rtc.fired = s.ctl.rtc.fired ∧ t.ctl.rtc.causeAlarm = s.ctl.rtc.causeAlarm
      ∧ t.ctl.rtc.firedByAdjust = s.ctl.rtc.firedByAdjust
    (s.ctl.rtc.seconds.toNat < (val.setWidth 40 : BitVec 40).toNat →
      exec (.alarmArm ini val) s =
        .next (s.withRtc { s.ctl.rtc with alarm := val.setWidth 40, armed := true, wake := val.getLsbD 41 }))
    ∧ ((val.setWidth 40 : BitVec 40).toNat ≤ s.ctl.rtc.seconds.toNat → s.ctl.rtc.halted = false →
      exec (.alarmArm ini val) s =
        .next (s.withRtc { s.ctl.rtc with
          alarm := val.setWidth 40
          armed := false
          wake := val.getLsbD 41
          fired := true
          causeAlarm := s.ctl.rtc.causeAlarm || (val.getLsbD 41 && (s.ctl.glb.mode == .off || s.ctl.glb.mode == .standby)) }))
    ∧ ((val.setWidth 40 : BitVec 40).toNat ≤ s.ctl.rtc.seconds.toNat → s.ctl.rtc.halted = true →
      exec (.alarmArm ini val) s = .next (s.withRtc { s.ctl.rtc with alarm := val.setWidth 40, armed := true, wake := val.getLsbD 41 }))
    ∧ exec (.alarmDisarm ini val) s =
        .next (s.withRtc { s.ctl.rtc with alarm := val.setWidth 40, armed := false, wake := val.getLsbD 41 })
    ∧ (s.ctl.rtc.halt = false → s.ctl.rtc.halted = false → Runs .backupDomainWriteEffective s (fun t => OnlyChanges [.rtc] s t
        ∧ if t.ctl.rtc.seconds ≠ s.ctl.rtc.seconds ∧ s.ctl.rtc.armed = true ∧ s.ctl.rtc.alarm.toNat ≤ t.ctl.rtc.seconds.toNat then fires t false else quiet t))
    ∧ (s.ctl.rtc.halted = true → Runs .backupDomainWriteEffective s quiet)
    ∧ (s.ctl.rtc.halt = true → s.ctl.rtc.halted = false → s.ctl.rtc.heldSec = some (val.setWidth 40) → Runs .backupDomainWriteEffective s (fun t =>
        t.ctl.rtc.seconds = val.setWidth 40 ∧ if s.ctl.rtc.armed = true ∧ s.ctl.rtc.alarm.toNat ≤ (val.setWidth 40 : BitVec 40).toNat then fires t true else quiet t))
    ∧ (s.ctl.rtc.halt = true → s.ctl.rtc.halted = true → Runs (.timeWrite ini 0x7C0018 8 val) s (fun t => OnlyChanges [.rtc, .fcu] s t
        ∧ t.ctl.rtc.seconds = val.setWidth 40
        ∧ if s.ctl.rtc.armed = true ∧ s.ctl.rtc.alarm.toNat ≤ (val.setWidth 40 : BitVec 40).toNat then fires t true else quiet t))
    ∧ exec (.cancelReq ini) s = .next (s.withRtc { s.ctl.rtc with causeAlarm := false, causeRestore := false })

/-- R443, R444: a read of a time register by an initiator without a freeze copies the three registers into its shadow set, later reads
return the shadow, and the read that covers the upper half of RTC_TIME_HI ends the freeze; a ninth freeze takes the set that began
earliest and counts a steal; a freeze ends after 1 ms. -/
def Obligations.RtcFreezes : Prop :=
  ∀ (ini : Byte) (s : State), MayWrite s ini →
    ((∀ f ∈ s.ctl.rtc.freezes, f.ini ≠ ini.toNat) → s.ctl.rtc.freezes.length < 8 →
      Runs (.rtcTimeRead ini 0x7C0008 8) s (fun t => OnlyChanges [.rtc, .out] s t
        ∧ t.ctl.rtc = { s.ctl.rtc with freezes := s.ctl.rtc.freezes ++ [shadowOf s.ctl ini.toNat] }
        ∧ t.ctl.out = .cxlIoData ini.toNat 0x7C0008 (rtcTimeLo s.ctl.rtc) :: s.ctl.out))
    ∧ (∀ f, s.ctl.rtc.freezes.find? (fun x => x.ini == ini.toNat) = some f →
      Runs (.rtcTimeRead ini 0x7C0010 8) s (fun t => OnlyChanges [.out] s t
        ∧ t.ctl.out = .cxlIoData ini.toNat 0x7C0010 f.cal :: s.ctl.out)
      ∧ Runs (.rtcTimeRead ini 0x7C001C 4) s (fun t => OnlyChanges [.rtc, .out] s t
        ∧ t.ctl.rtc = { s.ctl.rtc with freezes := s.ctl.rtc.freezes.filter (fun x => x.ini != ini.toNat) }
        ∧ t.ctl.out = .cxlIoData ini.toNat 0x7C001C (f.hi >>> 32) :: s.ctl.out))
    ∧ ((∀ f ∈ s.ctl.rtc.freezes, f.ini ≠ ini.toNat) → s.ctl.rtc.freezes.length = 8 →
      Runs (.rtcTimeRead ini 0x7C0008 8) s (fun t => OnlyChanges [.rtc, .out] s t
        ∧ t.ctl.rtc = { s.ctl.rtc with
            freezes := s.ctl.rtc.freezes.tail ++ [shadowOf s.ctl ini.toNat]
            steals := satInc s.ctl.rtc.steals 0xFFFF }))
    ∧ exec (.freezeExpiry ini) s =
      .next (s.withRtc { s.ctl.rtc with freezes := s.ctl.rtc.freezes.filter (fun x => x.ini != ini.toNat) })

/-- R449 to R451: a write of RTC_TRIM sets the trim and abandons a running measurement, one outside the range changes no trim; a
measurement starts on TRIM_START or at the period's end while a reference is configured; a 1PPS measurement sets the trim to the
rounded value, held within 8,192; a lost reference abandons the measurement and raises TIME_REF_LOST. -/
def Obligations.RtcTrim : Prop :=
  ∀ (ini : Byte) (v : BitVec 16) (k : Nat) (s : State), MayWrite s ini →
    (v.toInt.natAbs ≤ 8192 → s.ctl.rtc.measRes ≠ .running →
      exec (.rtcTrim ini v) s = .next (s.withRtc { s.ctl.rtc with trim := v.toInt, trimSrc := 3 }))
    ∧ (v.toInt.natAbs ≤ 8192 → s.ctl.rtc.measRes = .running →
      exec (.rtcTrim ini v) s = .next (s.withRtc { s.ctl.rtc with trim := v.toInt, trimSrc := 3, measRes := .written }))
    ∧ (8192 < v.toInt.natAbs → Runs (.rtcTrim ini v) s (fun t => OnlyChanges [.heads, .mgmt] s t))
    ∧ (s.ctl.rtc.measRes ≠ .running → s.ctl.rtc.timeRef ≠ 0 →
      exec (.trimStart ini) s = .next (s.withRtc { s.ctl.rtc with measRes := .running })
      ∧ exec .trimPeriodExpiry s = .next (s.withRtc { s.ctl.rtc with measRes := .running }))
    ∧ (s.ctl.rtc.measRes = .running → s.ctl.rtc.timeRef = 1 → 0 < k →
      Runs (.trimMeasurementEnd k) s (fun t => OnlyChanges [.rtc, .fcu, .free] s t
        ∧ t.ctl.rtc.trim = clampInt (roundDiv ((32768 * (s.ctl.rtc.windowS : Int) - k) * 16777216) k) 8192
        ∧ t.ctl.rtc.trimSrc = 2 ∧ t.ctl.rtc.measRes ≠ .running ∧ t.ctl.rtc.seconds = s.ctl.rtc.seconds))
    ∧ (s.ctl.rtc.measRes = .running → s.ctl.rtc.timeRef ≠ 0 → (srcAt s.ctl 0x2F2).condition = false →
      Runs .timeRefLost s (fun t => OnlyChanges [.rtc, .fcu] s t
        ∧ t.ctl.rtc = { s.ctl.rtc with refLost := true, measRes := .refLost } ∧ Raised t.ctl 0x2F2))

/-- R460, R461, R463, R466, R468: clocks and crossings. A PLL that loses lock raises CORE_PLL_LOSS; the loss of the 100 MHz reference puts
the PLLs in holdover and raises PCIE_REFCLK_LOSS, its return ends holdover and 10 ms later it counts as settled; the calibration follows
the oscillator flag; a clock off its frequency raises CLK_MONITOR; an idle XSPI domain stops; an access into a stopped slice is counted
and raises CDC_TIMEOUT; a reset of one side counts what it discards.
Choices of the model: log entry 54. -/
def Obligations.ClockEvents : Prop :=
  ∀ s : State, aonOn s.ctl = true →
    (coreRuns s.ctl = true → Runs (.corePllLoss false) s (fun t => OnlyChanges [.fcu] s t ∧ Raised t.ctl 0x2FB)
      ∧ Runs (.corePllLoss true) s (fun t => OnlyChanges [.fcu] s t ∧ Raised t.ctl 0x2FB))
    ∧ (s.ctl.clk.ref100 = true → (∀ h < 16, (headAt s.ctl h).linkUp = false) → (srcAt s.ctl 0x2FC).condition = false →
      Runs .refclk100Loss s (fun t => OnlyChanges [.clk, .fcu] s t
        ∧ t.ctl.clk = { s.ctl.clk with ref100 := false, ref100Settled := false, holdover := coreRuns s.ctl } ∧ Raised t.ctl 0x2FC))
    ∧ (s.ctl.clk.ref100 = false →
      Runs (.refclk100Return false) s (fun t => OnlyChanges [.clk, .fcu] s t
        ∧ t.ctl.clk = { s.ctl.clk with ref100 := true, holdover := false } ∧ (srcAt t.ctl 0x2FC).condition = false))
    ∧ (s.ctl.clk.ref100 = true →
      exec (.refclk100Return true) s = .next (s.withClk { s.ctl.clk with ref100Settled := true }))
    ∧ exec .aonCalibration s = .next (s.withClk { s.ctl.clk with aonCal := !s.ctl.rtc.oscStopped })
    ∧ (∀ d : Fin 54, ∀ ppm : Int, s.ctl.clk.aonCal = true → s.ctl.rtc.oscStopped = false → domPll d.val = true →
        domRunning s.ctl d.val = true → 1000 < ppm.natAbs → (srcAt s.ctl 0x2FD).condition = false →
      Runs (.clockMonitorCheck d ppm) s (fun t => OnlyChanges [.clk, .fcu] s t
        ∧ (tgetD t.ctl.clk.doms d.val ClkDom.reset).offFreq = true ∧ Raised t.ctl 0x2FD))
    ∧ (s.ctl.clk.xspiOn = true → s.ctl.boot.flashOp = none → s.ctl.boot.verifying = none →
      Runs .xspiIdleStop s (fun t => OnlyChanges [.clk] s t ∧ t.ctl.clk.xspiOn = false))
    ∧ (∀ ini : Byte, ∀ a : BitVec 32, 0x40 ≤ ini.toNat → blkAnswers s.ctl (blkOf a.toNat) a.toNat = false →
      Runs (.cdcAccessTimeout ini a) s (fun t => OnlyChanges [.clk, .fcu] s t
        ∧ t.ctl.clk.timeout = satInc s.ctl.clk.timeout 0xFFFF ∧ t.ctl.clk.timeoutIni = ini.toNat
        ∧ t.ctl.clk.timeoutAddr = a.toNat ∧ Raised t.ctl 0x2F8))
    ∧ (∀ x y : Fin 54, ∀ n, domListed x.val = true → domListed y.val = true → x ≠ y → 0 < n →
      Runs (.crossingResetDiscard x y n) s (fun t => OnlyChanges [.clk, .fcu] s t
        ∧ t.ctl.clk.drop = satAdd s.ctl.clk.drop n 0xFFFFFFFF ∧ t.ctl.clk.dropLast = 256 * x.val + y.val ∧ Raised t.ctl 0x2FA))

/-- R470, R473, R474, R475, R490: the flash commands. A command that its checks allow is in progress with RESULT 2; one in progress makes
the next an illegal sequence; VAULT.SAVE, a misaligned address, a protected slot and the flash gate give RESULT 6, 7, 3 and 4; at its
end a read fills the page buffer, a program changes its 256 bytes and an erase sets its sector to FFh, and no other byte of the flash. -/
def Obligations.FlashCommands : Prop :=
  ∀ (s : State) (ini : Byte),
    let cmds (P : Instr → FlashOp → Bool → Prop) := P (.flashRead ini) .read false ∧ ∀ gate,
      P (.flashProgram ini gate) .program gate ∧ P (.flashErase4k ini gate) .erase4k gate ∧ P (.flashErase64k ini gate) .erase64k gate
    let res (n : Nat) := s.withBoot { s.ctl.boot with flashResult := n }
    let a := s.ctl.boot.flashAddr.toNat
    (MayWrite s ini → cmds (fun i op gate =>
      (s.ctl.boot.flashOp.isSome = true → Runs i s (fun t => OnlyChanges [.heads, .mgmt] s t))
      ∧ (s.ctl.boot.flashOp = none → s.ctl.glb.mode = .save → exec i s = .next (res 6))
      ∧ (s.ctl.boot.flashOp = none → s.ctl.glb.mode ≠ .save → a % flashSpan op ≠ 0 → exec i s = .next (res 7))
      ∧ (s.ctl.boot.flashOp = none → s.ctl.glb.mode ≠ .save → a % flashSpan op = 0 → flashProtected s.ctl op = true →
        Runs i s (fun t => OnlyChanges [.heads, .mgmt, .boot] s t ∧ t.ctl.boot = { s.ctl.boot with flashResult := 3 }
          ∧ (ini.toNat < 0x40 → (headAt t.ctl (ini.toNat / 4)).viol.ignored = satInc (headAt s.ctl (ini.toNat / 4)).viol.ignored 0xFFFFFFFF)
          ∧ (0x40 ≤ ini.toNat → t.ctl.mgmt.viol.ignored = satInc s.ctl.mgmt.viol.ignored 0xFFFFFFFF)))
      ∧ (flashProtected s.ctl op = true ↔ op ≠ .read ∧ s.ctl.glb.mode ≠ .standby ∧ s.ctl.glb.mode ≠ .vestibule ∧ s.ctl.boot.runSlot ≠ 0
        ∧ a < slotBase s.ctl.boot.runSlot + 0x4000000 ∧ slotBase s.ctl.boot.runSlot < a + flashSpan op)
      ∧ (s.ctl.boot.flashOp = none → s.ctl.glb.mode ≠ .save → a % flashSpan op = 0 → flashProtected s.ctl op = false →
        (gate = true → op ≠ .read → s.ctl.glb.mode.service = false → exec i s = .next (res 4))
        ∧ (gate = false ∨ s.ctl.glb.mode.service = true → Runs i s (fun t => OnlyChanges [.boot, .clk] s t
          ∧ t.ctl.boot = { s.ctl.boot with flashOp := some op, flashResult := 2 } ∧ t.ctl.clk.xspiOn = true)))))
    ∧ (∀ op ok, aonOn s.ctl = true → s.dev.mem.wf = true → s.ctl.boot.flashOp = some op →
      Runs (.flashCommandDone ok) s (fun t => OnlyChanges [.boot, .free, .flash] s t ∧ t.ctl.boot.flashOp = none
        ∧ t.ctl.boot.flashResult = (if ok then 1 else 5) ∧ t.ctl.boot.flashOps = (s.ctl.boot.flashOps + 1) % 2 ^ 32
        ∧ (op = .read → t.dev.mem.flash = s.dev.mem.flash ∧ (ok = true → ∀ i < 32,
          tgetD t.ctl.boot.buf i 0 = BitVec.ofNat 64 (flNum s.dev.mem (a + 8 * i) 8)))
        ∧ (∀ x, x < a ∨ a + flashSpan op ≤ x → cget 0xFF t.dev.mem.flash x = cget 0xFF s.dev.mem.flash x)
        ∧ (ok = true → op = .erase4k ∨ op = .erase64k → ∀ x, a ≤ x → x < a + flashSpan op → cget 0xFF t.dev.mem.flash x = 0xFF)
        ∧ (ok = true → op = .program → ∀ x, a ≤ x → x < a + 256 → cget 0xFF s.dev.mem.flash x = 0xFF →
          cget 0xFF t.dev.mem.flash x = (bufBytesOf s.ctl.boot).getD (x - a) 0)))

/-- R481, R490: VERIFY sets the slot's RESULT to 9 while its checks run, is an illegal sequence while another runs, and at its end sets the
result of the checks.
Choices of the model: log entries 12 and 56. -/
def Obligations.SlotVerification : Prop :=
  ∀ (s : State) (ini : Byte),
    (MayWrite s ini → s.ctl.boot.verifying.isSome = true →
      Runs (.verifySlotA ini) s (fun t => OnlyChanges [.heads, .mgmt] s t) ∧ Runs (.verifySlotB ini) s (fun t => OnlyChanges [.heads, .mgmt] s t))
    ∧ (MayWrite s ini → s.ctl.boot.verifying = none →
      Runs (.verifySlotA ini) s (fun t => OnlyChanges [.boot, .clk] s t ∧ t.ctl.boot.slotA.result = 9
        ∧ t.ctl.boot = { s.ctl.boot with verifying := some 1, slotA := t.ctl.boot.slotA })
      ∧ Runs (.verifySlotB ini) s (fun t => OnlyChanges [.boot, .clk] s t ∧ t.ctl.boot.slotB.result = 9
        ∧ t.ctl.boot = { s.ctl.boot with verifying := some 2, slotB := t.ctl.boot.slotB }))
    ∧ (∀ sl v, aonOn s.ctl = true → s.ctl.boot.verifying = some sl → (sl = 1 ∨ sl = 2) →
      Runs (.verifyDone v) s (fun t => OnlyChanges [.boot] s t ∧ t.ctl.boot.verifying = none
        ∧ (slotSt t.ctl sl).result = slotResult s.ctl s.dev.mem sl v))

/-- R32, R41, R351, R439, R474, R493, R494, R501, R527, R528: the power-on resets, the loss of the always-on supply and RESET_N. The always-on reset leaves
STANDBY with code 0x01, RAIL_EN, HOLD_LOAD_EN and DCH_RESET_N low, TRIP_N high-Z and FATAL 0, and keeps the clock and the flash; a loss of
supply leaves OFF with DRAM and save gone; RESET_N holds RAIL_EN, HOLD_LOAD_EN and HOLD_CHG_EN low, leaves TRIP_N as it was, and on its
release gives code 0x05 and keeps FATAL and the trip record; the backup domain's reset leaves its registers at their reset values and
PWR_ON_REQ high-Z.
Choices of the model: log entries 1, 53, 60 and 84. -/
def Obligations.SupplyAndResetN : Prop :=
  ∀ (s : State) (good pf r100 r156 : Bool),
    let lost (t : State) := t.pending = s.pending ∧ t.ctl.glb.mode = .off ∧ t.dev.mem.dram = [] ∧ t.dev.mem.poison = []
      ∧ t.ctl.svr.run = none ∧ t.ctl.boot.flashOp = none ∧ (∀ r < 16, (railAt t.ctl r).en = false)
    (s.ctl.glb.mode = .off → Runs (.alwaysOnPowerOnReset good pf r100 r156) s (fun t => t.pending = s.pending
      ∧ t.dev.mem = { s.dev.mem with dram := [], poison := [] } ∧ t.ctl.glb.mode = .standby ∧ t.ctl.glb.ltCode = 0x01
      ∧ t.ctl.glb.ltFrom = 7 ∧ t.ctl.glb.ltTo = 0 ∧ t.ctl.glb.fatal = false ∧ t.ctl.rst.lastKind = 0 ∧ t.ctl.alc.ready = true
      ∧ t.ctl.clk.ref100 = r100 ∧ t.ctl.clk.ref156 = r156 ∧ t.ctl.rtc.seconds = s.ctl.rtc.seconds ∧ t.ctl.rtc.alarm = s.ctl.rtc.alarm
      ∧ t.ctl.pf.inputGood = (good && pf) ∧ holdLoadPin t.ctl = .low ∧ tripPin t.ctl = .highZ ∧ (∀ r < 16, railEnPin t.ctl r = .low)
      ∧ ∀ k < 32, dchResetPin t.ctl k = .low))
    ∧ (∀ cut torn, s.ctl.glb.mode ≠ .off → s.ctl.boot.flashOp = none →
      Runs (.alwaysOnSupplyLoss cut torn) s (fun t => lost t ∧ t.dev.mem.flash = s.dev.mem.flash
        ∧ t.ctl.rtc.seconds = s.ctl.rtc.seconds ∧ t.ctl.rtc.trim = s.ctl.rtc.trim))
    ∧ Runs .backupDomainPowerOnReset s (fun t => t.pending = s.pending ∧ t.ctl.glb.mode = .off ∧ t.dev.mem.dram = []
        ∧ t.ctl.rtc = Rtc.reset ∧ pwrOnPin t.ctl = .highZ)
    ∧ (aonOn s.ctl = true → s.ctl.boot.flashOp = none → Runs .resetNAssert s (fun t => t.pending = s.pending
      ∧ t.dev.mem = { s.dev.mem with dram := [], poison := [] } ∧ t.ctl.glb.resetHeld = some s.ctl.glb.mode ∧ t.ctl.svr.run = none
      ∧ holdLoadPin t.ctl = .low ∧ holdChgPin t.ctl = .low ∧ tripPin t.ctl = tripPin s.ctl ∧ ∀ r < 16, railEnPin t.ctl r = .low))
    ∧ (∀ m, s.ctl.glb.resetHeld = some m → Runs (.resetNRelease good pf) s (fun t => t.pending = s.pending
      ∧ t.dev.mem = s.dev.mem ∧ t.ctl.glb.mode = .standby ∧ t.ctl.glb.resetHeld = none ∧ t.ctl.glb.ltCode = 0x05
      ∧ t.ctl.glb.ltFrom = modeCode m ∧ t.ctl.glb.fatal = s.ctl.glb.fatal ∧ t.ctl.seq.tripCause = s.ctl.seq.tripCause
      ∧ t.ctl.seq.tripN = s.ctl.seq.tripN ∧ t.ctl.rst.lastKind = 1))

/-- R471, R483, R484: stages 0 and 1. An ON request that its conditions allow runs stage 0 and starts UP with the program found, or is
withdrawn with none; stage 1 loads the slot that runs when its content is intact, falls back to the other slot, or fails the start with
the cause that was found.
Choices of the model: log entries 12, 56 and 83. -/
def Obligations.BootStages : Prop :=
  ∀ (s : State) (sfdp : Bool) (a b : SlotVerdict) (mv : Nat) (ha hb fcuOk : Bool),
    let start (c : Ctl) := c.glb.mode = .start ∧ c.boot.stage = .stage1 ∧ c.seq.running = .none
    let hash (sl : Nat) := if sl = 2 then hb else ha
    (onReady s.ctl = true →
      ((stage0 { s.dev with ctl := xspiWake s.ctl } sfdp a b).2 = true → Runs (.onRequest sfdp a b) s (fun t => t.pending = s.pending
        ∧ t.dev.mem = s.dev.mem ∧ t.ctl.glb.mode = .standby ∧ t.ctl.seq.running = .up ∧ t.ctl.seq.upRuns = (s.ctl.seq.upRuns + 1) % 2 ^ 16
        ∧ t.ctl.seq.user = 0 ∧ t.ctl.seq.evTimeout = false ∧ ∃ p, t.ctl.seq.prog = some p ∧ t.ctl.seq.pc = p.up))
      ∧ ((stage0 { s.dev with ctl := xspiWake s.ctl } sfdp a b).2 = false → Runs (.onRequest sfdp a b) s (fun t => t.pending = s.pending
        ∧ t.dev.mem = s.dev.mem ∧ t.ctl.glb = { s.ctl.glb with minOff := true } ∧ t.ctl.seq.running = .none ∧ Raised t.ctl 0x2C5)))
    ∧ (start s.ctl → fcuOk = true → s.ctl.boot.cause0 = 0 → (s.ctl.boot.runSlot = 1 ∨ s.ctl.boot.runSlot = 2) →
        hash s.ctl.boot.runSlot = true → contentResult s.dev.mem s.ctl.boot.runSlot = 0 →
      Runs (.bootStage1 mv ha hb fcuOk) s (fun t => t.pending = s.pending ∧ t.dev.mem = s.dev.mem ∧ t.ctl.boot.stage = .stage2
        ∧ t.ctl.boot.phase = .none ∧ (slotSt t.ctl s.ctl.boot.runSlot).result = 1 ∧ t.ctl.boot.vaonMv = mv % 65536
        ∧ t.ctl.glb.mode = .start))
    ∧ (start s.ctl → bootCount s.ctl < s.ctl.img.bootLimit → (fcuOk = false ∨ fcuOk = true ∧ s.ctl.boot.cause0 ≠ 0) →
      Runs (.bootStage1 mv ha hb fcuOk) s (fun t => t.pending = s.pending ∧ t.dev.mem = s.dev.mem ∧ t.ctl.glb.mode = .start
        ∧ t.ctl.glb.ltCode = 0x12 ∧ t.ctl.boot.cause = (if fcuOk then s.ctl.boot.cause0 else 0x30) ∧ t.ctl.boot.lastFailed = true
        ∧ t.ctl.boot.stage = .stage0))
    ∧ (start s.ctl → fcuOk = true → s.ctl.boot.cause0 = 0 → s.ctl.boot.runSlot = 1 → ha = false → slotAuth s.ctl 2 = true →
        hb = true → contentResult s.dev.mem 2 = 0 →
      Runs (.bootStage1 mv ha hb fcuOk) s (fun t => t.pending = s.pending ∧ t.dev.mem = s.dev.mem ∧ t.ctl.boot.stage = .stage2
        ∧ t.ctl.boot.fallback = true ∧ t.ctl.boot.runSlot = 2 ∧ t.ctl.boot.slotA.result = 6 ∧ t.ctl.boot.slotB.result = 1))

/-- R34, R134, R136, R266: stage 2 trains the channels of every gallery without its own DRAM, and with every channel trained runs the START frame and begins the
mount of the vault when the DIMMs agree, or fails the start with cause 0x11; with the vault mounted and the streams of the newest save
indexed, a paired device greets its partner.
Choices of the model: log entry 12. -/
def Obligations.BootStage2Steps : Prop :=
  ∀ (s : State) (bg : List (Bool × Fin 8)) (bm : Bool) (bf : Option Nat),
    s.ctl.glb.mode = .start → s.ctl.boot.stage = .stage2 → s.ctl.seq.running = .none →
    (s.ctl.boot.phase = .none → Runs (.bootStage2 bg bm bf) s (fun t => OnlyChanges [.boot, .dimm, .dchs] s t
      ∧ t.ctl.boot.phase = .training
      ∧ ∀ k < 32, (dchAt t.ctl k).result = if s.ctl.svr.warmGals.contains (k / 4) then (dchAt s.ctl k).result else 1))
    ∧ (∀ l, s.ctl.boot.phase = .training → trainingDone s.ctl = true → dimmOrg s.ctl = some l → prefFits (dimmSet s.ctl l) = true →
      Runs (.bootStage2 bg bm bf) s (fun t => OnlyChanges [.boot, .dimm, .gals, .pair, .vlt, .svr] s t ∧ t.ctl.boot.phase = .mounting
        ∧ (∀ g < 8, (galAt t.ctl g).frame = if galFenced s.ctl g then (galAt s.ctl g).frame else 1) ∧ t.ctl.vlt.mount = 1 ∧ t.ctl.dimm.capGib = l.getD 0 0 ∧ t.ctl.dimm.perGal = 31 * 4 * l.getD 0 0 / 32))
    ∧ (s.ctl.boot.phase = .training → trainingDone s.ctl = true → dimmOrg s.ctl = none → bootCount s.ctl < s.ctl.img.bootLimit →
      Runs (.bootStage2 bg bm bf) s (fun t => t.pending = s.pending ∧ t.dev.mem = s.dev.mem ∧ t.ctl.glb.mode = .start
        ∧ t.ctl.glb.ltCode = 0x12 ∧ t.ctl.boot.cause = 0x11))
    ∧ (s.ctl.boot.phase = .index → s.ctl.pair.paired = true → s.ctl.boot.pairWaitOver = false →
      Runs (.bootStage2 bg bm bf) s (fun t => t.pending = s.pending ∧ t.dev.mem.flash = s.dev.mem.flash ∧ t.ctl.glb = s.ctl.glb
        ∧ t.ctl.boot.phase = .pairing ∧ t.ctl.svr.restorePhase = 5 ∧ t.ctl.vlt.mount = s.ctl.vlt.mount))

/-- R35, R487, R488, R489, R495: a failed start records its cause and its slot, raises START_FAIL and starts again by a warm reset, or
enters the vestibule when the boot counter has reached its limit; a stable SERVICE clears the counter. -/
def Obligations.FailedStarts : Prop :=
  ∀ (s : State),
    let again (i : Instr) (cause : Nat) :=
      (bootCount s.ctl < s.ctl.img.bootLimit → Runs i s (fun t => t.pending = s.pending ∧ t.dev.mem = s.dev.mem
        ∧ t.ctl.glb.mode = .start ∧ t.ctl.glb.ltCode = 0x12 ∧ t.ctl.boot.cause = cause ∧ t.ctl.boot.lastFailed = true
        ∧ t.ctl.boot.failedSlot = s.ctl.boot.runSlot ∧ t.ctl.boot.stage = .stage0 ∧ t.ctl.seq.running = .none
        ∧ t.ctl.rst.warmResets = (s.ctl.rst.warmResets + 1) % 2 ^ 16 ∧ (aonOn s.ctl = true → Raised t.ctl 0x2DD)))
      ∧ (s.ctl.img.bootLimit ≤ bootCount s.ctl → Runs i s (fun t => t.pending = s.pending ∧ t.ctl.glb.mode = .vestibule
        ∧ t.ctl.glb.ltCode = 0x13 ∧ t.ctl.boot.cause = cause ∧ t.dev.mem.flash = s.dev.mem.flash ∧ t.dev.mem.dram = []))
    (starting s.ctl = true →
      (∀ cause : Byte, cause.toNat ∈ failCauses → again (.startFail cause) cause.toNat) ∧ again .startMaxExpiry 0x40
      ∧ (s.ctl.boot.stage = .stage2 → again .stewardWatchdogExpiry 0x41))
    ∧ (s.ctl.glb.mode.service = true → Runs .bootStableTimeExpiry s (fun t => OnlyChanges [.alc] s t ∧ bootCount t.ctl = 0))

/-- R277, R279, R363, R484, R495: warm resets. WARM begins a save with cause 0x21 in SERVICE and a start in VAULT.HOLD, is not accepted
with FATAL at 1 and is an illegal sequence elsewhere; the warm reset consumes the token and runs UP without clearing its flags.
Choices of the model: log entries 63, 84 and 85. -/
def Obligations.WarmResets : Prop :=
  ∀ (s : State) (ini : Byte),
    (MayWrite s ini →
      (s.ctl.glb.fatal = true → exec (.rstWarm ini) s = .next s)
      ∧ (s.ctl.glb.fatal = false → s.ctl.glb.mode.service = true → Runs (.rstWarm ini) s (fun t => t.pending = s.pending
        ∧ t.dev.mem = s.dev.mem ∧ t.ctl.glb.mode = .save ∧ t.ctl.glb.ltCode = 0x32
        ∧ ∃ r, t.ctl.svr.run = some r ∧ r.saved.cause = 0x21 ∧ r.downAfter = false))
      ∧ (s.ctl.glb.fatal = false → s.ctl.glb.mode = .hold → s.ctl.clk.ref100Settled = true → s.ctl.seq.running = .none →
        Runs (.rstWarm ini) s (fun t => t.pending = s.pending ∧ t.dev.mem = s.dev.mem ∧ t.ctl.glb.mode = .start
          ∧ t.ctl.glb.ltCode = 0x40 ∧ t.ctl.boot.stage = .stage0 ∧ t.ctl.boot.warm = true ∧ t.ctl.rst.lastKind = 3))
      ∧ (s.ctl.glb.fatal = false → s.ctl.glb.mode = .standby → Runs (.rstWarm ini) s (fun t => OnlyChanges [.heads, .mgmt] s t)))
    ∧ (∀ sfdp a b bg p, s.ctl.glb.mode = .start → s.ctl.boot.stage = .stage0 → s.ctl.seq.running = .none →
        (stage0 { s.dev with ctl := xspiWake s.ctl } sfdp a b).1.ctl.seq.prog = some p →
      Runs (.warmReset sfdp a b bg) s (fun t => t.pending = s.pending ∧ t.dev.mem.flash = s.dev.mem.flash ∧ t.ctl.glb.mode = .start
        ∧ t.ctl.boot.stage = .up ∧ t.ctl.seq.running = .up ∧ t.ctl.seq.pc = p.up ∧ t.ctl.seq.warm = true
        ∧ t.ctl.seq.user = s.ctl.seq.user
        ∧ (s.ctl.glb.ltCode = 0x40 → t.ctl.svr.token = none ∧ (s.ctl.svr.token = none → t.ctl.svr.tokenState = 4
          ∧ t.ctl.svr.warmGals = [] ∧ t.dev.mem.dram = []))))

/-- R11, R118, R119, R325, R468, R502, R503, R509, R511 to R513, R505 to R509, R519, R520: register writes and the MCTP endpoint. A write of a wrong size or
without the right is a violation, one into a stopped domain raises CDC_TIMEOUT, one that passes has the effect of its register's own
command; an offset without a register ignores it. The endpoint reads and writes registers in order and stops at the first that fails. The
layouts of MCTP control answers and return codes are PRESUMED (log entry 34).
Choices of the model: log entries 25, 34 and 70. -/
def Obligations.RegisterAccess : Prop :=
  ∀ (ini : Byte) (s : State) (v : Word), canReach s.ctl ini.toNat = true →
    let n := ini.toNat
    let write (off : BitVec 32) (size : Nat) := Instr.registerWrite ini off size v
    let passes (off : Nat) := mgmtRight s.ctl n = true ∧ blkAnswers s.ctl (blkOf off) off = true
    let vcount (c : Ctl) := if n < 0x40 then (headAt c (n / 4)).viol.violations else c.mgmt.viol.violations
    let refused (off : BitVec 32) (size src : Nat) := Runs (write off size) s (fun t => OnlyChanges [.heads, .mgmt, .fcu, .out] s t
      ∧ (n < 0x40 → Raised t.ctl (16 * (n / 4) + src) ∧ t.ctl.out = .cxlIoUr n off.toNat :: s.ctl.out)
      ∧ (n < 0x40 ∨ n = 0x60 → vcount t.ctl = satInc (vcount s.ctl) 0xFFFFFF))
    let ring (r o : Nat) : BitVec 32 := BitVec.ofNat 32 (0x1000000 + r * 0x1000 + o)
    let mctp (t : State) (l : List Byte) := t.ctl.out = .i3cIbi :: .mctp l :: s.ctl.out
    (∀ off size, (size ≠ 8 ∧ size ≠ 4 ∨ BitVec.toNat off % size ≠ 0) → refused off size 7)
    ∧ (∀ off : BitVec 32, off.toNat % 8 = 0 → accessRight s.ctl (blkOf off.toNat) n true = false →
        refused off 8 (match blkOf off.toNat with | .ring _ => 8 | _ => 7))
    ∧ (∀ off : BitVec 32, off.toNat % 8 = 0 → accessRight s.ctl (blkOf off.toNat) n true = true → blkAnswers s.ctl (blkOf off.toNat) off.toNat = false →
        Runs (write off 8) s (fun t => OnlyChanges [.clk, .fcu, .out] s t ∧ Raised t.ctl 0x2F8 ∧ t.ctl.clk.timeout = satInc s.ctl.clk.timeout 0xFFFF))
    ∧ (∀ off : BitVec 32, off.toNat % 8 = 0 → blkOf off.toNat = .none ∨ off.toNat < 0x100000 ∧ off.toNat ≠ 0x108 ∧ mgmtRight s.ctl n = true →
        exec (write off 8) s = .next s)
    ∧ (∀ r : Fin 1024, exec (write (ring r 0x20) 8) s = exec (.rngSqTail ini r (v.setWidth 16)) s
        ∧ exec (write (ring r 0x28) 8) s = exec (.rngCqHead ini r (v.setWidth 16)) s
        ∧ exec (write (ring r 0x18) 8) s = exec (if v.getLsbD 0 then .ringEnable ini r else .ringDisable ini r) s
        ∧ (gateOf s.ctl n (0x1000000 + r * 0x1000) 8 true = .ok →
          ((ringAt s.ctl r).st = .disabled → Runs (write (ring r 0) 8) s (fun t => OnlyChanges [.rings] s t
            ∧ ringAt t.ctl r = { ringAt s.ctl r with sqBase := BitVec.ofNat 64 (v.toNat / 4096 * 4096) }
            ∧ ∀ k, k ≠ r.val → ringAt t.ctl k = ringAt s.ctl k))
          ∧ ((ringAt s.ctl r).st ≠ .disabled → Runs (write (ring r 0) 8) s (fun t => OnlyChanges [.heads, .mgmt] s t
            ∧ (n < 0x40 → (headAt t.ctl (n / 4)).viol.ignored = satInc (headAt s.ctl (n / 4)).viol.ignored 0xFFFFFFFF)))))
    ∧ (∀ h : Fin 16, passes (0x100000 + h * 0x10000) →
        (s.ctl.boot.locked = false → Runs (write (BitVec.ofNat 32 (0x100000 + h * 0x10000)) 8) s (fun t => OnlyChanges [.heads] s t
          ∧ headAt t.ctl h = { headAt s.ctl h with mgmtLd := fieldOf v.toNat 35 32, biTimeout := fieldOf v.toNat 31 16, maxRate := fieldOf v.toNat 11 8, ldCount := fieldOf v.toNat 2 0 }))
        ∧ (s.ctl.boot.locked = true → Runs (write (BitVec.ofNat 32 (0x100000 + h * 0x10000)) 8) s (fun t => OnlyChanges [.heads, .mgmt] s t
          ∧ (headAt t.ctl h).mgmtLd = (headAt s.ctl h).mgmtLd ∧ (headAt t.ctl h).ldCount = (headAt s.ctl h).ldCount)))
    ∧ (mgmtRight s.ctl n = true → (s.ctl.fcu.frozen = false → exec (.logFreeze ini) s = .next (s.withFcu { s.ctl.fcu with frozen := true, freezeTime := now s.ctl })
          ∧ Runs (.logThaw ini) s (fun t => OnlyChanges [.heads, .mgmt] s t))
        ∧ (s.ctl.fcu.frozen = true → exec (.logFreeze ini) s = .next s ∧ exec (.logThaw ini) s = .next (s.withFcu { s.ctl.fcu with frozen := false })))
    ∧ (∀ (vendor : BitVec 16) (tag size count b7 : Byte) (off : BitVec 32) (vals : List Word), aonOn s.ctl = true →
        let good := vendor = 0x1F3A ∧ (size = 4 ∨ size = 8) ∧ 1 ≤ count.toNat ∧ count.toNat ≤ 32 ∧ b7 = 0 ∧ off.toNat + count.toNat * size.toNat ≤ 0x4000000
        let answer (op st k : Nat) (data : List Byte) := [0x7E, 0x1F, 0x3A, BitVec.ofNat 8 (0x80 + op), tag, BitVec.ofNat 8 st, BitVec.ofNat 8 k, 0] ++ bytesOf 4 off.toNat ++ data
        let read := Instr.mctpRegisterRead vendor tag size count b7 off
        let wr := Instr.mctpRegisterWrite vendor tag size count b7 off vals
        (¬ good → Runs read s (fun t => OnlyChanges [.mgmt, .out] s t ∧ mctp t (answer 1 4 0 []) ∧ t.ctl.mgmt.dropped = satInc s.ctl.mgmt.dropped 0xFFFF))
        ∧ (¬ (good ∧ vals.length = count.toNat) → Runs wr s (fun t => OnlyChanges [.mgmt, .out] s t ∧ mctp t (answer 2 4 0 []) ∧ t.ctl.mgmt.dropped = satInc s.ctl.mgmt.dropped 0xFFFF))
        ∧ (good → size = 8 → off.toNat % 8 = 0 → off.toNat + count.toNat * 8 ≤ 0x100000 → Runs read s (fun t => OnlyChanges [.out] s t
            ∧ mctp t (answer 1 0 count.toNat ((List.range count.toNat).flatMap (fun i => bytesOf 8 (regWord s.ctl (off.toNat + 8 * i)).toNat)))))
        ∧ (good → off.toNat % size.toNat ≠ 0 → Runs read s (fun t => OnlyChanges [.mgmt, .fcu, .out] s t ∧ mctp t (answer 1 2 0 [])
            ∧ t.ctl.mgmt.viol.violations = satInc s.ctl.mgmt.viol.violations 0xFFFFFF))
        ∧ (good → vals.length = count.toNat → off = 0x108 → size = 8 → vals = [1] → s.ctl.fcu.frozen = false → Runs wr s (fun t => OnlyChanges [.fcu, .out] s t
            ∧ mctp t (answer 2 0 1 []) ∧ t.ctl.fcu = { s.ctl.fcu with frozen := true, freezeTime := now s.ctl })))
    ∧ (aonOn s.ctl = true → ∀ (eid : Byte) (addr : BitVec 7),
        let ctrl (i : Instr) (ps : List Part) (cmd : Byte) (data : List Byte) (P : State → Prop) := Runs i s (fun t => OnlyChanges (.out :: ps) s t
          ∧ mctp t ([0, 0, cmd, 0] ++ data) ∧ P t)
        ctrl (.setEndpointId eid) [.mgmt] 1 [0, eid, 0] (fun t => t.ctl.mgmt = { s.ctl.mgmt with eid := eid.toNat })
        ∧ ctrl .getEndpointId [] 2 [BitVec.ofNat 8 s.ctl.mgmt.eid, 0, 0] (fun _ => True)
        ∧ ctrl .getMessageTypeSupport [] 5 [4, 0x00, 0x07, 0x08, 0x7E] (fun _ => True)
        ∧ (∃ l : List Byte, l.length = 4 ∧ ctrl .getMctpVersionSupport [.free] 4 (1 :: l) (fun _ => True))
        ∧ (∃ l : List Byte, l.length = 2 ∧ ctrl .getVendorDefinedMessageSupport [.free] 6 ([0xFF, 0x00, 0x1F, 0x3A] ++ l) (fun _ => True))
        ∧ (∀ i ∈ ([.entdaa addr, .setdasa addr] : List Instr), Runs i s (fun t => OnlyChanges [.mgmt] s t ∧ t.ctl.mgmt = { s.ctl.mgmt with dynAddr := addr.toNat }))
        ∧ Runs .i3cTargetReset s (fun t => OnlyChanges [.mgmt] s t ∧ t.ctl.mgmt = { s.ctl.mgmt with held := 0 }))

/-- R125, R127, R282, R495, R515 to R520: the management commands, in an LD's mailbox or at the management CCI. Each answers in the states that
accept it, with its effect; without management rights it is a violation of kind 7, in another state Unsupported and counted. Return codes
are PRESUMED (log entry 34); the resume delay of 61 µs is 1023 units of 2^-24 s.
Choices of the model: log entries 18, 34, 44 and 68. -/
def Obligations.ManagementCommands : Prop :=
  ∀ (ini : Byte) (s : State), canReach s.ctl ini.toNat = true →
    let n := ini.toNat
    let g := s.ctl.glb
    let answers (i : Instr) (ps : List Part) (op code : Nat) (pay : List Byte) (P : State → Prop) := Runs i s (fun t => OnlyChanges (.out :: ps) s t
      ∧ t.ctl.out = (if n = 0x60 then [.i3cIbi] else []) ++ .mbox n op code pay :: s.ctl.out ∧ P t)
    let tells (i : Instr) (op : Nat) (pay : List Byte) := answers i [] op 0 pay (fun _ => True)
    let counted (i : Instr) (op : Nat) := answers i [.heads, .mgmt] op 3 [] (fun t => n = 0x60 → t.ctl.mgmt.viol.ignored = satInc s.ctl.mgmt.viol.ignored 0xFFFFFFFF)
    let noRight (i : Instr) (op : Nat) := n < 0x40 → mgmtRight s.ctl n = false → answers i [.heads, .fcu] op 3 [] (fun t => Raised t.ctl (16 * (n / 4) + 9)
      ∧ (headAt t.ctl (n / 4)).viol.violations = satInc (headAt s.ctl (n / 4)).viol.violations 0xFFFFFF)
    let right := mgmtRight s.ctl n = true
    let info := g.mode.service = true ∨ g.mode = .start ∨ g.mode = .hold
    let saves (i : Instr) (cause : Nat) := Runs i s (fun t => t.pending = s.pending ∧ t.dev.mem = s.dev.mem ∧ t.ctl.glb.mode = .save ∧ t.ctl.glb.ltCode = 0x32
      ∧ .mbox n 0xC010 0 [] ∈ t.ctl.out ∧ ∃ r, t.ctl.svr.run = some r ∧ r.saved.cause = cause ∧ r.downAfter = false ∧ r.cut = false)
    let restarts (i : Instr) (code : Nat) (P : State → Prop) := Runs i s (fun t => t.pending = s.pending ∧ t.dev.mem = s.dev.mem ∧ t.ctl.glb.mode = .start
      ∧ t.ctl.glb.ltCode = code ∧ t.ctl.boot.stage = .stage0 ∧ t.ctl.boot.warm = true ∧ P t)
    let sets (i : Instr) (op sec frac : Nat) := answers i [.rtc, .fcu] op 0 [] (fun t => t.ctl.rtc.seconds.toNat = (sec + (frac + 1023) / 2 ^ 24) % 2 ^ 40
      ∧ t.ctl.rtc.frac.toNat = (frac + 1023) % 2 ^ 24 ∧ t.ctl.rtc.halt = false ∧ t.ctl.rtc.halted = false ∧ t.ctl.rtc.adjusted = true
      ∧ t.ctl.rtc.oscStopped = false ∧ Raised t.ctl 0x2F5)
    let clock := g.fatal = false ∧ g.mode ≠ .save
    (info → tells (.getNovlenInfo ini) 0xC000 (bytesOf 8 (glbStateWord s.ctl).toNat ++ bytesOf 4 (hallCount s.ctl)
        ++ bytesOf 4 (if n < 0x40 then assignedCount s.ctl n else 0) ++ bytesOf 1 (if n < 0x40 then n else 0xFF)
        ++ bytesOf 1 (if n < 0x40 ∧ mgmtRight s.ctl n = false then 0 else 1) ++ List.replicate 14 0)
      ∧ (∀ first count, 1 ≤ BitVec.toNat count → count.toNat ≤ 64 → BitVec.toNat first + count.toNat ≤ hallCount s.ctl →
          tells (.getHallInfo ini first count) 0xC001 (bytesOf 2 count.toNat ++ List.replicate 6 0
            ++ (List.range count.toNat).flatMap (fun i => hallEntry s.ctl (first.toNat + i))))
      ∧ (∀ first count, BitVec.toNat count = 0 ∨ 64 < BitVec.toNat count → answers (.getHallInfo ini first count) [] 0xC001 2 [] (fun _ => True))
      ∧ tells (.getBudget ini) 0xC002 (bytesOf 8 (glbBudgetWord s.ctl).toNat ++ bytesOf 8 (glbBudgetParamWord s.ctl).toNat)
      ∧ (right → ∀ head : Byte, head.toNat < 16 → tells (.getViolationLog ini head) 0xC004 (violBytes (headAt s.ctl head.toNat).viol))
      ∧ (right → 0x40 ≤ n → tells (.getViolationLog ini 0x10) 0xC004 (violBytes s.ctl.mgmt.viol)))
    ∧ (¬ info → counted (.getNovlenInfo ini) 0xC000 ∧ counted (.getBudget ini) 0xC002 ∧ (∀ first count, counted (.getHallInfo ini first count) 0xC001)
        ∧ (right → ∀ head, counted (.getViolationLog ini head) 0xC004))
    ∧ tells (.getTimeTs64 ini) 0xC006 (bytesOf 8 (now s.ctl).toNat)
    ∧ ((∀ head, noRight (.getViolationLog ini head) 0xC004) ∧ (∀ hall p, noRight (.hallSanitize ini hall p) 0xC003) ∧ noRight (.quiescePlanned ini) 0xC010
        ∧ noRight (.quiesceWarmReset ini) 0xC010 ∧ noRight (.holdupMeasure ini) 0xC012 ∧ noRight (.freezeLogs ini) 0xC011)
    ∧ (right → g.mode.service = false → (∀ hall p, counted (.hallSanitize ini hall p) 0xC003) ∧ counted (.quiescePlanned ini) 0xC010
        ∧ counted (.holdupMeasure ini) 0xC012 ∧ (g.mode ≠ .hold → counted (.quiesceWarmReset ini) 0xC010))
    ∧ (right → g.mode.service = true → saves (.quiescePlanned ini) 0x20 ∧ (g.fatal = false → saves (.quiesceWarmReset ini) 0x21))
    ∧ (right → g.mode = .hold → g.fatal = false → s.ctl.clk.ref100Settled = true → s.ctl.seq.running = .none → restarts (.quiesceWarmReset ini) 0x40 (fun _ => True))
    ∧ (n < 0x40 → ∀ ts, answers (.retryStart ini) [] 0xC013 3 [] (fun _ => True) ∧ answers (.setTime ini ts) [] 0xC014 3 [] (fun _ => True)
        ∧ answers (.thawLogs ini) [] 0xC015 3 [] (fun _ => True))
    ∧ (0x40 ≤ n → s.ctl.clk.ref100Settled = true → s.ctl.seq.running = .none → (g.mode = .hold → restarts (.retryStart ini) 0x40 (fun _ => True))
        ∧ (g.mode = .vestibule → s.ctl.alc.faulted = false → restarts (.retryStart ini) 0x48 (fun t => bootCount t.ctl = 1)))
    ∧ (0x40 ≤ n → g.mode ≠ .hold → g.mode ≠ .vestibule → counted (.retryStart ini) 0xC013)
    ∧ (right → g.mode.service = true → let x := s.ctl.hold
        (x.phase ≠ .idle → answers (.holdupMeasure ini) [] 0xC012 6 [] (fun _ => True))
        ∧ (x.phase = .idle → backgroundOf s.ctl n = none → answers (.holdupMeasure ini) [.hold, .lds, .mgmt] 0xC012 1 [] (fun t =>
            backgroundOf t.ctl n = some 0xC012 ∧ t.ctl.hold.byCommand = true ∧ (holdReady s.ctl = true → t.ctl.hold.phase = .settle)
            ∧ (holdReady s.ctl = false → t.ctl.hold.phase = .idle ∧ t.ctl.hold.deferred = true))))
    ∧ (right → answers (.freezeLogs ini) [.fcu] 0xC011 0 [] (fun t => t.ctl.fcu.frozen = true ∧ (s.ctl.fcu.frozen = true → t.ctl.fcu = s.ctl.fcu)
        ∧ (s.ctl.fcu.frozen = false → t.ctl.fcu = { s.ctl.fcu with frozen := true, freezeTime := now s.ctl })))
    ∧ (0x40 ≤ n → clock → g.mode ≠ .vestibule → answers (.thawLogs ini) [.fcu] 0xC015 0 [] (fun t => t.ctl.fcu = { s.ctl.fcu with frozen := false }))
    ∧ (0x40 ≤ n → ¬ clock → counted (.thawLogs ini) 0xC015 ∧ ∀ ts, counted (.setTime ini ts) 0xC014)
    ∧ (0x40 ≤ n → clock → ∀ ts : Word,
        (ts.toNat % 256 ≠ 0 → answers (.setTime ini ts) [] 0xC014 2 [] (fun _ => True))
        ∧ (ts.toNat % 256 = 0 → s.ctl.rtc.halt = true → answers (.setTime ini ts) [] 0xC014 6 [] (fun _ => True))
        ∧ (ts.toNat % 256 = 0 → s.ctl.rtc.halt = false → s.ctl.rtc.armed = false → sets (.setTime ini ts) 0xC014 (ts.toNat / 2 ^ 24) (ts.toNat % 2 ^ 24)))
    ∧ (∀ (h : Fin 16) (l : Fin 4) (ns : Word), n = 4 * h.val + l.val →
        (mgmtRight s.ctl n = false → answers (.setTimestamp h l ns) [] 0x0301 3 [] (fun _ => True))
        ∧ (right → clock → ns.toNat < 946684800000000000 → answers (.setTimestamp h l ns) [] 0x0301 2 [] (fun _ => True))
        ∧ (right → clock → 946684800000000000 ≤ ns.toNat → s.ctl.rtc.halt = false → s.ctl.rtc.armed = false →
            sets (.setTimestamp h l ns) 0x0301 ((ns.toNat - 946684800000000000) / 1000000000) (ns.toNat % 1000000000 * 65536 / 1000000000 * 256)))
    ∧ (∀ (hall : BitVec 16) (p : Word), right → s.ctl.glb.mode = .solo → Idle s.ctl → backgroundOf s.ctl n = none →
        let k := hall.toNat
        let x := hallAt s.ctl k
        (k ≥ hallCount s.ctl ∨ x.mode ≠ .unassigned → answers (.hallSanitize ini (hall.setWidth 32) p) [] 0xC003 2 [] (fun _ => True))
        ∧ (k < hallCount s.ctl → x.mode = .unassigned → x.fill = none → s.dev.mem.wf = true →
            (∀ i < 2 ^ 30, Plain s.ctl (k * 2 ^ 30 + i) ∧ isDirty s.ctl (k * 2 ^ 30 + i) = true) →
            answers (.hallSanitize ini (hall.setWidth 32) p) [.lds, .mgmt, .halls, .nextReq, .heads, .gals, .pair, .free, .poisonOver, .dram, .poison] 0xC003 1 [] (fun t =>
              hallAt t.ctl k = { x with sanitize := true, fill := some (p, n) } ∧ backgroundOf t.ctl n = some 0xC003
              ∧ (∀ i < 2 ^ 30, State.byte t (k * 2 ^ 30 + i) = p.extractLsb' (8 * (i % 8)) 8)
              ∧ ∀ a, a < k * 2 ^ 30 ∨ (k + 1) * 2 ^ 30 ≤ a → State.byte t a = State.byte s a)))
    ∧ (∀ (hall : BitVec 16) (p : Word), (hallAt s.ctl hall.toNat).fill = some (p, n) → pairedNow s.ctl = false →
        (s.ctl.reqs.any (fun r => r.src == .sanitize hall.toNat) = true → exec (.sanitizeFillDone hall) s = .next s)
        ∧ (s.ctl.reqs = [] → Runs (.sanitizeFillDone hall) s (fun t => OnlyChanges [.halls, .gals, .lds, .mgmt, .out] s t
            ∧ hallAt t.ctl hall.toNat = { hallAt s.ctl hall.toNat with fill := none, sanitize := false } ∧ backgroundOf t.ctl n = none
            ∧ t.ctl.out = (if 0x40 ≤ n then [.i3cIbi] else if ldReach s.ctl n = true ∧ (ldAt s.ctl n).msixMask.getLsbD 0 = false then [.msix n 0] else []) ++ s.ctl.out)))

/-- R82, R85, R89, R92 to R96, R521, R522: the CXL FM API. Its commands answer in SERVICE, Busy in VAULT.START and Unsupported elsewhere; an add gives
an unassigned hall to an LD, refuses a second private one and one that is being sanitized; a release takes it away. The response layouts and
codes are those of CXL 3.1 (PRESUMED, log entry 34).
Choices of the model: log entries 34, 69 and 90. -/
def Obligations.FabricManagement : Prop :=
  ∀ (h : Fin 16) (ld : Fin 4) (ini lim : Byte) (v : Word) (s : State), aonOn s.ctl = true →
    let c := s.ctl
    let d := 4 * h.val + ld.val
    let answers (i : Instr) (ps : List Part) (op code : Nat) (pay : List Byte) := Runs i s (fun t => OnlyChanges (.out :: ps) s t
      ∧ t.ctl.out = .fmApi op code pay :: s.ctl.out)
    let add (k : BitVec 16) (here : Bool) (d : Fin 64) (sh : Bool) (tag : BitVec 128) := Instr.initiateDynamicCapacityAdd ini here d k sh tag
    let cap := bytesOf 8 (hallCount c * 2 ^ 30)
    let count := (headAt c h).ldCount
    (c.glb.mode.service = true →
      answers .identify [] 0x0001 0 (bytesOf 2 0x1F3A ++ bytesOf 2 0x9472 ++ bytesOf 2 0x1F3A ++ bytesOf 2 0x9472
          ++ bytesOf 8 (Config.dieSerial.toNat % 2 ^ 32) ++ bytesOf 1 c.mgmt.respLimit ++ [3])
      ∧ answers .backgroundOperationStatus [] 0x0002 0 (bytesOf 1 (b2n c.mgmt.background.isSome) ++ [0] ++ bytesOf 2 (c.mgmt.background.getD 0) ++ List.replicate 4 0)
      ∧ answers .getResponseMessageLimit [] 0x0003 0 (bytesOf 1 c.mgmt.respLimit)
      ∧ (8 ≤ lim.toNat ∧ lim.toNat ≤ 20 → answers (.setResponseMessageLimit lim) [.mgmt] 0x0004 0 [lim]
          ∧ Runs (.setResponseMessageLimit lim) s (fun t => t.ctl.mgmt = { c.mgmt with respLimit := lim.toNat }))
      ∧ (¬ (8 ≤ lim.toNat ∧ lim.toNat ≤ 20) → answers (.setResponseMessageLimit lim) [] 0x0004 2 [])
      ∧ answers (.getLdInfo h) [] 0x5400 0 (cap ++ bytesOf 2 count ++ [1])
      ∧ answers (.getLdAllocations h) [] 0x5401 0 (bytesOf 1 count ++ [0, 0] ++ bytesOf 1 count ++ List.replicate (16 * count) 0)
      ∧ (∀ l, (∀ x ∈ l, x = 0) → answers (.setLdAllocations h l) [] 0x5402 0 (l.flatMap (fun x => bytesOf 8 (BitVec.toNat x))))
      ∧ (∀ l, (∃ x ∈ l, x ≠ 0) → answers (.setLdAllocations h l) [] 0x5402 2 [])
      ∧ answers (.getQosControl h) [] 0x5403 0 (bytesOf 8 (headAt c h).qosControl.toNat)
      ∧ answers (.setQosControl h v) [.heads] 0x5404 0 (bytesOf 8 v.toNat) ∧ Runs (.setQosControl h v) s (fun t => headAt t.ctl h = { headAt c h with qosControl := v })
      ∧ (∃ b : Nat, b ≤ 100 ∧ answers (.getQosStatus h) [.free] 0x5405 0 [BitVec.ofNat 8 b])
      ∧ answers (.getQosAllocatedBw h) [] 0x5406 0 (bytesOf 1 count ++ [0] ++ (List.range count).map (fun i => BitVec.ofNat 8 (ldAt c (4 * h + i)).qosAlloc))
      ∧ answers (.getQosBwLimit h) [] 0x5408 0 (bytesOf 1 count ++ [0] ++ (List.range count).map (fun i => BitVec.ofNat 8 (ldAt c (4 * h + i)).qosLimit))
      ∧ (∀ x, ld.val < count → answers (.setQosAllocatedBw h ld [x]) [.lds] 0x5407 0 [1, BitVec.ofNat 8 ld, x]
          ∧ Runs (.setQosAllocatedBw h ld [x]) s (fun t => ldAt t.ctl d = { ldAt c d with qosAlloc := x.toNat })
          ∧ answers (.setQosBwLimit h ld [x]) [.lds] 0x5409 0 [1, BitVec.ofNat 8 ld, x]
          ∧ Runs (.setQosBwLimit h ld [x]) s (fun t => ldAt t.ctl d = { ldAt c d with qosLimit := x.toNat }))
      ∧ (∀ l, ld.val + l.length > count → answers (.setQosAllocatedBw h ld l) [] 0x5407 2 [] ∧ answers (.setQosBwLimit h ld l) [] 0x5409 2 [])
      ∧ answers .getMultiHeadedInfo [] 0x5500 0 ([64, 16, 0, 0, 0, 64, 0, 0] ++ (List.range 64).map (fun d => BitVec.ofNat 8 (if ldPresented c d then d / 4 else 0xFF)))
      ∧ answers (.getHeadInfo h) [] 0x5501 0 ([BitVec.ofNat 8 h, 8] ++ [BitVec.ofNat 8 (headAt c h).width, BitVec.ofNat 8 (headAt c h).maxRate,
          BitVec.ofNat 8 (headAt c h).rate, BitVec.ofNat 8 (b2n (headAt c h).linkUp)])
      ∧ answers .getDcdInfo [] 0x5600 0 ([64, 2, 0, 0] ++ cap ++ bytesOf 8 (2 ^ 30) ++ bytesOf 8 (2 ^ 30))
      ∧ (ldPresented c d = true → answers (.getHostDcRegionConfiguration h ld) [] 0x5601 0 (bytesOf 2 d ++ [2, 2]
            ++ (bytesOf 8 0 ++ cap ++ bytesOf 8 (2 ^ 30)) ++ (bytesOf 8 0x100000000000 ++ cap ++ bytesOf 8 (2 ^ 30)))
          ∧ (∀ (first n : BitVec 32), assignedCount c d = 0 → ∃ l : List Byte, l.length = 4 ∧ answers (.getDcRegionExtentLists h ld first n) [.free] 0x5603 0
              (bytesOf 2 d ++ [0, 0] ++ bytesOf 4 first.toNat ++ List.replicate 8 0 ++ l ++ List.replicate 4 0))
          ∧ (∀ (region : Byte) (block base len : Word),
              let fits := region.toNat < 2 ∧ block.toNat = 2 ^ 30 ∧ base.toNat = (if region = 0 then 0 else 0x100000000000) ∧ len.toNat = hallCount c * 2 ^ 30
              (fits → answers (.setDcRegionConfiguration h ld region block base len) [] 0x5602 0 [])
              ∧ (¬ fits → answers (.setDcRegionConfiguration h ld region block base len) [] 0x5602 2 [])))
      ∧ (∀ op : BitVec 16, answers (.tunnelManagementCommand lim op) (if lim.toNat < 16 then [.free] else []) 0x5300 2 [] ∨ lim.toNat < 16)
      ∧ (lim.toNat < 16 → Runs (.tunnelManagementCommand lim 0x5400) s (fun t => OnlyChanges [.out] s t ∧ t.ctl.out =
          .fmApi 0x5400 0 (cap ++ bytesOf 2 (headAt c lim.toNat).ldCount ++ [1]) :: .fmApi 0x5300 0 [] :: s.ctl.out)))
    ∧ (c.glb.mode.service = false → let code := if c.glb.mode = .start then 6 else 3
      ∀ p ∈ ([(.identify, 0x0001), (.backgroundOperationStatus, 0x0002), (.getResponseMessageLimit, 0x0003), (.setResponseMessageLimit lim, 0x0004), (.getLdInfo h, 0x5400),
          (.getLdAllocations h, 0x5401), (.getQosControl h, 0x5403), (.setQosControl h v, 0x5404), (.getQosStatus h, 0x5405), (.getQosAllocatedBw h, 0x5406),
          (.getQosBwLimit h, 0x5408), (.getMultiHeadedInfo, 0x5500), (.getHeadInfo h, 0x5501), (.getDcdInfo, 0x5600), (.getHostDcRegionConfiguration h ld, 0x5601),
          (.setLdAllocations h [], 0x5402), (.setQosAllocatedBw h ld [], 0x5407), (.setQosBwLimit h ld [], 0x5409), (.setDcRegionConfiguration h ld 0 0 0 0, 0x5602),
          (.getDcRegionExtentLists h ld 0 0, 0x5603),
          (.tunnelManagementCommand lim 1, 0x5300)] : List (Instr × Nat)),
        answers p.1 [] p.2 code []
          ∧ (0x40 ≤ ini.toNat → answers (add 0 true 0 false 0) [] 0x5604 code [] ∧ answers (.initiateDynamicCapacityRelease ini true 0 0) [] 0x5605 code []))
    ∧ (ini.toNat < 0x40 → canReach c ini.toNat = true → ∀ k here who sh tag,
        Runs (add k here who sh tag) s (fun t => OnlyChanges [.out] s t ∧ t.ctl.out = .mbox ini.toNat 0x5604 3 [] :: s.ctl.out)
        ∧ Runs (.initiateDynamicCapacityRelease ini here who k) s (fun t => OnlyChanges [.out] s t ∧ t.ctl.out = .mbox ini.toNat 0x5605 3 [] :: s.ctl.out))
    ∧ (0x40 ≤ ini.toNat → ∀ (k : BitVec 16) (who : Fin 64) (sh : Bool) (tag : BitVec 128), Idle c → c.rings = [] → c.twin.sent = [] → c.glb.mode = .solo → ldPresented c who = true → k.toNat < hallCount c →
        let x := hallAt c k.toNat
        let free := x.mode = .unassigned ∧ x.sharers = [] ∧ x.sanitize = false
        let event : List Out := if ldReach c who = true ∧ (ldAt c who).msixMask.getLsbD 1 = false then [.msix who 1] else []
        let done (op : Nat) (t : State) := OnlyChanges [.halls, .gals, .lds, .fcu, .pair, .out, .heads, .poisonOver] s t ∧ t.ctl.out = .fmApi op 0 [] :: event ++ s.ctl.out
        (free → Runs (add k true who sh tag) s (fun t => done 0x5604 t
          ∧ hallAt t.ctl k.toNat = { x with mode := if sh then .shared else .priv, tag := tag.toNat, count := x.count + 1, sharers := [{ slot := 0, here := true, ld := who }] }
          ∧ ((ldAt c who).dcd.recs.length < 64 → ∃ n, (n, .capacity true k.toNat) ∈ (ldAt t.ctl who).dcd.recs)
          ∧ ∀ j, j ≠ k.toNat → hallAt t.ctl j = hallAt c j))
        ∧ (x.sanitize = true ∨ x.mode = .priv ∨ x.mode = .shared ∧ (sh = false ∨ x.tag ≠ tag.toNat) → Runs (add k true who sh tag) s (fun t =>
          OnlyChanges [.out, .heads, .poisonOver] s t ∧ t.ctl.out = .fmApi 0x5604 2 [] :: s.ctl.out))
        ∧ (x.mode = .shared → sh = true → x.tag = tag.toNat → x.sanitize = false → x.sharers.length < 64 → (∀ y ∈ x.sharers, ¬(y.here = true ∧ y.ld = who.val)) →
          Runs (add k true who sh tag) s (fun t => done 0x5604 t
            ∧ ∃ y, hallAt t.ctl k.toNat = { x with count := x.count + 1, sharers := x.sharers ++ [y] } ∧ y.here = true ∧ y.ld = who.val ∧ ∀ z ∈ x.sharers, z.slot ≠ y.slot))
        ∧ (x.mode = .priv → x.sharers = [{ slot := 0, here := true, ld := who }] → Runs (.initiateDynamicCapacityRelease ini true who k) s (fun t => done 0x5605 t
          ∧ (hallAt t.ctl k.toNat).sharers = [] ∧ (hallAt t.ctl k.toNat).count = 0 ∧ (hallAt t.ctl k.toNat).mode = .unassigned ∧ (hallAt t.ctl k.toNat).sanitize = x.sanitize
          ∧ ∀ j, j ≠ k.toNat → hallAt t.ctl j = hallAt c j))
        ∧ ((∀ y ∈ x.sharers, ¬(y.here = true ∧ y.ld = who.val)) → Runs (.initiateDynamicCapacityRelease ini true who k) s (fun t =>
          OnlyChanges [.out, .heads, .poisonOver] s t ∧ t.ctl.out = .fmApi 0x5605 2 [] :: s.ctl.out)))
    ∧ (0x40 ≤ ini.toNat → ∀ (k : BitVec 16) (who : Fin 64) (sh : Bool) (tag : BitVec 128), Idle c → c.glb.mode = .paired → ldPresented c who = true → k.toNat < hallCount c →
        (hallAt c k.toNat).mode = .unassigned → (hallAt c k.toNat).sanitize = false → c.twin.steered ≠ [] → c.twin.sent = [] →
        Runs (add k true who sh tag) s (fun t => OnlyChanges [.twin, .out, .heads, .poisonOver] s t
          ∧ Sends t.ctl (.hallOp true ini.toNat k.toNat who) (fun m => ∃ g slot, m = .role g (.hallAdd k.toNat sh who c.twin.side slot tag.toNat))))
end

