-- ==== Sys2Proof/Laws/Cells.lean ====
section
/-! SUPPORT. Laws/Cells.lean: memory cells, number lists and tables: a read after a write, and that every memory operation keeps the canonical form. -/
namespace Sys2Proof.Machine

/-! ## Cells -/

theorem cwfFrom_mono {d : Byte} {m : List Host.Cell} {a b : Nat} (h : b ≤ a) (w : cwfFrom d a m = true) : cwfFrom d b m = true := by
  cases m with
  | nil => rfl
  | cons x t => obtain ⟨k, v⟩ := x; simp only [cwfFrom, Bool.and_eq_true, decide_eq_true_eq] at w ⊢; exact ⟨⟨by omega, w.1.2⟩, w.2⟩

/-- A cell below every listed address reads as an unlisted one. -/
theorem cget_below {d : Byte} {m : List Host.Cell} {lo a : Nat} (w : cwfFrom d lo m = true) (h : a < lo) : cget d m a = d := by
  cases m with
  | nil => rfl
  | cons x t =>
    obtain ⟨k, v⟩ := x
    simp only [cwfFrom, Bool.and_eq_true, decide_eq_true_eq] at w
    have : (k == a) = false := by simp <;> omega
    simp only [cget, this, Bool.false_eq_true, if_false]
    rw [if_pos (by omega)]

/-- A write keeps the canonical form. -/
theorem cwfFrom_cset {d : Byte} {a : Nat} {v : Byte} :
    ∀ {m : List Host.Cell} {lo : Nat}, cwfFrom d lo m = true → lo ≤ a → cwfFrom d lo (cset d m a v) = true
  | [], lo, _, h => by
    unfold cset; split
    · rfl
    · simp only [cwfFrom, Bool.and_eq_true, decide_eq_true_eq]; simp_all
  | (k, b) :: t, lo, w, h => by
    simp only [cwfFrom, Bool.and_eq_true, decide_eq_true_eq] at w
    unfold cset
    split
    · split
      · simp only [cwfFrom, Bool.and_eq_true, decide_eq_true_eq]; exact ⟨⟨w.1.1, w.1.2⟩, w.2⟩
      · simp only [cwfFrom, Bool.and_eq_true, decide_eq_true_eq]; simp_all <;> omega
    · split
      · split
        · exact cwfFrom_mono (by omega) w.2
        · simp only [cwfFrom, Bool.and_eq_true, decide_eq_true_eq]; simp_all
      · rename_i h1 h2
        have hk : k + 1 ≤ a := by simp at h2; omega
        simp only [cwfFrom, Bool.and_eq_true, decide_eq_true_eq]
        exact ⟨w.1, cwfFrom_cset w.2 hk⟩

theorem cwf_cset {d : Byte} {m : List Host.Cell} (w : cwf d m = true) (a : Nat) (v : Byte) : cwf d (cset d m a v) = true :=
  cwfFrom_cset w (Nat.zero_le a)

/-- A read after a write: the byte written at its address, every other byte as before. -/
theorem cget_cset {d : Byte} {a : Nat} {v : Byte} (x : Nat) :
    ∀ {m : List Host.Cell} {lo : Nat}, cwfFrom d lo m = true → cget d (cset d m a v) x = if x = a then v else cget d m x
  | [], _, _ => by
    unfold cset; split
    · rename_i h; have : v = d := by simpa using h
      simp [cget, this]
    · simp only [cget]
      by_cases h : x = a
      · simp [h]
      · have : (a == x) = false := by simp <;> omega
        simp [this, h]
  | (k, b) :: t, lo, w => by
    simp only [cwfFrom, Bool.and_eq_true, decide_eq_true_eq] at w
    unfold cset
    split
    · rename_i hak
      split
      · rename_i hv; have : v = d := by simpa using hv
        by_cases h : x = a
        · subst h; simp only [cget, if_true]
          have : (k == x) = false := by simp <;> omega
          simp [this, hak, ‹v = d›]
        · simp [h]
      · simp only [cget]
        by_cases h : x = a
        · simp [h]
        · have : (a == x) = false := by simp <;> omega
          simp only [this, Bool.false_eq_true, if_false, h]
          by_cases h2 : x < a
          · have h3 : (k == x) = false := by simp <;> omega
            simp [h2, h3, show x < k by omega]
          · simp [h2]
    · split
      · rename_i h1 h2
        have hk : a = k := by simpa using h2
        subst hk
        split
        · rename_i hv; have hv : v = d := by simpa using hv
          by_cases h : x = a
          · subst h; simp only [if_true]; rw [cget_below w.2 (by omega), hv]
          · have : (a == x) = false := by simp <;> omega
            simp only [h, if_false, cget, this, Bool.false_eq_true]
            by_cases h2 : x < a
            · simp only [h2, if_true]; exact cget_below w.2 (by omega)
            · simp [h2]
        · simp only [cget]
          by_cases h : x = a
          · simp [h]
          · have : (a == x) = false := by simp <;> omega
            simp [this, h]
      · rename_i h1 h2
        have hk : k < a := by simp at h2; omega
        simp only [cget]
        by_cases h : k = x
        · subst h; simp [show ¬ k = a by omega]
        · have h0 : (k == x) = false := by simpa using h
          simp only [h0, Bool.false_eq_true, if_false]
          by_cases h3 : x < k
          · simp [h3, show ¬ x = a by omega]
          · simp only [h3, if_false]; exact cget_cset x w.2

theorem cwf_cwrite {d : Byte} : ∀ (l : List Byte) {m : List Host.Cell} (a : Nat), cwf d m = true → cwf d (cwrite d m a l) = true
  | [], _, _, w => w
  | b :: l, _, a, w => cwf_cwrite l (a + 1) (cwf_cset w a b)

theorem cwf_cwriteMask {d : Byte} : ∀ (l : List Byte) {m : List Host.Cell} (a k : Nat), cwf d m = true → cwf d (cwriteMask d m a k l) = true
  | [], _, _, _, w => w
  | b :: l, _, a, k, w => by
    unfold cwriteMask; refine cwf_cwriteMask l (a + 1) (k / 2) ?_
    split
    · exact cwf_cset w a b
    · exact w

/-- A read after a write of several bytes. -/
theorem cget_cwrite {d : Byte} (x : Nat) : ∀ (l : List Byte) {m : List Host.Cell} (a : Nat), cwf d m = true →
    cget d (cwrite d m a l) x = if a ≤ x ∧ x < a + l.length then l.getD (x - a) 0 else cget d m x
  | [], m, a, _ => by
    have : ¬ (a ≤ x ∧ x < a + 0) := by omega
    simp only [List.length_nil, this, if_false]; rfl
  | b :: l, m, a, w => by
    unfold cwrite
    rw [cget_cwrite x l (a + 1) (cwf_cset w a b), cget_cset x w]
    by_cases h : x = a
    · subst h; simp [show ¬ (x + 1 ≤ x ∧ x < x + 1 + l.length) by omega]
    · by_cases h2 : a + 1 ≤ x ∧ x < a + 1 + l.length
      · have e : x - a = (x - (a + 1)) + 1 := by omega
        simp only [List.length_cons]
        rw [if_pos h2, if_pos (by omega), e]; simp
      · simp only [List.length_cons]
        rw [if_neg h2, if_neg h, if_neg (by omega)]

/-! ## Number lists -/

theorem risingFrom_mono {l : List Nat} {a b : Nat} (h : b ≤ a) (w : risingFrom a l = true) : risingFrom b l = true := by
  cases l with
  | nil => rfl
  | cons k t => simp only [risingFrom, Bool.and_eq_true, decide_eq_true_eq] at w ⊢; exact ⟨by omega, w.2⟩

theorem risingFrom_sins {n : Nat} : ∀ {l : List Nat} {lo : Nat}, risingFrom lo l = true → lo ≤ n → risingFrom lo (sins l n) = true
  | [], lo, _, h => by simp [sins, risingFrom, h]
  | k :: t, lo, w, h => by
    simp only [risingFrom, Bool.and_eq_true, decide_eq_true_eq] at w
    unfold sins
    split
    · simp only [risingFrom, Bool.and_eq_true, decide_eq_true_eq]; exact ⟨h, by omega, w.2⟩
    · split
      · simp only [risingFrom, Bool.and_eq_true, decide_eq_true_eq]; exact ⟨w.1, w.2⟩
      · rename_i h1 h2
        simp only [risingFrom, Bool.and_eq_true, decide_eq_true_eq]
        exact ⟨w.1, risingFrom_sins w.2 (by simp at h2; omega)⟩

theorem risingFrom_filter (p : Nat → Bool) : ∀ {l : List Nat} {lo : Nat}, risingFrom lo l = true → risingFrom lo (l.filter p) = true
  | [], _, _ => rfl
  | k :: t, lo, w => by
    simp only [risingFrom, Bool.and_eq_true, decide_eq_true_eq] at w
    simp only [List.filter]
    split
    · simp only [risingFrom, Bool.and_eq_true, decide_eq_true_eq]; exact ⟨w.1, risingFrom_filter p w.2⟩
    · exact risingFrom_mono (by omega) (risingFrom_filter p w.2)

theorem risingFrom_sdel {l : List Nat} {lo : Nat} (w : risingFrom lo l = true) (n : Nat) : risingFrom lo (sdel l n) = true := risingFrom_filter _ w

/-- Filtering cells keeps their canonical form. -/
theorem cwfFrom_filter {d : Byte} (p : Host.Cell → Bool) : ∀ {m : List Host.Cell} {lo : Nat}, cwfFrom d lo m = true → cwfFrom d lo (m.filter p) = true
  | [], _, _ => rfl
  | (k, b) :: t, lo, w => by
    simp only [cwfFrom, Bool.and_eq_true, decide_eq_true_eq] at w
    simp only [List.filter]
    split
    · simp only [cwfFrom, Bool.and_eq_true, decide_eq_true_eq]; exact ⟨w.1, cwfFrom_filter p w.2⟩
    · exact cwfFrom_mono (by omega) (cwfFrom_filter p w.2)

theorem mem_sins {x n : Nat} : ∀ {l : List Nat}, x ∈ sins l n ↔ x = n ∨ x ∈ l
  | [] => by simp [sins]
  | k :: t => by
    unfold sins
    split
    · simp
    · split
      · rename_i h; have : n = k := by simpa using h
        subst this; simp
      · simp only [List.mem_cons, mem_sins (l := t)]; exact or_left_comm

theorem mem_sdel {x n : Nat} {l : List Nat} : x ∈ sdel l n ↔ x ∈ l ∧ x ≠ n := by simp [sdel]

/-! ## The memories of the device -/

theorem wf_iff {m : Store} : m.wf = true ↔ cwf 0 m.dram = true ∧ risingFrom 0 m.poison = true ∧ cwf 0xFF m.flash = true := by
  simp [Store.wf, and_assoc]

theorem setPoison_wf {m : Store} (w : m.wf = true) (a : Nat) (p : Bool) : (setPoison m a p).wf = true := by
  rw [wf_iff] at w ⊢
  refine ⟨w.1, ?_, w.2.2⟩
  simp only [setPoison]; split
  · exact risingFrom_sins w.2.1 (Nat.zero_le _)
  · exact risingFrom_sdel w.2.1 _

/-- New cells of DRAM in canonical form. -/
theorem withDram_wf {m : Store} (w : m.wf = true) {l : List Host.Cell} (h : cwf 0 l = true) : ({ m with dram := l } : Store).wf = true := by
  rw [wf_iff] at w ⊢; exact ⟨h, w.2⟩

/-- Writing a line keeps the canonical form. -/
theorem putLine_wf {m : Store} (w : m.wf = true) (a : Nat) (v : Line) (p : Bool) : (putLine m a v p).wf = true := by
  unfold putLine
  exact setPoison_wf (withDram_wf w (cwf_cwrite _ _ (wf_iff.1 w).1)) a p

/-- Writing enabled bytes of a line keeps the canonical form. -/
theorem putBytes_wf {m : Store} (w : m.wf = true) (a k : Nat) (v : Line) (p : Bool) : (putBytes m a k v p).wf = true := by
  have w' := withDram_wf w (cwf_cwriteMask (lineBytes v) (a / 64 * 64) k (wf_iff.1 w).1)
  unfold putBytes; dsimp only; split
  · exact setPoison_wf w' a true
  · split
    · exact setPoison_wf w' a false
    · exact w'

theorem foldl_poison_wf (f : Nat → Nat) (g : Nat → Bool) : ∀ (l : List Nat) {m : Store}, m.wf = true → (l.foldl (fun m i => setPoison m (f i) (g i)) m).wf = true
  | [], _, w => w
  | i :: l, _, w => foldl_poison_wf f g l (setPoison_wf w (f i) (g i))

/-- Writing a riser keeps the canonical form. -/
theorem putRiser_wf {m : Store} (w : m.wf = true) (r : Nat) (v : Riser) (p : BitVec 4) : (putRiser m r v p).wf = true := by
  unfold putRiser
  exact foldl_poison_wf (fun i => r * 256 + 64 * i) (fun i => p.getLsbD i) _ (withDram_wf w (cwf_cwrite (riserBytes v) _ (wf_iff.1 w).1))

/-- Poisoning a tread keeps the canonical form. -/
theorem poisonTread_wf {m : Store} (w : m.wf = true) (t : Nat) : (poisonTread m t).wf = true := by
  unfold poisonTread
  exact foldl_poison_wf (fun i => t * 4096 + 64 * i) (fun _ => true) _ w

/-! ## Tables, vectors and lists -/

@[simp] theorem tget_tset_same {α : Type} (n : Nat) (a : α) : ∀ t : Tbl α, tget (tset t n a) n = some a
  | [] => by simp [tset, tget]
  | (k, b) :: t => by
    unfold tset
    split
    · simp [tget]
    · split
      · rename_i h; have : n = k := by simpa using h
        simp [tget, this]
      · rename_i h; have : (k == n) = false := by simp at h ⊢; omega
        simp [tget, this, tget_tset_same n a t]

theorem tget_tset_ne {α : Type} {n k : Nat} (a : α) (h : k ≠ n) : ∀ t : Tbl α, tget (tset t n a) k = tget t k
  | [] => by simp [tset, tget, Ne.symm h]
  | (j, b) :: t => by
    unfold tset
    split
    · simp [tget, Ne.symm h]
    · split
      · rename_i h2; have : n = j := by simpa using h2
        subst this; simp [tget, Ne.symm h]
      · simp [tget, tget_tset_ne a h t]

@[simp] theorem tgetD_tmod_same {α : Type} (t : Tbl α) (n : Nat) (d : α) (f : α → α) : tgetD (tmod t n d f) n d = f (tgetD t n d) := by
  simp [tgetD, tmod]

theorem tgetD_tmod_ne {α : Type} (t : Tbl α) {n k : Nat} (d : α) (f : α → α) (h : k ≠ n) : tgetD (tmod t n d f) k d = tgetD t k d := by
  simp [tgetD, tmod, tget_tset_ne _ h]

@[simp] theorem vget_vmod_same {α : Type} {n : Nat} (v : Vector α n) (i : Nat) (f : α → α) (d : α) (h : i < n) : vget (vmod v i f) i d = f (vget v i d) := by
  simp [vget, vmod, h]

theorem vget_vmod_ne {α : Type} {n : Nat} (v : Vector α n) {i j : Nat} (f : α → α) (d : α) (h : j ≠ i) : vget (vmod v i f) j d = vget v j d := by
  unfold vget vmod
  split
  · split
    · simp [Ne.symm h]
    · rfl
  · rfl

/-- The entry of a part at its own index after an update, and at any other. -/
@[simp] theorem headAt_onHead_same (c : Ctl) (h : Nat) (f : Head → Head) (b : h < 16) : headAt (onHead c h f) h = f (headAt c h) := vget_vmod_same _ _ _ _ b
theorem headAt_onHead_ne (c : Ctl) {h k : Nat} (f : Head → Head) (b : k ≠ h) : headAt (onHead c h f) k = headAt c k := vget_vmod_ne _ _ _ b
@[simp] theorem ldAt_onLd_same (c : Ctl) (d : Nat) (f : Ld → Ld) (b : d < 64) : ldAt (onLd c d f) d = f (ldAt c d) := vget_vmod_same _ _ _ _ b
theorem ldAt_onLd_ne (c : Ctl) {d k : Nat} (f : Ld → Ld) (b : k ≠ d) : ldAt (onLd c d f) k = ldAt c k := vget_vmod_ne _ _ _ b
@[simp] theorem galAt_onGal_same (c : Ctl) (g : Nat) (f : Gal → Gal) (b : g < 8) : galAt (onGal c g f) g = f (galAt c g) := vget_vmod_same _ _ _ _ b
theorem galAt_onGal_ne (c : Ctl) {g k : Nat} (f : Gal → Gal) (b : k ≠ g) : galAt (onGal c g f) k = galAt c k := vget_vmod_ne _ _ _ b
@[simp] theorem dchAt_onDch_same (c : Ctl) (k : Nat) (f : Dch → Dch) (b : k < 32) : dchAt (onDch c k f) k = f (dchAt c k) := vget_vmod_same _ _ _ _ b
theorem dchAt_onDch_ne (c : Ctl) {k j : Nat} (f : Dch → Dch) (b : j ≠ k) : dchAt (onDch c k f) j = dchAt c j := vget_vmod_ne _ _ _ b
@[simp] theorem linkAt_onLink_same (c : Ctl) (k : Nat) (f : TLink → TLink) (b : k < 4) : linkAt (onLink c k f) k = f (linkAt c k) := vget_vmod_same _ _ _ _ b
theorem linkAt_onLink_ne (c : Ctl) {k j : Nat} (f : TLink → TLink) (b : j ≠ k) : linkAt (onLink c k f) j = linkAt c j := vget_vmod_ne _ _ _ b
@[simp] theorem railAt_onRail_same (c : Ctl) (r : Nat) (f : Rail → Rail) (b : r < 16) : railAt (onRail c r f) r = f (railAt c r) := vget_vmod_same _ _ _ _ b
theorem railAt_onRail_ne (c : Ctl) {r k : Nat} (f : Rail → Rail) (b : k ≠ r) : railAt (onRail c r f) k = railAt c k := vget_vmod_ne _ _ _ b
@[simp] theorem ringAt_onRing_same (c : Ctl) (r : Nat) (f : Ring → Ring) : ringAt (onRing c r f) r = f (ringAt c r) := tgetD_tmod_same _ _ _ _
theorem ringAt_onRing_ne (c : Ctl) {r k : Nat} (f : Ring → Ring) (b : k ≠ r) : ringAt (onRing c r f) k = ringAt c k := tgetD_tmod_ne _ _ _ b
@[simp] theorem srcAt_onSrc_same (c : Ctl) (s : Nat) (f : SrcSt → SrcSt) : srcAt (onSrc c s f) s = f (srcAt c s) := tgetD_tmod_same _ _ _ _
theorem srcAt_onSrc_ne (c : Ctl) {s k : Nat} (f : SrcSt → SrcSt) (b : k ≠ s) : srcAt (onSrc c s f) k = srcAt c k := tgetD_tmod_ne _ _ _ b
@[simp] theorem unitAt_onUnit_same (c : Ctl) (u : Nat) (f : UnitSt → UnitSt) : unitAt (onUnit c u f) u = f (unitAt c u) := tgetD_tmod_same _ _ _ _
theorem unitAt_onUnit_ne (c : Ctl) {u k : Nat} (f : UnitSt → UnitSt) (b : k ≠ u) : unitAt (onUnit c u f) k = unitAt c k := tgetD_tmod_ne _ _ _ b

end Sys2Proof.Machine
end

