-- ==== Sys2Proof/Laws/Access.lean ====
section
/-! SUPPORT. Laws/Access.lean: the request engine keeps every memory in canonical form. -/
namespace Sys2Proof.Machine

/-- Reading a line keeps the canonical form: an uncorrectable one gains its poison mark (R115, R116). -/
theorem serveRead_wf {d : Dev} (w : d.mem.wf = true) (r : Req) : (serveRead d r).mem.wf = true := by
  unfold serveRead; dsimp only
  (repeat' split) <;> first | exact w | exact setPoison_wf w _ _

/-- What placing a write leaves in memory. -/
theorem placeWrite_mem (d : Dev) (r : Req) : (placeWrite d r).mem = (match r.op with
    | .wrPtl mask => putBytes d.mem r.haddr mask.toNat r.data r.poison
    | _ => putLine d.mem r.haddr r.data r.poison) := by
  unfold placeWrite; extract_lets; exact (apply_ite Dev.mem _ _ _).trans (ite_self _)

/-- Placing a write keeps the canonical form. -/
theorem placeWrite_wf {d : Dev} (w : d.mem.wf = true) (r : Req) : (placeWrite d r).mem.wf = true := by
  rw [placeWrite_mem]; split
  · exact putBytes_wf w _ _ _ _
  · exact putLine_wf w _ _ _

theorem ite_wf {p : Prop} [Decidable p] {a b : Dev} (h : a.mem.wf = true) (k : b.mem.wf = true) : (if p then a else b).mem.wf = true := by
  split
  · exact h
  · exact k

/-- A request that is tried keeps the canonical form. -/
theorem tryReq_wf {d : Dev} (w : d.mem.wf = true) (id : Nat) : (tryReq d id).mem.wf = true := by
  unfold tryReq
  cases reqAt d.ctl id with
  | none => exact w
  | some r =>
    dsimp only
    refine ite_wf w (ite_wf w (ite_wf w ?_))
    cases routeOf d.ctl r with
    | hold => exact w
    | offline => exact w
    | proxy => exact ite_wf w w
    | here =>
      dsimp only
      refine ite_wf w (ite_wf w (ite_wf w (ite_wf w ?_)))
      refine ite_wf w (ite_wf ?_ (ite_wf w ?_))
      · apply serveRead_wf; exact w
      · apply placeWrite_wf; exact w

theorem tryAll_wf {d : Dev} (w : d.mem.wf = true) : (tryAll d).mem.wf = true := by
  unfold tryAll
  suffices h : ∀ (l : List Req) (d : Dev), d.mem.wf = true → (l.foldl (fun d r => tryReq d r.id) d).mem.wf = true from h _ _ w
  intro l
  induction l with
  | nil => exact fun _ w => w
  | cons r l ih => exact fun d w => ih _ (tryReq_wf w r.id)

theorem settleLoop_wf : ∀ (n : Nat) {d : Dev}, d.mem.wf = true → (settleLoop n d).mem.wf = true
  | 0, _, w => w
  | n + 1, d, w => by
    unfold settleLoop; dsimp only; split
    · exact tryAll_wf w
    · exact settleLoop_wf n (tryAll_wf w)

@[simp] theorem poisonWatch_mem (d : Dev) : (poisonWatch d).mem = d.mem := by
  unfold poisonWatch; (repeat' split) <;> rfl

/-- Requests that go on keep the canonical form. -/
theorem settle_wf {d : Dev} (w : d.mem.wf = true) : (settle d).mem.wf = true := by
  have h := settleLoop_wf (3 * d.ctl.reqs.length + 1) w
  unfold settle; rw [poisonWatch_mem]; exact h

/-- A request that enters keeps the canonical form. -/
theorem submit_wf {d : Dev} (w : d.mem.wf = true) (r : Req) : (submit d r).mem.wf = true := by
  unfold submit; exact settle_wf (d := { d with ctl := addReq d.ctl r }) w

/-- So does a list of requests that enter one after another. -/
theorem foldl_submit_wf {α : Type} (f : α → Req) (l : List α) {d : Dev} (w : d.mem.wf = true) : (l.foldl (fun d x => submit d (f x)) d).mem.wf = true := by
  induction l generalizing d with
  | nil => exact w
  | cons x l ih => rw [List.foldl_cons]; exact ih (submit_wf w (f x))

end Sys2Proof.Machine
end

