-- ==== Sys2Proof/Laws/State.lean ====
section
/-! SUPPORT. Laws/State.lean: one rewriting lemma for each part of the device under each update of a part, and for the updates of the whole state. -/
namespace Sys2Proof.Machine

/-! ## onHead -/

@[simp] theorem onHead_glb (c : Ctl) (h : Nat) (f : Head → Head) : (onHead c h f).glb = c.glb := rfl
@[simp] theorem onHead_img (c : Ctl) (h : Nat) (f : Head → Head) : (onHead c h f).img = c.img := rfl
@[simp] theorem onHead_dimm (c : Ctl) (h : Nat) (f : Head → Head) : (onHead c h f).dimm = c.dimm := rfl
@[simp] theorem onHead_fcu (c : Ctl) (h : Nat) (f : Head → Head) : (onHead c h f).fcu = c.fcu := rfl
@[simp] theorem onHead_rtc (c : Ctl) (h : Nat) (f : Head → Head) : (onHead c h f).rtc = c.rtc := rfl
@[simp] theorem onHead_alc (c : Ctl) (h : Nat) (f : Head → Head) : (onHead c h f).alc = c.alc := rfl
@[simp] theorem onHead_clk (c : Ctl) (h : Nat) (f : Head → Head) : (onHead c h f).clk = c.clk := rfl
@[simp] theorem onHead_rst (c : Ctl) (h : Nat) (f : Head → Head) : (onHead c h f).rst = c.rst := rfl
@[simp] theorem onHead_boot (c : Ctl) (h : Nat) (f : Head → Head) : (onHead c h f).boot = c.boot := rfl
@[simp] theorem onHead_seq (c : Ctl) (h : Nat) (f : Head → Head) : (onHead c h f).seq = c.seq := rfl
@[simp] theorem onHead_pwrImg (c : Ctl) (h : Nat) (f : Head → Head) : (onHead c h f).pwrImg = c.pwrImg := rfl
@[simp] theorem onHead_pf (c : Ctl) (h : Nat) (f : Head → Head) : (onHead c h f).pf = c.pf := rfl
@[simp] theorem onHead_hold (c : Ctl) (h : Nat) (f : Head → Head) : (onHead c h f).hold = c.hold := rfl
@[simp] theorem onHead_sns (c : Ctl) (h : Nat) (f : Head → Head) : (onHead c h f).sns = c.sns := rfl
@[simp] theorem onHead_budget (c : Ctl) (h : Nat) (f : Head → Head) : (onHead c h f).budget = c.budget := rfl
@[simp] theorem onHead_mgmt (c : Ctl) (h : Nat) (f : Head → Head) : (onHead c h f).mgmt = c.mgmt := rfl
@[simp] theorem onHead_heads (c : Ctl) (h : Nat) (f : Head → Head) : (onHead c h f).heads = vmod c.heads h f := rfl
@[simp] theorem onHead_lds (c : Ctl) (h : Nat) (f : Head → Head) : (onHead c h f).lds = c.lds := rfl
@[simp] theorem onHead_halls (c : Ctl) (h : Nat) (f : Head → Head) : (onHead c h f).halls = c.halls := rfl
@[simp] theorem onHead_snoops (c : Ctl) (h : Nat) (f : Head → Head) : (onHead c h f).snoops = c.snoops := rfl
@[simp] theorem onHead_releases (c : Ctl) (h : Nat) (f : Head → Head) : (onHead c h f).releases = c.releases := rfl
@[simp] theorem onHead_tenants (c : Ctl) (h : Nat) (f : Head → Head) : (onHead c h f).tenants = c.tenants := rfl
@[simp] theorem onHead_gals (c : Ctl) (h : Nat) (f : Head → Head) : (onHead c h f).gals = c.gals := rfl
@[simp] theorem onHead_dchs (c : Ctl) (h : Nat) (f : Head → Head) : (onHead c h f).dchs = c.dchs := rfl
@[simp] theorem onHead_reqs (c : Ctl) (h : Nat) (f : Head → Head) : (onHead c h f).reqs = c.reqs := rfl
@[simp] theorem onHead_nextReq (c : Ctl) (h : Nat) (f : Head → Head) : (onHead c h f).nextReq = c.nextReq := rfl
@[simp] theorem onHead_twin (c : Ctl) (h : Nat) (f : Head → Head) : (onHead c h f).twin = c.twin := rfl
@[simp] theorem onHead_pair (c : Ctl) (h : Nat) (f : Head → Head) : (onHead c h f).pair = c.pair := rfl
@[simp] theorem onHead_svr (c : Ctl) (h : Nat) (f : Head → Head) : (onHead c h f).svr = c.svr := rfl
@[simp] theorem onHead_vlt (c : Ctl) (h : Nat) (f : Head → Head) : (onHead c h f).vlt = c.vlt := rfl
@[simp] theorem onHead_rings (c : Ctl) (h : Nat) (f : Head → Head) : (onHead c h f).rings = c.rings := rfl
@[simp] theorem onHead_flights (c : Ctl) (h : Nat) (f : Head → Head) : (onHead c h f).flights = c.flights := rfl
@[simp] theorem onHead_fgen (c : Ctl) (h : Nat) (f : Head → Head) : (onHead c h f).fgen = c.fgen := rfl
@[simp] theorem onHead_commitSeq (c : Ctl) (h : Nat) (f : Head → Head) : (onHead c h f).commitSeq = c.commitSeq := rfl
@[simp] theorem onHead_flightCount (c : Ctl) (h : Nat) (f : Head → Head) : (onHead c h f).flightCount = c.flightCount := rfl
@[simp] theorem onHead_flightAbandoned (c : Ctl) (h : Nat) (f : Head → Head) : (onHead c h f).flightAbandoned = c.flightAbandoned := rfl
@[simp] theorem onHead_partnerApplied (c : Ctl) (h : Nat) (f : Head → Head) : (onHead c h f).partnerApplied = c.partnerApplied := rfl
@[simp] theorem onHead_poisonOver (c : Ctl) (h : Nat) (f : Head → Head) : (onHead c h f).poisonOver = c.poisonOver := rfl
@[simp] theorem onHead_throttling (c : Ctl) (h : Nat) (f : Head → Head) : (onHead c h f).throttling = c.throttling := rfl
@[simp] theorem onHead_out (c : Ctl) (h : Nat) (f : Head → Head) : (onHead c h f).out = c.out := rfl
@[simp] theorem onHead_free (c : Ctl) (h : Nat) (f : Head → Head) : (onHead c h f).free = c.free := rfl

/-! ## onLd -/

@[simp] theorem onLd_glb (c : Ctl) (d : Nat) (f : Ld → Ld) : (onLd c d f).glb = c.glb := rfl
@[simp] theorem onLd_img (c : Ctl) (d : Nat) (f : Ld → Ld) : (onLd c d f).img = c.img := rfl
@[simp] theorem onLd_dimm (c : Ctl) (d : Nat) (f : Ld → Ld) : (onLd c d f).dimm = c.dimm := rfl
@[simp] theorem onLd_fcu (c : Ctl) (d : Nat) (f : Ld → Ld) : (onLd c d f).fcu = c.fcu := rfl
@[simp] theorem onLd_rtc (c : Ctl) (d : Nat) (f : Ld → Ld) : (onLd c d f).rtc = c.rtc := rfl
@[simp] theorem onLd_alc (c : Ctl) (d : Nat) (f : Ld → Ld) : (onLd c d f).alc = c.alc := rfl
@[simp] theorem onLd_clk (c : Ctl) (d : Nat) (f : Ld → Ld) : (onLd c d f).clk = c.clk := rfl
@[simp] theorem onLd_rst (c : Ctl) (d : Nat) (f : Ld → Ld) : (onLd c d f).rst = c.rst := rfl
@[simp] theorem onLd_boot (c : Ctl) (d : Nat) (f : Ld → Ld) : (onLd c d f).boot = c.boot := rfl
@[simp] theorem onLd_seq (c : Ctl) (d : Nat) (f : Ld → Ld) : (onLd c d f).seq = c.seq := rfl
@[simp] theorem onLd_pwrImg (c : Ctl) (d : Nat) (f : Ld → Ld) : (onLd c d f).pwrImg = c.pwrImg := rfl
@[simp] theorem onLd_pf (c : Ctl) (d : Nat) (f : Ld → Ld) : (onLd c d f).pf = c.pf := rfl
@[simp] theorem onLd_hold (c : Ctl) (d : Nat) (f : Ld → Ld) : (onLd c d f).hold = c.hold := rfl
@[simp] theorem onLd_sns (c : Ctl) (d : Nat) (f : Ld → Ld) : (onLd c d f).sns = c.sns := rfl
@[simp] theorem onLd_budget (c : Ctl) (d : Nat) (f : Ld → Ld) : (onLd c d f).budget = c.budget := rfl
@[simp] theorem onLd_mgmt (c : Ctl) (d : Nat) (f : Ld → Ld) : (onLd c d f).mgmt = c.mgmt := rfl
@[simp] theorem onLd_heads (c : Ctl) (d : Nat) (f : Ld → Ld) : (onLd c d f).heads = c.heads := rfl
@[simp] theorem onLd_lds (c : Ctl) (d : Nat) (f : Ld → Ld) : (onLd c d f).lds = vmod c.lds d f := rfl
@[simp] theorem onLd_halls (c : Ctl) (d : Nat) (f : Ld → Ld) : (onLd c d f).halls = c.halls := rfl
@[simp] theorem onLd_snoops (c : Ctl) (d : Nat) (f : Ld → Ld) : (onLd c d f).snoops = c.snoops := rfl
@[simp] theorem onLd_releases (c : Ctl) (d : Nat) (f : Ld → Ld) : (onLd c d f).releases = c.releases := rfl
@[simp] theorem onLd_tenants (c : Ctl) (d : Nat) (f : Ld → Ld) : (onLd c d f).tenants = c.tenants := rfl
@[simp] theorem onLd_gals (c : Ctl) (d : Nat) (f : Ld → Ld) : (onLd c d f).gals = c.gals := rfl
@[simp] theorem onLd_dchs (c : Ctl) (d : Nat) (f : Ld → Ld) : (onLd c d f).dchs = c.dchs := rfl
@[simp] theorem onLd_reqs (c : Ctl) (d : Nat) (f : Ld → Ld) : (onLd c d f).reqs = c.reqs := rfl
@[simp] theorem onLd_nextReq (c : Ctl) (d : Nat) (f : Ld → Ld) : (onLd c d f).nextReq = c.nextReq := rfl
@[simp] theorem onLd_twin (c : Ctl) (d : Nat) (f : Ld → Ld) : (onLd c d f).twin = c.twin := rfl
@[simp] theorem onLd_pair (c : Ctl) (d : Nat) (f : Ld → Ld) : (onLd c d f).pair = c.pair := rfl
@[simp] theorem onLd_svr (c : Ctl) (d : Nat) (f : Ld → Ld) : (onLd c d f).svr = c.svr := rfl
@[simp] theorem onLd_vlt (c : Ctl) (d : Nat) (f : Ld → Ld) : (onLd c d f).vlt = c.vlt := rfl
@[simp] theorem onLd_rings (c : Ctl) (d : Nat) (f : Ld → Ld) : (onLd c d f).rings = c.rings := rfl
@[simp] theorem onLd_flights (c : Ctl) (d : Nat) (f : Ld → Ld) : (onLd c d f).flights = c.flights := rfl
@[simp] theorem onLd_fgen (c : Ctl) (d : Nat) (f : Ld → Ld) : (onLd c d f).fgen = c.fgen := rfl
@[simp] theorem onLd_commitSeq (c : Ctl) (d : Nat) (f : Ld → Ld) : (onLd c d f).commitSeq = c.commitSeq := rfl
@[simp] theorem onLd_flightCount (c : Ctl) (d : Nat) (f : Ld → Ld) : (onLd c d f).flightCount = c.flightCount := rfl
@[simp] theorem onLd_flightAbandoned (c : Ctl) (d : Nat) (f : Ld → Ld) : (onLd c d f).flightAbandoned = c.flightAbandoned := rfl
@[simp] theorem onLd_partnerApplied (c : Ctl) (d : Nat) (f : Ld → Ld) : (onLd c d f).partnerApplied = c.partnerApplied := rfl
@[simp] theorem onLd_poisonOver (c : Ctl) (d : Nat) (f : Ld → Ld) : (onLd c d f).poisonOver = c.poisonOver := rfl
@[simp] theorem onLd_throttling (c : Ctl) (d : Nat) (f : Ld → Ld) : (onLd c d f).throttling = c.throttling := rfl
@[simp] theorem onLd_out (c : Ctl) (d : Nat) (f : Ld → Ld) : (onLd c d f).out = c.out := rfl
@[simp] theorem onLd_free (c : Ctl) (d : Nat) (f : Ld → Ld) : (onLd c d f).free = c.free := rfl

/-! ## onGal -/

@[simp] theorem onGal_glb (c : Ctl) (g : Nat) (f : Gal → Gal) : (onGal c g f).glb = c.glb := rfl
@[simp] theorem onGal_img (c : Ctl) (g : Nat) (f : Gal → Gal) : (onGal c g f).img = c.img := rfl
@[simp] theorem onGal_dimm (c : Ctl) (g : Nat) (f : Gal → Gal) : (onGal c g f).dimm = c.dimm := rfl
@[simp] theorem onGal_fcu (c : Ctl) (g : Nat) (f : Gal → Gal) : (onGal c g f).fcu = c.fcu := rfl
@[simp] theorem onGal_rtc (c : Ctl) (g : Nat) (f : Gal → Gal) : (onGal c g f).rtc = c.rtc := rfl
@[simp] theorem onGal_alc (c : Ctl) (g : Nat) (f : Gal → Gal) : (onGal c g f).alc = c.alc := rfl
@[simp] theorem onGal_clk (c : Ctl) (g : Nat) (f : Gal → Gal) : (onGal c g f).clk = c.clk := rfl
@[simp] theorem onGal_rst (c : Ctl) (g : Nat) (f : Gal → Gal) : (onGal c g f).rst = c.rst := rfl
@[simp] theorem onGal_boot (c : Ctl) (g : Nat) (f : Gal → Gal) : (onGal c g f).boot = c.boot := rfl
@[simp] theorem onGal_seq (c : Ctl) (g : Nat) (f : Gal → Gal) : (onGal c g f).seq = c.seq := rfl
@[simp] theorem onGal_pwrImg (c : Ctl) (g : Nat) (f : Gal → Gal) : (onGal c g f).pwrImg = c.pwrImg := rfl
@[simp] theorem onGal_pf (c : Ctl) (g : Nat) (f : Gal → Gal) : (onGal c g f).pf = c.pf := rfl
@[simp] theorem onGal_hold (c : Ctl) (g : Nat) (f : Gal → Gal) : (onGal c g f).hold = c.hold := rfl
@[simp] theorem onGal_sns (c : Ctl) (g : Nat) (f : Gal → Gal) : (onGal c g f).sns = c.sns := rfl
@[simp] theorem onGal_budget (c : Ctl) (g : Nat) (f : Gal → Gal) : (onGal c g f).budget = c.budget := rfl
@[simp] theorem onGal_mgmt (c : Ctl) (g : Nat) (f : Gal → Gal) : (onGal c g f).mgmt = c.mgmt := rfl
@[simp] theorem onGal_heads (c : Ctl) (g : Nat) (f : Gal → Gal) : (onGal c g f).heads = c.heads := rfl
@[simp] theorem onGal_lds (c : Ctl) (g : Nat) (f : Gal → Gal) : (onGal c g f).lds = c.lds := rfl
@[simp] theorem onGal_halls (c : Ctl) (g : Nat) (f : Gal → Gal) : (onGal c g f).halls = c.halls := rfl
@[simp] theorem onGal_snoops (c : Ctl) (g : Nat) (f : Gal → Gal) : (onGal c g f).snoops = c.snoops := rfl
@[simp] theorem onGal_releases (c : Ctl) (g : Nat) (f : Gal → Gal) : (onGal c g f).releases = c.releases := rfl
@[simp] theorem onGal_tenants (c : Ctl) (g : Nat) (f : Gal → Gal) : (onGal c g f).tenants = c.tenants := rfl
@[simp] theorem onGal_gals (c : Ctl) (g : Nat) (f : Gal → Gal) : (onGal c g f).gals = vmod c.gals g f := rfl
@[simp] theorem onGal_dchs (c : Ctl) (g : Nat) (f : Gal → Gal) : (onGal c g f).dchs = c.dchs := rfl
@[simp] theorem onGal_reqs (c : Ctl) (g : Nat) (f : Gal → Gal) : (onGal c g f).reqs = c.reqs := rfl
@[simp] theorem onGal_nextReq (c : Ctl) (g : Nat) (f : Gal → Gal) : (onGal c g f).nextReq = c.nextReq := rfl
@[simp] theorem onGal_twin (c : Ctl) (g : Nat) (f : Gal → Gal) : (onGal c g f).twin = c.twin := rfl
@[simp] theorem onGal_pair (c : Ctl) (g : Nat) (f : Gal → Gal) : (onGal c g f).pair = c.pair := rfl
@[simp] theorem onGal_svr (c : Ctl) (g : Nat) (f : Gal → Gal) : (onGal c g f).svr = c.svr := rfl
@[simp] theorem onGal_vlt (c : Ctl) (g : Nat) (f : Gal → Gal) : (onGal c g f).vlt = c.vlt := rfl
@[simp] theorem onGal_rings (c : Ctl) (g : Nat) (f : Gal → Gal) : (onGal c g f).rings = c.rings := rfl
@[simp] theorem onGal_flights (c : Ctl) (g : Nat) (f : Gal → Gal) : (onGal c g f).flights = c.flights := rfl
@[simp] theorem onGal_fgen (c : Ctl) (g : Nat) (f : Gal → Gal) : (onGal c g f).fgen = c.fgen := rfl
@[simp] theorem onGal_commitSeq (c : Ctl) (g : Nat) (f : Gal → Gal) : (onGal c g f).commitSeq = c.commitSeq := rfl
@[simp] theorem onGal_flightCount (c : Ctl) (g : Nat) (f : Gal → Gal) : (onGal c g f).flightCount = c.flightCount := rfl
@[simp] theorem onGal_flightAbandoned (c : Ctl) (g : Nat) (f : Gal → Gal) : (onGal c g f).flightAbandoned = c.flightAbandoned := rfl
@[simp] theorem onGal_partnerApplied (c : Ctl) (g : Nat) (f : Gal → Gal) : (onGal c g f).partnerApplied = c.partnerApplied := rfl
@[simp] theorem onGal_poisonOver (c : Ctl) (g : Nat) (f : Gal → Gal) : (onGal c g f).poisonOver = c.poisonOver := rfl
@[simp] theorem onGal_throttling (c : Ctl) (g : Nat) (f : Gal → Gal) : (onGal c g f).throttling = c.throttling := rfl
@[simp] theorem onGal_out (c : Ctl) (g : Nat) (f : Gal → Gal) : (onGal c g f).out = c.out := rfl
@[simp] theorem onGal_free (c : Ctl) (g : Nat) (f : Gal → Gal) : (onGal c g f).free = c.free := rfl

/-! ## onDch -/

@[simp] theorem onDch_glb (c : Ctl) (k : Nat) (f : Dch → Dch) : (onDch c k f).glb = c.glb := rfl
@[simp] theorem onDch_img (c : Ctl) (k : Nat) (f : Dch → Dch) : (onDch c k f).img = c.img := rfl
@[simp] theorem onDch_dimm (c : Ctl) (k : Nat) (f : Dch → Dch) : (onDch c k f).dimm = c.dimm := rfl
@[simp] theorem onDch_fcu (c : Ctl) (k : Nat) (f : Dch → Dch) : (onDch c k f).fcu = c.fcu := rfl
@[simp] theorem onDch_rtc (c : Ctl) (k : Nat) (f : Dch → Dch) : (onDch c k f).rtc = c.rtc := rfl
@[simp] theorem onDch_alc (c : Ctl) (k : Nat) (f : Dch → Dch) : (onDch c k f).alc = c.alc := rfl
@[simp] theorem onDch_clk (c : Ctl) (k : Nat) (f : Dch → Dch) : (onDch c k f).clk = c.clk := rfl
@[simp] theorem onDch_rst (c : Ctl) (k : Nat) (f : Dch → Dch) : (onDch c k f).rst = c.rst := rfl
@[simp] theorem onDch_boot (c : Ctl) (k : Nat) (f : Dch → Dch) : (onDch c k f).boot = c.boot := rfl
@[simp] theorem onDch_seq (c : Ctl) (k : Nat) (f : Dch → Dch) : (onDch c k f).seq = c.seq := rfl
@[simp] theorem onDch_pwrImg (c : Ctl) (k : Nat) (f : Dch → Dch) : (onDch c k f).pwrImg = c.pwrImg := rfl
@[simp] theorem onDch_pf (c : Ctl) (k : Nat) (f : Dch → Dch) : (onDch c k f).pf = c.pf := rfl
@[simp] theorem onDch_hold (c : Ctl) (k : Nat) (f : Dch → Dch) : (onDch c k f).hold = c.hold := rfl
@[simp] theorem onDch_sns (c : Ctl) (k : Nat) (f : Dch → Dch) : (onDch c k f).sns = c.sns := rfl
@[simp] theorem onDch_budget (c : Ctl) (k : Nat) (f : Dch → Dch) : (onDch c k f).budget = c.budget := rfl
@[simp] theorem onDch_mgmt (c : Ctl) (k : Nat) (f : Dch → Dch) : (onDch c k f).mgmt = c.mgmt := rfl
@[simp] theorem onDch_heads (c : Ctl) (k : Nat) (f : Dch → Dch) : (onDch c k f).heads = c.heads := rfl
@[simp] theorem onDch_lds (c : Ctl) (k : Nat) (f : Dch → Dch) : (onDch c k f).lds = c.lds := rfl
@[simp] theorem onDch_halls (c : Ctl) (k : Nat) (f : Dch → Dch) : (onDch c k f).halls = c.halls := rfl
@[simp] theorem onDch_snoops (c : Ctl) (k : Nat) (f : Dch → Dch) : (onDch c k f).snoops = c.snoops := rfl
@[simp] theorem onDch_releases (c : Ctl) (k : Nat) (f : Dch → Dch) : (onDch c k f).releases = c.releases := rfl
@[simp] theorem onDch_tenants (c : Ctl) (k : Nat) (f : Dch → Dch) : (onDch c k f).tenants = c.tenants := rfl
@[simp] theorem onDch_gals (c : Ctl) (k : Nat) (f : Dch → Dch) : (onDch c k f).gals = c.gals := rfl
@[simp] theorem onDch_dchs (c : Ctl) (k : Nat) (f : Dch → Dch) : (onDch c k f).dchs = vmod c.dchs k f := rfl
@[simp] theorem onDch_reqs (c : Ctl) (k : Nat) (f : Dch → Dch) : (onDch c k f).reqs = c.reqs := rfl
@[simp] theorem onDch_nextReq (c : Ctl) (k : Nat) (f : Dch → Dch) : (onDch c k f).nextReq = c.nextReq := rfl
@[simp] theorem onDch_twin (c : Ctl) (k : Nat) (f : Dch → Dch) : (onDch c k f).twin = c.twin := rfl
@[simp] theorem onDch_pair (c : Ctl) (k : Nat) (f : Dch → Dch) : (onDch c k f).pair = c.pair := rfl
@[simp] theorem onDch_svr (c : Ctl) (k : Nat) (f : Dch → Dch) : (onDch c k f).svr = c.svr := rfl
@[simp] theorem onDch_vlt (c : Ctl) (k : Nat) (f : Dch → Dch) : (onDch c k f).vlt = c.vlt := rfl
@[simp] theorem onDch_rings (c : Ctl) (k : Nat) (f : Dch → Dch) : (onDch c k f).rings = c.rings := rfl
@[simp] theorem onDch_flights (c : Ctl) (k : Nat) (f : Dch → Dch) : (onDch c k f).flights = c.flights := rfl
@[simp] theorem onDch_fgen (c : Ctl) (k : Nat) (f : Dch → Dch) : (onDch c k f).fgen = c.fgen := rfl
@[simp] theorem onDch_commitSeq (c : Ctl) (k : Nat) (f : Dch → Dch) : (onDch c k f).commitSeq = c.commitSeq := rfl
@[simp] theorem onDch_flightCount (c : Ctl) (k : Nat) (f : Dch → Dch) : (onDch c k f).flightCount = c.flightCount := rfl
@[simp] theorem onDch_flightAbandoned (c : Ctl) (k : Nat) (f : Dch → Dch) : (onDch c k f).flightAbandoned = c.flightAbandoned := rfl
@[simp] theorem onDch_partnerApplied (c : Ctl) (k : Nat) (f : Dch → Dch) : (onDch c k f).partnerApplied = c.partnerApplied := rfl
@[simp] theorem onDch_poisonOver (c : Ctl) (k : Nat) (f : Dch → Dch) : (onDch c k f).poisonOver = c.poisonOver := rfl
@[simp] theorem onDch_throttling (c : Ctl) (k : Nat) (f : Dch → Dch) : (onDch c k f).throttling = c.throttling := rfl
@[simp] theorem onDch_out (c : Ctl) (k : Nat) (f : Dch → Dch) : (onDch c k f).out = c.out := rfl
@[simp] theorem onDch_free (c : Ctl) (k : Nat) (f : Dch → Dch) : (onDch c k f).free = c.free := rfl

/-! ## onLink -/

@[simp] theorem onLink_glb (c : Ctl) (k : Nat) (f : TLink → TLink) : (onLink c k f).glb = c.glb := rfl
@[simp] theorem onLink_img (c : Ctl) (k : Nat) (f : TLink → TLink) : (onLink c k f).img = c.img := rfl
@[simp] theorem onLink_dimm (c : Ctl) (k : Nat) (f : TLink → TLink) : (onLink c k f).dimm = c.dimm := rfl
@[simp] theorem onLink_fcu (c : Ctl) (k : Nat) (f : TLink → TLink) : (onLink c k f).fcu = c.fcu := rfl
@[simp] theorem onLink_rtc (c : Ctl) (k : Nat) (f : TLink → TLink) : (onLink c k f).rtc = c.rtc := rfl
@[simp] theorem onLink_alc (c : Ctl) (k : Nat) (f : TLink → TLink) : (onLink c k f).alc = c.alc := rfl
@[simp] theorem onLink_clk (c : Ctl) (k : Nat) (f : TLink → TLink) : (onLink c k f).clk = c.clk := rfl
@[simp] theorem onLink_rst (c : Ctl) (k : Nat) (f : TLink → TLink) : (onLink c k f).rst = c.rst := rfl
@[simp] theorem onLink_boot (c : Ctl) (k : Nat) (f : TLink → TLink) : (onLink c k f).boot = c.boot := rfl
@[simp] theorem onLink_seq (c : Ctl) (k : Nat) (f : TLink → TLink) : (onLink c k f).seq = c.seq := rfl
@[simp] theorem onLink_pwrImg (c : Ctl) (k : Nat) (f : TLink → TLink) : (onLink c k f).pwrImg = c.pwrImg := rfl
@[simp] theorem onLink_pf (c : Ctl) (k : Nat) (f : TLink → TLink) : (onLink c k f).pf = c.pf := rfl
@[simp] theorem onLink_hold (c : Ctl) (k : Nat) (f : TLink → TLink) : (onLink c k f).hold = c.hold := rfl
@[simp] theorem onLink_sns (c : Ctl) (k : Nat) (f : TLink → TLink) : (onLink c k f).sns = c.sns := rfl
@[simp] theorem onLink_budget (c : Ctl) (k : Nat) (f : TLink → TLink) : (onLink c k f).budget = c.budget := rfl
@[simp] theorem onLink_mgmt (c : Ctl) (k : Nat) (f : TLink → TLink) : (onLink c k f).mgmt = c.mgmt := rfl
@[simp] theorem onLink_heads (c : Ctl) (k : Nat) (f : TLink → TLink) : (onLink c k f).heads = c.heads := rfl
@[simp] theorem onLink_lds (c : Ctl) (k : Nat) (f : TLink → TLink) : (onLink c k f).lds = c.lds := rfl
@[simp] theorem onLink_halls (c : Ctl) (k : Nat) (f : TLink → TLink) : (onLink c k f).halls = c.halls := rfl
@[simp] theorem onLink_snoops (c : Ctl) (k : Nat) (f : TLink → TLink) : (onLink c k f).snoops = c.snoops := rfl
@[simp] theorem onLink_releases (c : Ctl) (k : Nat) (f : TLink → TLink) : (onLink c k f).releases = c.releases := rfl
@[simp] theorem onLink_tenants (c : Ctl) (k : Nat) (f : TLink → TLink) : (onLink c k f).tenants = c.tenants := rfl
@[simp] theorem onLink_gals (c : Ctl) (k : Nat) (f : TLink → TLink) : (onLink c k f).gals = c.gals := rfl
@[simp] theorem onLink_dchs (c : Ctl) (k : Nat) (f : TLink → TLink) : (onLink c k f).dchs = c.dchs := rfl
@[simp] theorem onLink_reqs (c : Ctl) (k : Nat) (f : TLink → TLink) : (onLink c k f).reqs = c.reqs := rfl
@[simp] theorem onLink_nextReq (c : Ctl) (k : Nat) (f : TLink → TLink) : (onLink c k f).nextReq = c.nextReq := rfl
@[simp] theorem onLink_twin (c : Ctl) (k : Nat) (f : TLink → TLink) : (onLink c k f).twin = { c.twin with links := vmod c.twin.links k f } := rfl
@[simp] theorem onLink_pair (c : Ctl) (k : Nat) (f : TLink → TLink) : (onLink c k f).pair = c.pair := rfl
@[simp] theorem onLink_svr (c : Ctl) (k : Nat) (f : TLink → TLink) : (onLink c k f).svr = c.svr := rfl
@[simp] theorem onLink_vlt (c : Ctl) (k : Nat) (f : TLink → TLink) : (onLink c k f).vlt = c.vlt := rfl
@[simp] theorem onLink_rings (c : Ctl) (k : Nat) (f : TLink → TLink) : (onLink c k f).rings = c.rings := rfl
@[simp] theorem onLink_flights (c : Ctl) (k : Nat) (f : TLink → TLink) : (onLink c k f).flights = c.flights := rfl
@[simp] theorem onLink_fgen (c : Ctl) (k : Nat) (f : TLink → TLink) : (onLink c k f).fgen = c.fgen := rfl
@[simp] theorem onLink_commitSeq (c : Ctl) (k : Nat) (f : TLink → TLink) : (onLink c k f).commitSeq = c.commitSeq := rfl
@[simp] theorem onLink_flightCount (c : Ctl) (k : Nat) (f : TLink → TLink) : (onLink c k f).flightCount = c.flightCount := rfl
@[simp] theorem onLink_flightAbandoned (c : Ctl) (k : Nat) (f : TLink → TLink) : (onLink c k f).flightAbandoned = c.flightAbandoned := rfl
@[simp] theorem onLink_partnerApplied (c : Ctl) (k : Nat) (f : TLink → TLink) : (onLink c k f).partnerApplied = c.partnerApplied := rfl
@[simp] theorem onLink_poisonOver (c : Ctl) (k : Nat) (f : TLink → TLink) : (onLink c k f).poisonOver = c.poisonOver := rfl
@[simp] theorem onLink_throttling (c : Ctl) (k : Nat) (f : TLink → TLink) : (onLink c k f).throttling = c.throttling := rfl
@[simp] theorem onLink_out (c : Ctl) (k : Nat) (f : TLink → TLink) : (onLink c k f).out = c.out := rfl
@[simp] theorem onLink_free (c : Ctl) (k : Nat) (f : TLink → TLink) : (onLink c k f).free = c.free := rfl

/-! ## onRail -/

@[simp] theorem onRail_glb (c : Ctl) (r : Nat) (f : Rail → Rail) : (onRail c r f).glb = c.glb := rfl
@[simp] theorem onRail_img (c : Ctl) (r : Nat) (f : Rail → Rail) : (onRail c r f).img = c.img := rfl
@[simp] theorem onRail_dimm (c : Ctl) (r : Nat) (f : Rail → Rail) : (onRail c r f).dimm = c.dimm := rfl
@[simp] theorem onRail_fcu (c : Ctl) (r : Nat) (f : Rail → Rail) : (onRail c r f).fcu = c.fcu := rfl
@[simp] theorem onRail_rtc (c : Ctl) (r : Nat) (f : Rail → Rail) : (onRail c r f).rtc = c.rtc := rfl
@[simp] theorem onRail_alc (c : Ctl) (r : Nat) (f : Rail → Rail) : (onRail c r f).alc = c.alc := rfl
@[simp] theorem onRail_clk (c : Ctl) (r : Nat) (f : Rail → Rail) : (onRail c r f).clk = c.clk := rfl
@[simp] theorem onRail_rst (c : Ctl) (r : Nat) (f : Rail → Rail) : (onRail c r f).rst = c.rst := rfl
@[simp] theorem onRail_boot (c : Ctl) (r : Nat) (f : Rail → Rail) : (onRail c r f).boot = c.boot := rfl
@[simp] theorem onRail_seq (c : Ctl) (r : Nat) (f : Rail → Rail) : (onRail c r f).seq = { c.seq with rails := vmod c.seq.rails r f } := rfl
@[simp] theorem onRail_pwrImg (c : Ctl) (r : Nat) (f : Rail → Rail) : (onRail c r f).pwrImg = c.pwrImg := rfl
@[simp] theorem onRail_pf (c : Ctl) (r : Nat) (f : Rail → Rail) : (onRail c r f).pf = c.pf := rfl
@[simp] theorem onRail_hold (c : Ctl) (r : Nat) (f : Rail → Rail) : (onRail c r f).hold = c.hold := rfl
@[simp] theorem onRail_sns (c : Ctl) (r : Nat) (f : Rail → Rail) : (onRail c r f).sns = c.sns := rfl
@[simp] theorem onRail_budget (c : Ctl) (r : Nat) (f : Rail → Rail) : (onRail c r f).budget = c.budget := rfl
@[simp] theorem onRail_mgmt (c : Ctl) (r : Nat) (f : Rail → Rail) : (onRail c r f).mgmt = c.mgmt := rfl
@[simp] theorem onRail_heads (c : Ctl) (r : Nat) (f : Rail → Rail) : (onRail c r f).heads = c.heads := rfl
@[simp] theorem onRail_lds (c : Ctl) (r : Nat) (f : Rail → Rail) : (onRail c r f).lds = c.lds := rfl
@[simp] theorem onRail_halls (c : Ctl) (r : Nat) (f : Rail → Rail) : (onRail c r f).halls = c.halls := rfl
@[simp] theorem onRail_snoops (c : Ctl) (r : Nat) (f : Rail → Rail) : (onRail c r f).snoops = c.snoops := rfl
@[simp] theorem onRail_releases (c : Ctl) (r : Nat) (f : Rail → Rail) : (onRail c r f).releases = c.releases := rfl
@[simp] theorem onRail_tenants (c : Ctl) (r : Nat) (f : Rail → Rail) : (onRail c r f).tenants = c.tenants := rfl
@[simp] theorem onRail_gals (c : Ctl) (r : Nat) (f : Rail → Rail) : (onRail c r f).gals = c.gals := rfl
@[simp] theorem onRail_dchs (c : Ctl) (r : Nat) (f : Rail → Rail) : (onRail c r f).dchs = c.dchs := rfl
@[simp] theorem onRail_reqs (c : Ctl) (r : Nat) (f : Rail → Rail) : (onRail c r f).reqs = c.reqs := rfl
@[simp] theorem onRail_nextReq (c : Ctl) (r : Nat) (f : Rail → Rail) : (onRail c r f).nextReq = c.nextReq := rfl
@[simp] theorem onRail_twin (c : Ctl) (r : Nat) (f : Rail → Rail) : (onRail c r f).twin = c.twin := rfl
@[simp] theorem onRail_pair (c : Ctl) (r : Nat) (f : Rail → Rail) : (onRail c r f).pair = c.pair := rfl
@[simp] theorem onRail_svr (c : Ctl) (r : Nat) (f : Rail → Rail) : (onRail c r f).svr = c.svr := rfl
@[simp] theorem onRail_vlt (c : Ctl) (r : Nat) (f : Rail → Rail) : (onRail c r f).vlt = c.vlt := rfl
@[simp] theorem onRail_rings (c : Ctl) (r : Nat) (f : Rail → Rail) : (onRail c r f).rings = c.rings := rfl
@[simp] theorem onRail_flights (c : Ctl) (r : Nat) (f : Rail → Rail) : (onRail c r f).flights = c.flights := rfl
@[simp] theorem onRail_fgen (c : Ctl) (r : Nat) (f : Rail → Rail) : (onRail c r f).fgen = c.fgen := rfl
@[simp] theorem onRail_commitSeq (c : Ctl) (r : Nat) (f : Rail → Rail) : (onRail c r f).commitSeq = c.commitSeq := rfl
@[simp] theorem onRail_flightCount (c : Ctl) (r : Nat) (f : Rail → Rail) : (onRail c r f).flightCount = c.flightCount := rfl
@[simp] theorem onRail_flightAbandoned (c : Ctl) (r : Nat) (f : Rail → Rail) : (onRail c r f).flightAbandoned = c.flightAbandoned := rfl
@[simp] theorem onRail_partnerApplied (c : Ctl) (r : Nat) (f : Rail → Rail) : (onRail c r f).partnerApplied = c.partnerApplied := rfl
@[simp] theorem onRail_poisonOver (c : Ctl) (r : Nat) (f : Rail → Rail) : (onRail c r f).poisonOver = c.poisonOver := rfl
@[simp] theorem onRail_throttling (c : Ctl) (r : Nat) (f : Rail → Rail) : (onRail c r f).throttling = c.throttling := rfl
@[simp] theorem onRail_out (c : Ctl) (r : Nat) (f : Rail → Rail) : (onRail c r f).out = c.out := rfl
@[simp] theorem onRail_free (c : Ctl) (r : Nat) (f : Rail → Rail) : (onRail c r f).free = c.free := rfl

/-! ## onRing -/

@[simp] theorem onRing_glb (c : Ctl) (r : Nat) (f : Ring → Ring) : (onRing c r f).glb = c.glb := rfl
@[simp] theorem onRing_img (c : Ctl) (r : Nat) (f : Ring → Ring) : (onRing c r f).img = c.img := rfl
@[simp] theorem onRing_dimm (c : Ctl) (r : Nat) (f : Ring → Ring) : (onRing c r f).dimm = c.dimm := rfl
@[simp] theorem onRing_fcu (c : Ctl) (r : Nat) (f : Ring → Ring) : (onRing c r f).fcu = c.fcu := rfl
@[simp] theorem onRing_rtc (c : Ctl) (r : Nat) (f : Ring → Ring) : (onRing c r f).rtc = c.rtc := rfl
@[simp] theorem onRing_alc (c : Ctl) (r : Nat) (f : Ring → Ring) : (onRing c r f).alc = c.alc := rfl
@[simp] theorem onRing_clk (c : Ctl) (r : Nat) (f : Ring → Ring) : (onRing c r f).clk = c.clk := rfl
@[simp] theorem onRing_rst (c : Ctl) (r : Nat) (f : Ring → Ring) : (onRing c r f).rst = c.rst := rfl
@[simp] theorem onRing_boot (c : Ctl) (r : Nat) (f : Ring → Ring) : (onRing c r f).boot = c.boot := rfl
@[simp] theorem onRing_seq (c : Ctl) (r : Nat) (f : Ring → Ring) : (onRing c r f).seq = c.seq := rfl
@[simp] theorem onRing_pwrImg (c : Ctl) (r : Nat) (f : Ring → Ring) : (onRing c r f).pwrImg = c.pwrImg := rfl
@[simp] theorem onRing_pf (c : Ctl) (r : Nat) (f : Ring → Ring) : (onRing c r f).pf = c.pf := rfl
@[simp] theorem onRing_hold (c : Ctl) (r : Nat) (f : Ring → Ring) : (onRing c r f).hold = c.hold := rfl
@[simp] theorem onRing_sns (c : Ctl) (r : Nat) (f : Ring → Ring) : (onRing c r f).sns = c.sns := rfl
@[simp] theorem onRing_budget (c : Ctl) (r : Nat) (f : Ring → Ring) : (onRing c r f).budget = c.budget := rfl
@[simp] theorem onRing_mgmt (c : Ctl) (r : Nat) (f : Ring → Ring) : (onRing c r f).mgmt = c.mgmt := rfl
@[simp] theorem onRing_heads (c : Ctl) (r : Nat) (f : Ring → Ring) : (onRing c r f).heads = c.heads := rfl
@[simp] theorem onRing_lds (c : Ctl) (r : Nat) (f : Ring → Ring) : (onRing c r f).lds = c.lds := rfl
@[simp] theorem onRing_halls (c : Ctl) (r : Nat) (f : Ring → Ring) : (onRing c r f).halls = c.halls := rfl
@[simp] theorem onRing_snoops (c : Ctl) (r : Nat) (f : Ring → Ring) : (onRing c r f).snoops = c.snoops := rfl
@[simp] theorem onRing_releases (c : Ctl) (r : Nat) (f : Ring → Ring) : (onRing c r f).releases = c.releases := rfl
@[simp] theorem onRing_tenants (c : Ctl) (r : Nat) (f : Ring → Ring) : (onRing c r f).tenants = c.tenants := rfl
@[simp] theorem onRing_gals (c : Ctl) (r : Nat) (f : Ring → Ring) : (onRing c r f).gals = c.gals := rfl
@[simp] theorem onRing_dchs (c : Ctl) (r : Nat) (f : Ring → Ring) : (onRing c r f).dchs = c.dchs := rfl
@[simp] theorem onRing_reqs (c : Ctl) (r : Nat) (f : Ring → Ring) : (onRing c r f).reqs = c.reqs := rfl
@[simp] theorem onRing_nextReq (c : Ctl) (r : Nat) (f : Ring → Ring) : (onRing c r f).nextReq = c.nextReq := rfl
@[simp] theorem onRing_twin (c : Ctl) (r : Nat) (f : Ring → Ring) : (onRing c r f).twin = c.twin := rfl
@[simp] theorem onRing_pair (c : Ctl) (r : Nat) (f : Ring → Ring) : (onRing c r f).pair = c.pair := rfl
@[simp] theorem onRing_svr (c : Ctl) (r : Nat) (f : Ring → Ring) : (onRing c r f).svr = c.svr := rfl
@[simp] theorem onRing_vlt (c : Ctl) (r : Nat) (f : Ring → Ring) : (onRing c r f).vlt = c.vlt := rfl
@[simp] theorem onRing_rings (c : Ctl) (r : Nat) (f : Ring → Ring) : (onRing c r f).rings = tmod c.rings r Ring.reset f := rfl
@[simp] theorem onRing_flights (c : Ctl) (r : Nat) (f : Ring → Ring) : (onRing c r f).flights = c.flights := rfl
@[simp] theorem onRing_fgen (c : Ctl) (r : Nat) (f : Ring → Ring) : (onRing c r f).fgen = c.fgen := rfl
@[simp] theorem onRing_commitSeq (c : Ctl) (r : Nat) (f : Ring → Ring) : (onRing c r f).commitSeq = c.commitSeq := rfl
@[simp] theorem onRing_flightCount (c : Ctl) (r : Nat) (f : Ring → Ring) : (onRing c r f).flightCount = c.flightCount := rfl
@[simp] theorem onRing_flightAbandoned (c : Ctl) (r : Nat) (f : Ring → Ring) : (onRing c r f).flightAbandoned = c.flightAbandoned := rfl
@[simp] theorem onRing_partnerApplied (c : Ctl) (r : Nat) (f : Ring → Ring) : (onRing c r f).partnerApplied = c.partnerApplied := rfl
@[simp] theorem onRing_poisonOver (c : Ctl) (r : Nat) (f : Ring → Ring) : (onRing c r f).poisonOver = c.poisonOver := rfl
@[simp] theorem onRing_throttling (c : Ctl) (r : Nat) (f : Ring → Ring) : (onRing c r f).throttling = c.throttling := rfl
@[simp] theorem onRing_out (c : Ctl) (r : Nat) (f : Ring → Ring) : (onRing c r f).out = c.out := rfl
@[simp] theorem onRing_free (c : Ctl) (r : Nat) (f : Ring → Ring) : (onRing c r f).free = c.free := rfl

/-! ## onReq -/

@[simp] theorem onReq_glb (c : Ctl) (id : Nat) (f : Req → Req) : (onReq c id f).glb = c.glb := rfl
@[simp] theorem onReq_img (c : Ctl) (id : Nat) (f : Req → Req) : (onReq c id f).img = c.img := rfl
@[simp] theorem onReq_dimm (c : Ctl) (id : Nat) (f : Req → Req) : (onReq c id f).dimm = c.dimm := rfl
@[simp] theorem onReq_fcu (c : Ctl) (id : Nat) (f : Req → Req) : (onReq c id f).fcu = c.fcu := rfl
@[simp] theorem onReq_rtc (c : Ctl) (id : Nat) (f : Req → Req) : (onReq c id f).rtc = c.rtc := rfl
@[simp] theorem onReq_alc (c : Ctl) (id : Nat) (f : Req → Req) : (onReq c id f).alc = c.alc := rfl
@[simp] theorem onReq_clk (c : Ctl) (id : Nat) (f : Req → Req) : (onReq c id f).clk = c.clk := rfl
@[simp] theorem onReq_rst (c : Ctl) (id : Nat) (f : Req → Req) : (onReq c id f).rst = c.rst := rfl
@[simp] theorem onReq_boot (c : Ctl) (id : Nat) (f : Req → Req) : (onReq c id f).boot = c.boot := rfl
@[simp] theorem onReq_seq (c : Ctl) (id : Nat) (f : Req → Req) : (onReq c id f).seq = c.seq := rfl
@[simp] theorem onReq_pwrImg (c : Ctl) (id : Nat) (f : Req → Req) : (onReq c id f).pwrImg = c.pwrImg := rfl
@[simp] theorem onReq_pf (c : Ctl) (id : Nat) (f : Req → Req) : (onReq c id f).pf = c.pf := rfl
@[simp] theorem onReq_hold (c : Ctl) (id : Nat) (f : Req → Req) : (onReq c id f).hold = c.hold := rfl
@[simp] theorem onReq_sns (c : Ctl) (id : Nat) (f : Req → Req) : (onReq c id f).sns = c.sns := rfl
@[simp] theorem onReq_budget (c : Ctl) (id : Nat) (f : Req → Req) : (onReq c id f).budget = c.budget := rfl
@[simp] theorem onReq_mgmt (c : Ctl) (id : Nat) (f : Req → Req) : (onReq c id f).mgmt = c.mgmt := rfl
@[simp] theorem onReq_heads (c : Ctl) (id : Nat) (f : Req → Req) : (onReq c id f).heads = c.heads := rfl
@[simp] theorem onReq_lds (c : Ctl) (id : Nat) (f : Req → Req) : (onReq c id f).lds = c.lds := rfl
@[simp] theorem onReq_halls (c : Ctl) (id : Nat) (f : Req → Req) : (onReq c id f).halls = c.halls := rfl
@[simp] theorem onReq_snoops (c : Ctl) (id : Nat) (f : Req → Req) : (onReq c id f).snoops = c.snoops := rfl
@[simp] theorem onReq_releases (c : Ctl) (id : Nat) (f : Req → Req) : (onReq c id f).releases = c.releases := rfl
@[simp] theorem onReq_tenants (c : Ctl) (id : Nat) (f : Req → Req) : (onReq c id f).tenants = c.tenants := rfl
@[simp] theorem onReq_gals (c : Ctl) (id : Nat) (f : Req → Req) : (onReq c id f).gals = c.gals := rfl
@[simp] theorem onReq_dchs (c : Ctl) (id : Nat) (f : Req → Req) : (onReq c id f).dchs = c.dchs := rfl
@[simp] theorem onReq_reqs (c : Ctl) (id : Nat) (f : Req → Req) : (onReq c id f).reqs = modFirst (fun r => r.id == id) f c.reqs := rfl
@[simp] theorem onReq_nextReq (c : Ctl) (id : Nat) (f : Req → Req) : (onReq c id f).nextReq = c.nextReq := rfl
@[simp] theorem onReq_twin (c : Ctl) (id : Nat) (f : Req → Req) : (onReq c id f).twin = c.twin := rfl
@[simp] theorem onReq_pair (c : Ctl) (id : Nat) (f : Req → Req) : (onReq c id f).pair = c.pair := rfl
@[simp] theorem onReq_svr (c : Ctl) (id : Nat) (f : Req → Req) : (onReq c id f).svr = c.svr := rfl
@[simp] theorem onReq_vlt (c : Ctl) (id : Nat) (f : Req → Req) : (onReq c id f).vlt = c.vlt := rfl
@[simp] theorem onReq_rings (c : Ctl) (id : Nat) (f : Req → Req) : (onReq c id f).rings = c.rings := rfl
@[simp] theorem onReq_flights (c : Ctl) (id : Nat) (f : Req → Req) : (onReq c id f).flights = c.flights := rfl
@[simp] theorem onReq_fgen (c : Ctl) (id : Nat) (f : Req → Req) : (onReq c id f).fgen = c.fgen := rfl
@[simp] theorem onReq_commitSeq (c : Ctl) (id : Nat) (f : Req → Req) : (onReq c id f).commitSeq = c.commitSeq := rfl
@[simp] theorem onReq_flightCount (c : Ctl) (id : Nat) (f : Req → Req) : (onReq c id f).flightCount = c.flightCount := rfl
@[simp] theorem onReq_flightAbandoned (c : Ctl) (id : Nat) (f : Req → Req) : (onReq c id f).flightAbandoned = c.flightAbandoned := rfl
@[simp] theorem onReq_partnerApplied (c : Ctl) (id : Nat) (f : Req → Req) : (onReq c id f).partnerApplied = c.partnerApplied := rfl
@[simp] theorem onReq_poisonOver (c : Ctl) (id : Nat) (f : Req → Req) : (onReq c id f).poisonOver = c.poisonOver := rfl
@[simp] theorem onReq_throttling (c : Ctl) (id : Nat) (f : Req → Req) : (onReq c id f).throttling = c.throttling := rfl
@[simp] theorem onReq_out (c : Ctl) (id : Nat) (f : Req → Req) : (onReq c id f).out = c.out := rfl
@[simp] theorem onReq_free (c : Ctl) (id : Nat) (f : Req → Req) : (onReq c id f).free = c.free := rfl

/-! ## dropReq -/

@[simp] theorem dropReq_glb (c : Ctl) (id : Nat) : (dropReq c id).glb = c.glb := rfl
@[simp] theorem dropReq_img (c : Ctl) (id : Nat) : (dropReq c id).img = c.img := rfl
@[simp] theorem dropReq_dimm (c : Ctl) (id : Nat) : (dropReq c id).dimm = c.dimm := rfl
@[simp] theorem dropReq_fcu (c : Ctl) (id : Nat) : (dropReq c id).fcu = c.fcu := rfl
@[simp] theorem dropReq_rtc (c : Ctl) (id : Nat) : (dropReq c id).rtc = c.rtc := rfl
@[simp] theorem dropReq_alc (c : Ctl) (id : Nat) : (dropReq c id).alc = c.alc := rfl
@[simp] theorem dropReq_clk (c : Ctl) (id : Nat) : (dropReq c id).clk = c.clk := rfl
@[simp] theorem dropReq_rst (c : Ctl) (id : Nat) : (dropReq c id).rst = c.rst := rfl
@[simp] theorem dropReq_boot (c : Ctl) (id : Nat) : (dropReq c id).boot = c.boot := rfl
@[simp] theorem dropReq_seq (c : Ctl) (id : Nat) : (dropReq c id).seq = c.seq := rfl
@[simp] theorem dropReq_pwrImg (c : Ctl) (id : Nat) : (dropReq c id).pwrImg = c.pwrImg := rfl
@[simp] theorem dropReq_pf (c : Ctl) (id : Nat) : (dropReq c id).pf = c.pf := rfl
@[simp] theorem dropReq_hold (c : Ctl) (id : Nat) : (dropReq c id).hold = c.hold := rfl
@[simp] theorem dropReq_sns (c : Ctl) (id : Nat) : (dropReq c id).sns = c.sns := rfl
@[simp] theorem dropReq_budget (c : Ctl) (id : Nat) : (dropReq c id).budget = c.budget := rfl
@[simp] theorem dropReq_mgmt (c : Ctl) (id : Nat) : (dropReq c id).mgmt = c.mgmt := rfl
@[simp] theorem dropReq_heads (c : Ctl) (id : Nat) : (dropReq c id).heads = c.heads := rfl
@[simp] theorem dropReq_lds (c : Ctl) (id : Nat) : (dropReq c id).lds = c.lds := rfl
@[simp] theorem dropReq_halls (c : Ctl) (id : Nat) : (dropReq c id).halls = c.halls := rfl
@[simp] theorem dropReq_snoops (c : Ctl) (id : Nat) : (dropReq c id).snoops = c.snoops := rfl
@[simp] theorem dropReq_releases (c : Ctl) (id : Nat) : (dropReq c id).releases = c.releases := rfl
@[simp] theorem dropReq_tenants (c : Ctl) (id : Nat) : (dropReq c id).tenants = c.tenants := rfl
@[simp] theorem dropReq_gals (c : Ctl) (id : Nat) : (dropReq c id).gals = c.gals := rfl
@[simp] theorem dropReq_dchs (c : Ctl) (id : Nat) : (dropReq c id).dchs = c.dchs := rfl
@[simp] theorem dropReq_reqs (c : Ctl) (id : Nat) : (dropReq c id).reqs = delFirst (fun r => r.id == id) c.reqs := rfl
@[simp] theorem dropReq_nextReq (c : Ctl) (id : Nat) : (dropReq c id).nextReq = c.nextReq := rfl
@[simp] theorem dropReq_twin (c : Ctl) (id : Nat) : (dropReq c id).twin = c.twin := rfl
@[simp] theorem dropReq_pair (c : Ctl) (id : Nat) : (dropReq c id).pair = c.pair := rfl
@[simp] theorem dropReq_svr (c : Ctl) (id : Nat) : (dropReq c id).svr = c.svr := rfl
@[simp] theorem dropReq_vlt (c : Ctl) (id : Nat) : (dropReq c id).vlt = c.vlt := rfl
@[simp] theorem dropReq_rings (c : Ctl) (id : Nat) : (dropReq c id).rings = c.rings := rfl
@[simp] theorem dropReq_flights (c : Ctl) (id : Nat) : (dropReq c id).flights = c.flights := rfl
@[simp] theorem dropReq_fgen (c : Ctl) (id : Nat) : (dropReq c id).fgen = c.fgen := rfl
@[simp] theorem dropReq_commitSeq (c : Ctl) (id : Nat) : (dropReq c id).commitSeq = c.commitSeq := rfl
@[simp] theorem dropReq_flightCount (c : Ctl) (id : Nat) : (dropReq c id).flightCount = c.flightCount := rfl
@[simp] theorem dropReq_flightAbandoned (c : Ctl) (id : Nat) : (dropReq c id).flightAbandoned = c.flightAbandoned := rfl
@[simp] theorem dropReq_partnerApplied (c : Ctl) (id : Nat) : (dropReq c id).partnerApplied = c.partnerApplied := rfl
@[simp] theorem dropReq_poisonOver (c : Ctl) (id : Nat) : (dropReq c id).poisonOver = c.poisonOver := rfl
@[simp] theorem dropReq_throttling (c : Ctl) (id : Nat) : (dropReq c id).throttling = c.throttling := rfl
@[simp] theorem dropReq_out (c : Ctl) (id : Nat) : (dropReq c id).out = c.out := rfl
@[simp] theorem dropReq_free (c : Ctl) (id : Nat) : (dropReq c id).free = c.free := rfl

/-! ## waitReq -/

@[simp] theorem waitReq_glb (c : Ctl) (id : Nat) (w : Wait) : (waitReq c id w).glb = c.glb := rfl
@[simp] theorem waitReq_img (c : Ctl) (id : Nat) (w : Wait) : (waitReq c id w).img = c.img := rfl
@[simp] theorem waitReq_dimm (c : Ctl) (id : Nat) (w : Wait) : (waitReq c id w).dimm = c.dimm := rfl
@[simp] theorem waitReq_fcu (c : Ctl) (id : Nat) (w : Wait) : (waitReq c id w).fcu = c.fcu := rfl
@[simp] theorem waitReq_rtc (c : Ctl) (id : Nat) (w : Wait) : (waitReq c id w).rtc = c.rtc := rfl
@[simp] theorem waitReq_alc (c : Ctl) (id : Nat) (w : Wait) : (waitReq c id w).alc = c.alc := rfl
@[simp] theorem waitReq_clk (c : Ctl) (id : Nat) (w : Wait) : (waitReq c id w).clk = c.clk := rfl
@[simp] theorem waitReq_rst (c : Ctl) (id : Nat) (w : Wait) : (waitReq c id w).rst = c.rst := rfl
@[simp] theorem waitReq_boot (c : Ctl) (id : Nat) (w : Wait) : (waitReq c id w).boot = c.boot := rfl
@[simp] theorem waitReq_seq (c : Ctl) (id : Nat) (w : Wait) : (waitReq c id w).seq = c.seq := rfl
@[simp] theorem waitReq_pwrImg (c : Ctl) (id : Nat) (w : Wait) : (waitReq c id w).pwrImg = c.pwrImg := rfl
@[simp] theorem waitReq_pf (c : Ctl) (id : Nat) (w : Wait) : (waitReq c id w).pf = c.pf := rfl
@[simp] theorem waitReq_hold (c : Ctl) (id : Nat) (w : Wait) : (waitReq c id w).hold = c.hold := rfl
@[simp] theorem waitReq_sns (c : Ctl) (id : Nat) (w : Wait) : (waitReq c id w).sns = c.sns := rfl
@[simp] theorem waitReq_budget (c : Ctl) (id : Nat) (w : Wait) : (waitReq c id w).budget = c.budget := rfl
@[simp] theorem waitReq_mgmt (c : Ctl) (id : Nat) (w : Wait) : (waitReq c id w).mgmt = c.mgmt := rfl
@[simp] theorem waitReq_heads (c : Ctl) (id : Nat) (w : Wait) : (waitReq c id w).heads = c.heads := rfl
@[simp] theorem waitReq_lds (c : Ctl) (id : Nat) (w : Wait) : (waitReq c id w).lds = c.lds := rfl
@[simp] theorem waitReq_halls (c : Ctl) (id : Nat) (w : Wait) : (waitReq c id w).halls = c.halls := rfl
@[simp] theorem waitReq_snoops (c : Ctl) (id : Nat) (w : Wait) : (waitReq c id w).snoops = c.snoops := rfl
@[simp] theorem waitReq_releases (c : Ctl) (id : Nat) (w : Wait) : (waitReq c id w).releases = c.releases := rfl
@[simp] theorem waitReq_tenants (c : Ctl) (id : Nat) (w : Wait) : (waitReq c id w).tenants = c.tenants := rfl
@[simp] theorem waitReq_gals (c : Ctl) (id : Nat) (w : Wait) : (waitReq c id w).gals = c.gals := rfl
@[simp] theorem waitReq_dchs (c : Ctl) (id : Nat) (w : Wait) : (waitReq c id w).dchs = c.dchs := rfl
@[simp] theorem waitReq_reqs (c : Ctl) (id : Nat) (w : Wait) : (waitReq c id w).reqs = modFirst (fun r => r.id == id) (fun r => { r with wait := w }) c.reqs := rfl
@[simp] theorem waitReq_nextReq (c : Ctl) (id : Nat) (w : Wait) : (waitReq c id w).nextReq = c.nextReq := rfl
@[simp] theorem waitReq_twin (c : Ctl) (id : Nat) (w : Wait) : (waitReq c id w).twin = c.twin := rfl
@[simp] theorem waitReq_pair (c : Ctl) (id : Nat) (w : Wait) : (waitReq c id w).pair = c.pair := rfl
@[simp] theorem waitReq_svr (c : Ctl) (id : Nat) (w : Wait) : (waitReq c id w).svr = c.svr := rfl
@[simp] theorem waitReq_vlt (c : Ctl) (id : Nat) (w : Wait) : (waitReq c id w).vlt = c.vlt := rfl
@[simp] theorem waitReq_rings (c : Ctl) (id : Nat) (w : Wait) : (waitReq c id w).rings = c.rings := rfl
@[simp] theorem waitReq_flights (c : Ctl) (id : Nat) (w : Wait) : (waitReq c id w).flights = c.flights := rfl
@[simp] theorem waitReq_fgen (c : Ctl) (id : Nat) (w : Wait) : (waitReq c id w).fgen = c.fgen := rfl
@[simp] theorem waitReq_commitSeq (c : Ctl) (id : Nat) (w : Wait) : (waitReq c id w).commitSeq = c.commitSeq := rfl
@[simp] theorem waitReq_flightCount (c : Ctl) (id : Nat) (w : Wait) : (waitReq c id w).flightCount = c.flightCount := rfl
@[simp] theorem waitReq_flightAbandoned (c : Ctl) (id : Nat) (w : Wait) : (waitReq c id w).flightAbandoned = c.flightAbandoned := rfl
@[simp] theorem waitReq_partnerApplied (c : Ctl) (id : Nat) (w : Wait) : (waitReq c id w).partnerApplied = c.partnerApplied := rfl
@[simp] theorem waitReq_poisonOver (c : Ctl) (id : Nat) (w : Wait) : (waitReq c id w).poisonOver = c.poisonOver := rfl
@[simp] theorem waitReq_throttling (c : Ctl) (id : Nat) (w : Wait) : (waitReq c id w).throttling = c.throttling := rfl
@[simp] theorem waitReq_out (c : Ctl) (id : Nat) (w : Wait) : (waitReq c id w).out = c.out := rfl
@[simp] theorem waitReq_free (c : Ctl) (id : Nat) (w : Wait) : (waitReq c id w).free = c.free := rfl

/-! ## onFlight -/

@[simp] theorem onFlight_glb (c : Ctl) (own : Bool) (slot : Nat) (f : Flight → Flight) : (onFlight c own slot f).glb = c.glb := rfl
@[simp] theorem onFlight_img (c : Ctl) (own : Bool) (slot : Nat) (f : Flight → Flight) : (onFlight c own slot f).img = c.img := rfl
@[simp] theorem onFlight_dimm (c : Ctl) (own : Bool) (slot : Nat) (f : Flight → Flight) : (onFlight c own slot f).dimm = c.dimm := rfl
@[simp] theorem onFlight_fcu (c : Ctl) (own : Bool) (slot : Nat) (f : Flight → Flight) : (onFlight c own slot f).fcu = c.fcu := rfl
@[simp] theorem onFlight_rtc (c : Ctl) (own : Bool) (slot : Nat) (f : Flight → Flight) : (onFlight c own slot f).rtc = c.rtc := rfl
@[simp] theorem onFlight_alc (c : Ctl) (own : Bool) (slot : Nat) (f : Flight → Flight) : (onFlight c own slot f).alc = c.alc := rfl
@[simp] theorem onFlight_clk (c : Ctl) (own : Bool) (slot : Nat) (f : Flight → Flight) : (onFlight c own slot f).clk = c.clk := rfl
@[simp] theorem onFlight_rst (c : Ctl) (own : Bool) (slot : Nat) (f : Flight → Flight) : (onFlight c own slot f).rst = c.rst := rfl
@[simp] theorem onFlight_boot (c : Ctl) (own : Bool) (slot : Nat) (f : Flight → Flight) : (onFlight c own slot f).boot = c.boot := rfl
@[simp] theorem onFlight_seq (c : Ctl) (own : Bool) (slot : Nat) (f : Flight → Flight) : (onFlight c own slot f).seq = c.seq := rfl
@[simp] theorem onFlight_pwrImg (c : Ctl) (own : Bool) (slot : Nat) (f : Flight → Flight) : (onFlight c own slot f).pwrImg = c.pwrImg := rfl
@[simp] theorem onFlight_pf (c : Ctl) (own : Bool) (slot : Nat) (f : Flight → Flight) : (onFlight c own slot f).pf = c.pf := rfl
@[simp] theorem onFlight_hold (c : Ctl) (own : Bool) (slot : Nat) (f : Flight → Flight) : (onFlight c own slot f).hold = c.hold := rfl
@[simp] theorem onFlight_sns (c : Ctl) (own : Bool) (slot : Nat) (f : Flight → Flight) : (onFlight c own slot f).sns = c.sns := rfl
@[simp] theorem onFlight_budget (c : Ctl) (own : Bool) (slot : Nat) (f : Flight → Flight) : (onFlight c own slot f).budget = c.budget := rfl
@[simp] theorem onFlight_mgmt (c : Ctl) (own : Bool) (slot : Nat) (f : Flight → Flight) : (onFlight c own slot f).mgmt = c.mgmt := rfl
@[simp] theorem onFlight_heads (c : Ctl) (own : Bool) (slot : Nat) (f : Flight → Flight) : (onFlight c own slot f).heads = c.heads := rfl
@[simp] theorem onFlight_lds (c : Ctl) (own : Bool) (slot : Nat) (f : Flight → Flight) : (onFlight c own slot f).lds = c.lds := rfl
@[simp] theorem onFlight_halls (c : Ctl) (own : Bool) (slot : Nat) (f : Flight → Flight) : (onFlight c own slot f).halls = c.halls := rfl
@[simp] theorem onFlight_snoops (c : Ctl) (own : Bool) (slot : Nat) (f : Flight → Flight) : (onFlight c own slot f).snoops = c.snoops := rfl
@[simp] theorem onFlight_releases (c : Ctl) (own : Bool) (slot : Nat) (f : Flight → Flight) : (onFlight c own slot f).releases = c.releases := rfl
@[simp] theorem onFlight_tenants (c : Ctl) (own : Bool) (slot : Nat) (f : Flight → Flight) : (onFlight c own slot f).tenants = c.tenants := rfl
@[simp] theorem onFlight_gals (c : Ctl) (own : Bool) (slot : Nat) (f : Flight → Flight) : (onFlight c own slot f).gals = c.gals := rfl
@[simp] theorem onFlight_dchs (c : Ctl) (own : Bool) (slot : Nat) (f : Flight → Flight) : (onFlight c own slot f).dchs = c.dchs := rfl
@[simp] theorem onFlight_reqs (c : Ctl) (own : Bool) (slot : Nat) (f : Flight → Flight) : (onFlight c own slot f).reqs = c.reqs := rfl
@[simp] theorem onFlight_nextReq (c : Ctl) (own : Bool) (slot : Nat) (f : Flight → Flight) : (onFlight c own slot f).nextReq = c.nextReq := rfl
@[simp] theorem onFlight_twin (c : Ctl) (own : Bool) (slot : Nat) (f : Flight → Flight) : (onFlight c own slot f).twin = c.twin := rfl
@[simp] theorem onFlight_pair (c : Ctl) (own : Bool) (slot : Nat) (f : Flight → Flight) : (onFlight c own slot f).pair = c.pair := rfl
@[simp] theorem onFlight_svr (c : Ctl) (own : Bool) (slot : Nat) (f : Flight → Flight) : (onFlight c own slot f).svr = c.svr := rfl
@[simp] theorem onFlight_vlt (c : Ctl) (own : Bool) (slot : Nat) (f : Flight → Flight) : (onFlight c own slot f).vlt = c.vlt := rfl
@[simp] theorem onFlight_rings (c : Ctl) (own : Bool) (slot : Nat) (f : Flight → Flight) : (onFlight c own slot f).rings = c.rings := rfl
@[simp] theorem onFlight_flights (c : Ctl) (own : Bool) (slot : Nat) (f : Flight → Flight) : (onFlight c own slot f).flights = modFirst (flightKey own slot) f c.flights := rfl
@[simp] theorem onFlight_fgen (c : Ctl) (own : Bool) (slot : Nat) (f : Flight → Flight) : (onFlight c own slot f).fgen = c.fgen := rfl
@[simp] theorem onFlight_commitSeq (c : Ctl) (own : Bool) (slot : Nat) (f : Flight → Flight) : (onFlight c own slot f).commitSeq = c.commitSeq := rfl
@[simp] theorem onFlight_flightCount (c : Ctl) (own : Bool) (slot : Nat) (f : Flight → Flight) : (onFlight c own slot f).flightCount = c.flightCount := rfl
@[simp] theorem onFlight_flightAbandoned (c : Ctl) (own : Bool) (slot : Nat) (f : Flight → Flight) : (onFlight c own slot f).flightAbandoned = c.flightAbandoned := rfl
@[simp] theorem onFlight_partnerApplied (c : Ctl) (own : Bool) (slot : Nat) (f : Flight → Flight) : (onFlight c own slot f).partnerApplied = c.partnerApplied := rfl
@[simp] theorem onFlight_poisonOver (c : Ctl) (own : Bool) (slot : Nat) (f : Flight → Flight) : (onFlight c own slot f).poisonOver = c.poisonOver := rfl
@[simp] theorem onFlight_throttling (c : Ctl) (own : Bool) (slot : Nat) (f : Flight → Flight) : (onFlight c own slot f).throttling = c.throttling := rfl
@[simp] theorem onFlight_out (c : Ctl) (own : Bool) (slot : Nat) (f : Flight → Flight) : (onFlight c own slot f).out = c.out := rfl
@[simp] theorem onFlight_free (c : Ctl) (own : Bool) (slot : Nat) (f : Flight → Flight) : (onFlight c own slot f).free = c.free := rfl

/-! ## onSrc -/

@[simp] theorem onSrc_glb (c : Ctl) (s : Nat) (f : SrcSt → SrcSt) : (onSrc c s f).glb = c.glb := rfl
@[simp] theorem onSrc_img (c : Ctl) (s : Nat) (f : SrcSt → SrcSt) : (onSrc c s f).img = c.img := rfl
@[simp] theorem onSrc_dimm (c : Ctl) (s : Nat) (f : SrcSt → SrcSt) : (onSrc c s f).dimm = c.dimm := rfl
@[simp] theorem onSrc_fcu (c : Ctl) (s : Nat) (f : SrcSt → SrcSt) : (onSrc c s f).fcu = { c.fcu with src := tmod c.fcu.src s SrcSt.quiet f } := rfl
@[simp] theorem onSrc_rtc (c : Ctl) (s : Nat) (f : SrcSt → SrcSt) : (onSrc c s f).rtc = c.rtc := rfl
@[simp] theorem onSrc_alc (c : Ctl) (s : Nat) (f : SrcSt → SrcSt) : (onSrc c s f).alc = c.alc := rfl
@[simp] theorem onSrc_clk (c : Ctl) (s : Nat) (f : SrcSt → SrcSt) : (onSrc c s f).clk = c.clk := rfl
@[simp] theorem onSrc_rst (c : Ctl) (s : Nat) (f : SrcSt → SrcSt) : (onSrc c s f).rst = c.rst := rfl
@[simp] theorem onSrc_boot (c : Ctl) (s : Nat) (f : SrcSt → SrcSt) : (onSrc c s f).boot = c.boot := rfl
@[simp] theorem onSrc_seq (c : Ctl) (s : Nat) (f : SrcSt → SrcSt) : (onSrc c s f).seq = c.seq := rfl
@[simp] theorem onSrc_pwrImg (c : Ctl) (s : Nat) (f : SrcSt → SrcSt) : (onSrc c s f).pwrImg = c.pwrImg := rfl
@[simp] theorem onSrc_pf (c : Ctl) (s : Nat) (f : SrcSt → SrcSt) : (onSrc c s f).pf = c.pf := rfl
@[simp] theorem onSrc_hold (c : Ctl) (s : Nat) (f : SrcSt → SrcSt) : (onSrc c s f).hold = c.hold := rfl
@[simp] theorem onSrc_sns (c : Ctl) (s : Nat) (f : SrcSt → SrcSt) : (onSrc c s f).sns = c.sns := rfl
@[simp] theorem onSrc_budget (c : Ctl) (s : Nat) (f : SrcSt → SrcSt) : (onSrc c s f).budget = c.budget := rfl
@[simp] theorem onSrc_mgmt (c : Ctl) (s : Nat) (f : SrcSt → SrcSt) : (onSrc c s f).mgmt = c.mgmt := rfl
@[simp] theorem onSrc_heads (c : Ctl) (s : Nat) (f : SrcSt → SrcSt) : (onSrc c s f).heads = c.heads := rfl
@[simp] theorem onSrc_lds (c : Ctl) (s : Nat) (f : SrcSt → SrcSt) : (onSrc c s f).lds = c.lds := rfl
@[simp] theorem onSrc_halls (c : Ctl) (s : Nat) (f : SrcSt → SrcSt) : (onSrc c s f).halls = c.halls := rfl
@[simp] theorem onSrc_snoops (c : Ctl) (s : Nat) (f : SrcSt → SrcSt) : (onSrc c s f).snoops = c.snoops := rfl
@[simp] theorem onSrc_releases (c : Ctl) (s : Nat) (f : SrcSt → SrcSt) : (onSrc c s f).releases = c.releases := rfl
@[simp] theorem onSrc_tenants (c : Ctl) (s : Nat) (f : SrcSt → SrcSt) : (onSrc c s f).tenants = c.tenants := rfl
@[simp] theorem onSrc_gals (c : Ctl) (s : Nat) (f : SrcSt → SrcSt) : (onSrc c s f).gals = c.gals := rfl
@[simp] theorem onSrc_dchs (c : Ctl) (s : Nat) (f : SrcSt → SrcSt) : (onSrc c s f).dchs = c.dchs := rfl
@[simp] theorem onSrc_reqs (c : Ctl) (s : Nat) (f : SrcSt → SrcSt) : (onSrc c s f).reqs = c.reqs := rfl
@[simp] theorem onSrc_nextReq (c : Ctl) (s : Nat) (f : SrcSt → SrcSt) : (onSrc c s f).nextReq = c.nextReq := rfl
@[simp] theorem onSrc_twin (c : Ctl) (s : Nat) (f : SrcSt → SrcSt) : (onSrc c s f).twin = c.twin := rfl
@[simp] theorem onSrc_pair (c : Ctl) (s : Nat) (f : SrcSt → SrcSt) : (onSrc c s f).pair = c.pair := rfl
@[simp] theorem onSrc_svr (c : Ctl) (s : Nat) (f : SrcSt → SrcSt) : (onSrc c s f).svr = c.svr := rfl
@[simp] theorem onSrc_vlt (c : Ctl) (s : Nat) (f : SrcSt → SrcSt) : (onSrc c s f).vlt = c.vlt := rfl
@[simp] theorem onSrc_rings (c : Ctl) (s : Nat) (f : SrcSt → SrcSt) : (onSrc c s f).rings = c.rings := rfl
@[simp] theorem onSrc_flights (c : Ctl) (s : Nat) (f : SrcSt → SrcSt) : (onSrc c s f).flights = c.flights := rfl
@[simp] theorem onSrc_fgen (c : Ctl) (s : Nat) (f : SrcSt → SrcSt) : (onSrc c s f).fgen = c.fgen := rfl
@[simp] theorem onSrc_commitSeq (c : Ctl) (s : Nat) (f : SrcSt → SrcSt) : (onSrc c s f).commitSeq = c.commitSeq := rfl
@[simp] theorem onSrc_flightCount (c : Ctl) (s : Nat) (f : SrcSt → SrcSt) : (onSrc c s f).flightCount = c.flightCount := rfl
@[simp] theorem onSrc_flightAbandoned (c : Ctl) (s : Nat) (f : SrcSt → SrcSt) : (onSrc c s f).flightAbandoned = c.flightAbandoned := rfl
@[simp] theorem onSrc_partnerApplied (c : Ctl) (s : Nat) (f : SrcSt → SrcSt) : (onSrc c s f).partnerApplied = c.partnerApplied := rfl
@[simp] theorem onSrc_poisonOver (c : Ctl) (s : Nat) (f : SrcSt → SrcSt) : (onSrc c s f).poisonOver = c.poisonOver := rfl
@[simp] theorem onSrc_throttling (c : Ctl) (s : Nat) (f : SrcSt → SrcSt) : (onSrc c s f).throttling = c.throttling := rfl
@[simp] theorem onSrc_out (c : Ctl) (s : Nat) (f : SrcSt → SrcSt) : (onSrc c s f).out = c.out := rfl
@[simp] theorem onSrc_free (c : Ctl) (s : Nat) (f : SrcSt → SrcSt) : (onSrc c s f).free = c.free := rfl

/-! ## onUnit -/

@[simp] theorem onUnit_glb (c : Ctl) (u : Nat) (f : UnitSt → UnitSt) : (onUnit c u f).glb = c.glb := rfl
@[simp] theorem onUnit_img (c : Ctl) (u : Nat) (f : UnitSt → UnitSt) : (onUnit c u f).img = c.img := rfl
@[simp] theorem onUnit_dimm (c : Ctl) (u : Nat) (f : UnitSt → UnitSt) : (onUnit c u f).dimm = c.dimm := rfl
@[simp] theorem onUnit_fcu (c : Ctl) (u : Nat) (f : UnitSt → UnitSt) : (onUnit c u f).fcu = { c.fcu with unit := tmod c.fcu.unit u UnitSt.fresh f } := rfl
@[simp] theorem onUnit_rtc (c : Ctl) (u : Nat) (f : UnitSt → UnitSt) : (onUnit c u f).rtc = c.rtc := rfl
@[simp] theorem onUnit_alc (c : Ctl) (u : Nat) (f : UnitSt → UnitSt) : (onUnit c u f).alc = c.alc := rfl
@[simp] theorem onUnit_clk (c : Ctl) (u : Nat) (f : UnitSt → UnitSt) : (onUnit c u f).clk = c.clk := rfl
@[simp] theorem onUnit_rst (c : Ctl) (u : Nat) (f : UnitSt → UnitSt) : (onUnit c u f).rst = c.rst := rfl
@[simp] theorem onUnit_boot (c : Ctl) (u : Nat) (f : UnitSt → UnitSt) : (onUnit c u f).boot = c.boot := rfl
@[simp] theorem onUnit_seq (c : Ctl) (u : Nat) (f : UnitSt → UnitSt) : (onUnit c u f).seq = c.seq := rfl
@[simp] theorem onUnit_pwrImg (c : Ctl) (u : Nat) (f : UnitSt → UnitSt) : (onUnit c u f).pwrImg = c.pwrImg := rfl
@[simp] theorem onUnit_pf (c : Ctl) (u : Nat) (f : UnitSt → UnitSt) : (onUnit c u f).pf = c.pf := rfl
@[simp] theorem onUnit_hold (c : Ctl) (u : Nat) (f : UnitSt → UnitSt) : (onUnit c u f).hold = c.hold := rfl
@[simp] theorem onUnit_sns (c : Ctl) (u : Nat) (f : UnitSt → UnitSt) : (onUnit c u f).sns = c.sns := rfl
@[simp] theorem onUnit_budget (c : Ctl) (u : Nat) (f : UnitSt → UnitSt) : (onUnit c u f).budget = c.budget := rfl
@[simp] theorem onUnit_mgmt (c : Ctl) (u : Nat) (f : UnitSt → UnitSt) : (onUnit c u f).mgmt = c.mgmt := rfl
@[simp] theorem onUnit_heads (c : Ctl) (u : Nat) (f : UnitSt → UnitSt) : (onUnit c u f).heads = c.heads := rfl
@[simp] theorem onUnit_lds (c : Ctl) (u : Nat) (f : UnitSt → UnitSt) : (onUnit c u f).lds = c.lds := rfl
@[simp] theorem onUnit_halls (c : Ctl) (u : Nat) (f : UnitSt → UnitSt) : (onUnit c u f).halls = c.halls := rfl
@[simp] theorem onUnit_snoops (c : Ctl) (u : Nat) (f : UnitSt → UnitSt) : (onUnit c u f).snoops = c.snoops := rfl
@[simp] theorem onUnit_releases (c : Ctl) (u : Nat) (f : UnitSt → UnitSt) : (onUnit c u f).releases = c.releases := rfl
@[simp] theorem onUnit_tenants (c : Ctl) (u : Nat) (f : UnitSt → UnitSt) : (onUnit c u f).tenants = c.tenants := rfl
@[simp] theorem onUnit_gals (c : Ctl) (u : Nat) (f : UnitSt → UnitSt) : (onUnit c u f).gals = c.gals := rfl
@[simp] theorem onUnit_dchs (c : Ctl) (u : Nat) (f : UnitSt → UnitSt) : (onUnit c u f).dchs = c.dchs := rfl
@[simp] theorem onUnit_reqs (c : Ctl) (u : Nat) (f : UnitSt → UnitSt) : (onUnit c u f).reqs = c.reqs := rfl
@[simp] theorem onUnit_nextReq (c : Ctl) (u : Nat) (f : UnitSt → UnitSt) : (onUnit c u f).nextReq = c.nextReq := rfl
@[simp] theorem onUnit_twin (c : Ctl) (u : Nat) (f : UnitSt → UnitSt) : (onUnit c u f).twin = c.twin := rfl
@[simp] theorem onUnit_pair (c : Ctl) (u : Nat) (f : UnitSt → UnitSt) : (onUnit c u f).pair = c.pair := rfl
@[simp] theorem onUnit_svr (c : Ctl) (u : Nat) (f : UnitSt → UnitSt) : (onUnit c u f).svr = c.svr := rfl
@[simp] theorem onUnit_vlt (c : Ctl) (u : Nat) (f : UnitSt → UnitSt) : (onUnit c u f).vlt = c.vlt := rfl
@[simp] theorem onUnit_rings (c : Ctl) (u : Nat) (f : UnitSt → UnitSt) : (onUnit c u f).rings = c.rings := rfl
@[simp] theorem onUnit_flights (c : Ctl) (u : Nat) (f : UnitSt → UnitSt) : (onUnit c u f).flights = c.flights := rfl
@[simp] theorem onUnit_fgen (c : Ctl) (u : Nat) (f : UnitSt → UnitSt) : (onUnit c u f).fgen = c.fgen := rfl
@[simp] theorem onUnit_commitSeq (c : Ctl) (u : Nat) (f : UnitSt → UnitSt) : (onUnit c u f).commitSeq = c.commitSeq := rfl
@[simp] theorem onUnit_flightCount (c : Ctl) (u : Nat) (f : UnitSt → UnitSt) : (onUnit c u f).flightCount = c.flightCount := rfl
@[simp] theorem onUnit_flightAbandoned (c : Ctl) (u : Nat) (f : UnitSt → UnitSt) : (onUnit c u f).flightAbandoned = c.flightAbandoned := rfl
@[simp] theorem onUnit_partnerApplied (c : Ctl) (u : Nat) (f : UnitSt → UnitSt) : (onUnit c u f).partnerApplied = c.partnerApplied := rfl
@[simp] theorem onUnit_poisonOver (c : Ctl) (u : Nat) (f : UnitSt → UnitSt) : (onUnit c u f).poisonOver = c.poisonOver := rfl
@[simp] theorem onUnit_throttling (c : Ctl) (u : Nat) (f : UnitSt → UnitSt) : (onUnit c u f).throttling = c.throttling := rfl
@[simp] theorem onUnit_out (c : Ctl) (u : Nat) (f : UnitSt → UnitSt) : (onUnit c u f).out = c.out := rfl
@[simp] theorem onUnit_free (c : Ctl) (u : Nat) (f : UnitSt → UnitSt) : (onUnit c u f).free = c.free := rfl

/-! ## onAlc -/

@[simp] theorem onAlc_glb (c : Ctl) (f : Alc → Alc) : (onAlc c f).glb = c.glb := rfl
@[simp] theorem onAlc_img (c : Ctl) (f : Alc → Alc) : (onAlc c f).img = c.img := rfl
@[simp] theorem onAlc_dimm (c : Ctl) (f : Alc → Alc) : (onAlc c f).dimm = c.dimm := rfl
@[simp] theorem onAlc_fcu (c : Ctl) (f : Alc → Alc) : (onAlc c f).fcu = c.fcu := rfl
@[simp] theorem onAlc_rtc (c : Ctl) (f : Alc → Alc) : (onAlc c f).rtc = c.rtc := rfl
@[simp] theorem onAlc_alc (c : Ctl) (f : Alc → Alc) : (onAlc c f).alc = f c.alc := rfl
@[simp] theorem onAlc_clk (c : Ctl) (f : Alc → Alc) : (onAlc c f).clk = c.clk := rfl
@[simp] theorem onAlc_rst (c : Ctl) (f : Alc → Alc) : (onAlc c f).rst = c.rst := rfl
@[simp] theorem onAlc_boot (c : Ctl) (f : Alc → Alc) : (onAlc c f).boot = c.boot := rfl
@[simp] theorem onAlc_seq (c : Ctl) (f : Alc → Alc) : (onAlc c f).seq = c.seq := rfl
@[simp] theorem onAlc_pwrImg (c : Ctl) (f : Alc → Alc) : (onAlc c f).pwrImg = c.pwrImg := rfl
@[simp] theorem onAlc_pf (c : Ctl) (f : Alc → Alc) : (onAlc c f).pf = c.pf := rfl
@[simp] theorem onAlc_hold (c : Ctl) (f : Alc → Alc) : (onAlc c f).hold = c.hold := rfl
@[simp] theorem onAlc_sns (c : Ctl) (f : Alc → Alc) : (onAlc c f).sns = c.sns := rfl
@[simp] theorem onAlc_budget (c : Ctl) (f : Alc → Alc) : (onAlc c f).budget = c.budget := rfl
@[simp] theorem onAlc_mgmt (c : Ctl) (f : Alc → Alc) : (onAlc c f).mgmt = c.mgmt := rfl
@[simp] theorem onAlc_heads (c : Ctl) (f : Alc → Alc) : (onAlc c f).heads = c.heads := rfl
@[simp] theorem onAlc_lds (c : Ctl) (f : Alc → Alc) : (onAlc c f).lds = c.lds := rfl
@[simp] theorem onAlc_halls (c : Ctl) (f : Alc → Alc) : (onAlc c f).halls = c.halls := rfl
@[simp] theorem onAlc_snoops (c : Ctl) (f : Alc → Alc) : (onAlc c f).snoops = c.snoops := rfl
@[simp] theorem onAlc_releases (c : Ctl) (f : Alc → Alc) : (onAlc c f).releases = c.releases := rfl
@[simp] theorem onAlc_tenants (c : Ctl) (f : Alc → Alc) : (onAlc c f).tenants = c.tenants := rfl
@[simp] theorem onAlc_gals (c : Ctl) (f : Alc → Alc) : (onAlc c f).gals = c.gals := rfl
@[simp] theorem onAlc_dchs (c : Ctl) (f : Alc → Alc) : (onAlc c f).dchs = c.dchs := rfl
@[simp] theorem onAlc_reqs (c : Ctl) (f : Alc → Alc) : (onAlc c f).reqs = c.reqs := rfl
@[simp] theorem onAlc_nextReq (c : Ctl) (f : Alc → Alc) : (onAlc c f).nextReq = c.nextReq := rfl
@[simp] theorem onAlc_twin (c : Ctl) (f : Alc → Alc) : (onAlc c f).twin = c.twin := rfl
@[simp] theorem onAlc_pair (c : Ctl) (f : Alc → Alc) : (onAlc c f).pair = c.pair := rfl
@[simp] theorem onAlc_svr (c : Ctl) (f : Alc → Alc) : (onAlc c f).svr = c.svr := rfl
@[simp] theorem onAlc_vlt (c : Ctl) (f : Alc → Alc) : (onAlc c f).vlt = c.vlt := rfl
@[simp] theorem onAlc_rings (c : Ctl) (f : Alc → Alc) : (onAlc c f).rings = c.rings := rfl
@[simp] theorem onAlc_flights (c : Ctl) (f : Alc → Alc) : (onAlc c f).flights = c.flights := rfl
@[simp] theorem onAlc_fgen (c : Ctl) (f : Alc → Alc) : (onAlc c f).fgen = c.fgen := rfl
@[simp] theorem onAlc_commitSeq (c : Ctl) (f : Alc → Alc) : (onAlc c f).commitSeq = c.commitSeq := rfl
@[simp] theorem onAlc_flightCount (c : Ctl) (f : Alc → Alc) : (onAlc c f).flightCount = c.flightCount := rfl
@[simp] theorem onAlc_flightAbandoned (c : Ctl) (f : Alc → Alc) : (onAlc c f).flightAbandoned = c.flightAbandoned := rfl
@[simp] theorem onAlc_partnerApplied (c : Ctl) (f : Alc → Alc) : (onAlc c f).partnerApplied = c.partnerApplied := rfl
@[simp] theorem onAlc_poisonOver (c : Ctl) (f : Alc → Alc) : (onAlc c f).poisonOver = c.poisonOver := rfl
@[simp] theorem onAlc_throttling (c : Ctl) (f : Alc → Alc) : (onAlc c f).throttling = c.throttling := rfl
@[simp] theorem onAlc_out (c : Ctl) (f : Alc → Alc) : (onAlc c f).out = c.out := rfl
@[simp] theorem onAlc_free (c : Ctl) (f : Alc → Alc) : (onAlc c f).free = c.free := rfl

/-! ## onClk -/

@[simp] theorem onClk_glb (c : Ctl) (f : Clk → Clk) : (onClk c f).glb = c.glb := rfl
@[simp] theorem onClk_img (c : Ctl) (f : Clk → Clk) : (onClk c f).img = c.img := rfl
@[simp] theorem onClk_dimm (c : Ctl) (f : Clk → Clk) : (onClk c f).dimm = c.dimm := rfl
@[simp] theorem onClk_fcu (c : Ctl) (f : Clk → Clk) : (onClk c f).fcu = c.fcu := rfl
@[simp] theorem onClk_rtc (c : Ctl) (f : Clk → Clk) : (onClk c f).rtc = c.rtc := rfl
@[simp] theorem onClk_alc (c : Ctl) (f : Clk → Clk) : (onClk c f).alc = c.alc := rfl
@[simp] theorem onClk_clk (c : Ctl) (f : Clk → Clk) : (onClk c f).clk = f c.clk := rfl
@[simp] theorem onClk_rst (c : Ctl) (f : Clk → Clk) : (onClk c f).rst = c.rst := rfl
@[simp] theorem onClk_boot (c : Ctl) (f : Clk → Clk) : (onClk c f).boot = c.boot := rfl
@[simp] theorem onClk_seq (c : Ctl) (f : Clk → Clk) : (onClk c f).seq = c.seq := rfl
@[simp] theorem onClk_pwrImg (c : Ctl) (f : Clk → Clk) : (onClk c f).pwrImg = c.pwrImg := rfl
@[simp] theorem onClk_pf (c : Ctl) (f : Clk → Clk) : (onClk c f).pf = c.pf := rfl
@[simp] theorem onClk_hold (c : Ctl) (f : Clk → Clk) : (onClk c f).hold = c.hold := rfl
@[simp] theorem onClk_sns (c : Ctl) (f : Clk → Clk) : (onClk c f).sns = c.sns := rfl
@[simp] theorem onClk_budget (c : Ctl) (f : Clk → Clk) : (onClk c f).budget = c.budget := rfl
@[simp] theorem onClk_mgmt (c : Ctl) (f : Clk → Clk) : (onClk c f).mgmt = c.mgmt := rfl
@[simp] theorem onClk_heads (c : Ctl) (f : Clk → Clk) : (onClk c f).heads = c.heads := rfl
@[simp] theorem onClk_lds (c : Ctl) (f : Clk → Clk) : (onClk c f).lds = c.lds := rfl
@[simp] theorem onClk_halls (c : Ctl) (f : Clk → Clk) : (onClk c f).halls = c.halls := rfl
@[simp] theorem onClk_snoops (c : Ctl) (f : Clk → Clk) : (onClk c f).snoops = c.snoops := rfl
@[simp] theorem onClk_releases (c : Ctl) (f : Clk → Clk) : (onClk c f).releases = c.releases := rfl
@[simp] theorem onClk_tenants (c : Ctl) (f : Clk → Clk) : (onClk c f).tenants = c.tenants := rfl
@[simp] theorem onClk_gals (c : Ctl) (f : Clk → Clk) : (onClk c f).gals = c.gals := rfl
@[simp] theorem onClk_dchs (c : Ctl) (f : Clk → Clk) : (onClk c f).dchs = c.dchs := rfl
@[simp] theorem onClk_reqs (c : Ctl) (f : Clk → Clk) : (onClk c f).reqs = c.reqs := rfl
@[simp] theorem onClk_nextReq (c : Ctl) (f : Clk → Clk) : (onClk c f).nextReq = c.nextReq := rfl
@[simp] theorem onClk_twin (c : Ctl) (f : Clk → Clk) : (onClk c f).twin = c.twin := rfl
@[simp] theorem onClk_pair (c : Ctl) (f : Clk → Clk) : (onClk c f).pair = c.pair := rfl
@[simp] theorem onClk_svr (c : Ctl) (f : Clk → Clk) : (onClk c f).svr = c.svr := rfl
@[simp] theorem onClk_vlt (c : Ctl) (f : Clk → Clk) : (onClk c f).vlt = c.vlt := rfl
@[simp] theorem onClk_rings (c : Ctl) (f : Clk → Clk) : (onClk c f).rings = c.rings := rfl
@[simp] theorem onClk_flights (c : Ctl) (f : Clk → Clk) : (onClk c f).flights = c.flights := rfl
@[simp] theorem onClk_fgen (c : Ctl) (f : Clk → Clk) : (onClk c f).fgen = c.fgen := rfl
@[simp] theorem onClk_commitSeq (c : Ctl) (f : Clk → Clk) : (onClk c f).commitSeq = c.commitSeq := rfl
@[simp] theorem onClk_flightCount (c : Ctl) (f : Clk → Clk) : (onClk c f).flightCount = c.flightCount := rfl
@[simp] theorem onClk_flightAbandoned (c : Ctl) (f : Clk → Clk) : (onClk c f).flightAbandoned = c.flightAbandoned := rfl
@[simp] theorem onClk_partnerApplied (c : Ctl) (f : Clk → Clk) : (onClk c f).partnerApplied = c.partnerApplied := rfl
@[simp] theorem onClk_poisonOver (c : Ctl) (f : Clk → Clk) : (onClk c f).poisonOver = c.poisonOver := rfl
@[simp] theorem onClk_throttling (c : Ctl) (f : Clk → Clk) : (onClk c f).throttling = c.throttling := rfl
@[simp] theorem onClk_out (c : Ctl) (f : Clk → Clk) : (onClk c f).out = c.out := rfl
@[simp] theorem onClk_free (c : Ctl) (f : Clk → Clk) : (onClk c f).free = c.free := rfl

/-! ## onBoot -/

@[simp] theorem onBoot_glb (c : Ctl) (f : Boot → Boot) : (onBoot c f).glb = c.glb := rfl
@[simp] theorem onBoot_img (c : Ctl) (f : Boot → Boot) : (onBoot c f).img = c.img := rfl
@[simp] theorem onBoot_dimm (c : Ctl) (f : Boot → Boot) : (onBoot c f).dimm = c.dimm := rfl
@[simp] theorem onBoot_fcu (c : Ctl) (f : Boot → Boot) : (onBoot c f).fcu = c.fcu := rfl
@[simp] theorem onBoot_rtc (c : Ctl) (f : Boot → Boot) : (onBoot c f).rtc = c.rtc := rfl
@[simp] theorem onBoot_alc (c : Ctl) (f : Boot → Boot) : (onBoot c f).alc = c.alc := rfl
@[simp] theorem onBoot_clk (c : Ctl) (f : Boot → Boot) : (onBoot c f).clk = c.clk := rfl
@[simp] theorem onBoot_rst (c : Ctl) (f : Boot → Boot) : (onBoot c f).rst = c.rst := rfl
@[simp] theorem onBoot_boot (c : Ctl) (f : Boot → Boot) : (onBoot c f).boot = f c.boot := rfl
@[simp] theorem onBoot_seq (c : Ctl) (f : Boot → Boot) : (onBoot c f).seq = c.seq := rfl
@[simp] theorem onBoot_pwrImg (c : Ctl) (f : Boot → Boot) : (onBoot c f).pwrImg = c.pwrImg := rfl
@[simp] theorem onBoot_pf (c : Ctl) (f : Boot → Boot) : (onBoot c f).pf = c.pf := rfl
@[simp] theorem onBoot_hold (c : Ctl) (f : Boot → Boot) : (onBoot c f).hold = c.hold := rfl
@[simp] theorem onBoot_sns (c : Ctl) (f : Boot → Boot) : (onBoot c f).sns = c.sns := rfl
@[simp] theorem onBoot_budget (c : Ctl) (f : Boot → Boot) : (onBoot c f).budget = c.budget := rfl
@[simp] theorem onBoot_mgmt (c : Ctl) (f : Boot → Boot) : (onBoot c f).mgmt = c.mgmt := rfl
@[simp] theorem onBoot_heads (c : Ctl) (f : Boot → Boot) : (onBoot c f).heads = c.heads := rfl
@[simp] theorem onBoot_lds (c : Ctl) (f : Boot → Boot) : (onBoot c f).lds = c.lds := rfl
@[simp] theorem onBoot_halls (c : Ctl) (f : Boot → Boot) : (onBoot c f).halls = c.halls := rfl
@[simp] theorem onBoot_snoops (c : Ctl) (f : Boot → Boot) : (onBoot c f).snoops = c.snoops := rfl
@[simp] theorem onBoot_releases (c : Ctl) (f : Boot → Boot) : (onBoot c f).releases = c.releases := rfl
@[simp] theorem onBoot_tenants (c : Ctl) (f : Boot → Boot) : (onBoot c f).tenants = c.tenants := rfl
@[simp] theorem onBoot_gals (c : Ctl) (f : Boot → Boot) : (onBoot c f).gals = c.gals := rfl
@[simp] theorem onBoot_dchs (c : Ctl) (f : Boot → Boot) : (onBoot c f).dchs = c.dchs := rfl
@[simp] theorem onBoot_reqs (c : Ctl) (f : Boot → Boot) : (onBoot c f).reqs = c.reqs := rfl
@[simp] theorem onBoot_nextReq (c : Ctl) (f : Boot → Boot) : (onBoot c f).nextReq = c.nextReq := rfl
@[simp] theorem onBoot_twin (c : Ctl) (f : Boot → Boot) : (onBoot c f).twin = c.twin := rfl
@[simp] theorem onBoot_pair (c : Ctl) (f : Boot → Boot) : (onBoot c f).pair = c.pair := rfl
@[simp] theorem onBoot_svr (c : Ctl) (f : Boot → Boot) : (onBoot c f).svr = c.svr := rfl
@[simp] theorem onBoot_vlt (c : Ctl) (f : Boot → Boot) : (onBoot c f).vlt = c.vlt := rfl
@[simp] theorem onBoot_rings (c : Ctl) (f : Boot → Boot) : (onBoot c f).rings = c.rings := rfl
@[simp] theorem onBoot_flights (c : Ctl) (f : Boot → Boot) : (onBoot c f).flights = c.flights := rfl
@[simp] theorem onBoot_fgen (c : Ctl) (f : Boot → Boot) : (onBoot c f).fgen = c.fgen := rfl
@[simp] theorem onBoot_commitSeq (c : Ctl) (f : Boot → Boot) : (onBoot c f).commitSeq = c.commitSeq := rfl
@[simp] theorem onBoot_flightCount (c : Ctl) (f : Boot → Boot) : (onBoot c f).flightCount = c.flightCount := rfl
@[simp] theorem onBoot_flightAbandoned (c : Ctl) (f : Boot → Boot) : (onBoot c f).flightAbandoned = c.flightAbandoned := rfl
@[simp] theorem onBoot_partnerApplied (c : Ctl) (f : Boot → Boot) : (onBoot c f).partnerApplied = c.partnerApplied := rfl
@[simp] theorem onBoot_poisonOver (c : Ctl) (f : Boot → Boot) : (onBoot c f).poisonOver = c.poisonOver := rfl
@[simp] theorem onBoot_throttling (c : Ctl) (f : Boot → Boot) : (onBoot c f).throttling = c.throttling := rfl
@[simp] theorem onBoot_out (c : Ctl) (f : Boot → Boot) : (onBoot c f).out = c.out := rfl
@[simp] theorem onBoot_free (c : Ctl) (f : Boot → Boot) : (onBoot c f).free = c.free := rfl

/-! ## onVlt -/

@[simp] theorem onVlt_glb (c : Ctl) (f : Vlt → Vlt) : (onVlt c f).glb = c.glb := rfl
@[simp] theorem onVlt_img (c : Ctl) (f : Vlt → Vlt) : (onVlt c f).img = c.img := rfl
@[simp] theorem onVlt_dimm (c : Ctl) (f : Vlt → Vlt) : (onVlt c f).dimm = c.dimm := rfl
@[simp] theorem onVlt_fcu (c : Ctl) (f : Vlt → Vlt) : (onVlt c f).fcu = c.fcu := rfl
@[simp] theorem onVlt_rtc (c : Ctl) (f : Vlt → Vlt) : (onVlt c f).rtc = c.rtc := rfl
@[simp] theorem onVlt_alc (c : Ctl) (f : Vlt → Vlt) : (onVlt c f).alc = c.alc := rfl
@[simp] theorem onVlt_clk (c : Ctl) (f : Vlt → Vlt) : (onVlt c f).clk = c.clk := rfl
@[simp] theorem onVlt_rst (c : Ctl) (f : Vlt → Vlt) : (onVlt c f).rst = c.rst := rfl
@[simp] theorem onVlt_boot (c : Ctl) (f : Vlt → Vlt) : (onVlt c f).boot = c.boot := rfl
@[simp] theorem onVlt_seq (c : Ctl) (f : Vlt → Vlt) : (onVlt c f).seq = c.seq := rfl
@[simp] theorem onVlt_pwrImg (c : Ctl) (f : Vlt → Vlt) : (onVlt c f).pwrImg = c.pwrImg := rfl
@[simp] theorem onVlt_pf (c : Ctl) (f : Vlt → Vlt) : (onVlt c f).pf = c.pf := rfl
@[simp] theorem onVlt_hold (c : Ctl) (f : Vlt → Vlt) : (onVlt c f).hold = c.hold := rfl
@[simp] theorem onVlt_sns (c : Ctl) (f : Vlt → Vlt) : (onVlt c f).sns = c.sns := rfl
@[simp] theorem onVlt_budget (c : Ctl) (f : Vlt → Vlt) : (onVlt c f).budget = c.budget := rfl
@[simp] theorem onVlt_mgmt (c : Ctl) (f : Vlt → Vlt) : (onVlt c f).mgmt = c.mgmt := rfl
@[simp] theorem onVlt_heads (c : Ctl) (f : Vlt → Vlt) : (onVlt c f).heads = c.heads := rfl
@[simp] theorem onVlt_lds (c : Ctl) (f : Vlt → Vlt) : (onVlt c f).lds = c.lds := rfl
@[simp] theorem onVlt_halls (c : Ctl) (f : Vlt → Vlt) : (onVlt c f).halls = c.halls := rfl
@[simp] theorem onVlt_snoops (c : Ctl) (f : Vlt → Vlt) : (onVlt c f).snoops = c.snoops := rfl
@[simp] theorem onVlt_releases (c : Ctl) (f : Vlt → Vlt) : (onVlt c f).releases = c.releases := rfl
@[simp] theorem onVlt_tenants (c : Ctl) (f : Vlt → Vlt) : (onVlt c f).tenants = c.tenants := rfl
@[simp] theorem onVlt_gals (c : Ctl) (f : Vlt → Vlt) : (onVlt c f).gals = c.gals := rfl
@[simp] theorem onVlt_dchs (c : Ctl) (f : Vlt → Vlt) : (onVlt c f).dchs = c.dchs := rfl
@[simp] theorem onVlt_reqs (c : Ctl) (f : Vlt → Vlt) : (onVlt c f).reqs = c.reqs := rfl
@[simp] theorem onVlt_nextReq (c : Ctl) (f : Vlt → Vlt) : (onVlt c f).nextReq = c.nextReq := rfl
@[simp] theorem onVlt_twin (c : Ctl) (f : Vlt → Vlt) : (onVlt c f).twin = c.twin := rfl
@[simp] theorem onVlt_pair (c : Ctl) (f : Vlt → Vlt) : (onVlt c f).pair = c.pair := rfl
@[simp] theorem onVlt_svr (c : Ctl) (f : Vlt → Vlt) : (onVlt c f).svr = c.svr := rfl
@[simp] theorem onVlt_vlt (c : Ctl) (f : Vlt → Vlt) : (onVlt c f).vlt = f c.vlt := rfl
@[simp] theorem onVlt_rings (c : Ctl) (f : Vlt → Vlt) : (onVlt c f).rings = c.rings := rfl
@[simp] theorem onVlt_flights (c : Ctl) (f : Vlt → Vlt) : (onVlt c f).flights = c.flights := rfl
@[simp] theorem onVlt_fgen (c : Ctl) (f : Vlt → Vlt) : (onVlt c f).fgen = c.fgen := rfl
@[simp] theorem onVlt_commitSeq (c : Ctl) (f : Vlt → Vlt) : (onVlt c f).commitSeq = c.commitSeq := rfl
@[simp] theorem onVlt_flightCount (c : Ctl) (f : Vlt → Vlt) : (onVlt c f).flightCount = c.flightCount := rfl
@[simp] theorem onVlt_flightAbandoned (c : Ctl) (f : Vlt → Vlt) : (onVlt c f).flightAbandoned = c.flightAbandoned := rfl
@[simp] theorem onVlt_partnerApplied (c : Ctl) (f : Vlt → Vlt) : (onVlt c f).partnerApplied = c.partnerApplied := rfl
@[simp] theorem onVlt_poisonOver (c : Ctl) (f : Vlt → Vlt) : (onVlt c f).poisonOver = c.poisonOver := rfl
@[simp] theorem onVlt_throttling (c : Ctl) (f : Vlt → Vlt) : (onVlt c f).throttling = c.throttling := rfl
@[simp] theorem onVlt_out (c : Ctl) (f : Vlt → Vlt) : (onVlt c f).out = c.out := rfl
@[simp] theorem onVlt_free (c : Ctl) (f : Vlt → Vlt) : (onVlt c f).free = c.free := rfl

/-! ## onPair -/

@[simp] theorem onPair_glb (c : Ctl) (f : Pair → Pair) : (onPair c f).glb = c.glb := rfl
@[simp] theorem onPair_img (c : Ctl) (f : Pair → Pair) : (onPair c f).img = c.img := rfl
@[simp] theorem onPair_dimm (c : Ctl) (f : Pair → Pair) : (onPair c f).dimm = c.dimm := rfl
@[simp] theorem onPair_fcu (c : Ctl) (f : Pair → Pair) : (onPair c f).fcu = c.fcu := rfl
@[simp] theorem onPair_rtc (c : Ctl) (f : Pair → Pair) : (onPair c f).rtc = c.rtc := rfl
@[simp] theorem onPair_alc (c : Ctl) (f : Pair → Pair) : (onPair c f).alc = c.alc := rfl
@[simp] theorem onPair_clk (c : Ctl) (f : Pair → Pair) : (onPair c f).clk = c.clk := rfl
@[simp] theorem onPair_rst (c : Ctl) (f : Pair → Pair) : (onPair c f).rst = c.rst := rfl
@[simp] theorem onPair_boot (c : Ctl) (f : Pair → Pair) : (onPair c f).boot = c.boot := rfl
@[simp] theorem onPair_seq (c : Ctl) (f : Pair → Pair) : (onPair c f).seq = c.seq := rfl
@[simp] theorem onPair_pwrImg (c : Ctl) (f : Pair → Pair) : (onPair c f).pwrImg = c.pwrImg := rfl
@[simp] theorem onPair_pf (c : Ctl) (f : Pair → Pair) : (onPair c f).pf = c.pf := rfl
@[simp] theorem onPair_hold (c : Ctl) (f : Pair → Pair) : (onPair c f).hold = c.hold := rfl
@[simp] theorem onPair_sns (c : Ctl) (f : Pair → Pair) : (onPair c f).sns = c.sns := rfl
@[simp] theorem onPair_budget (c : Ctl) (f : Pair → Pair) : (onPair c f).budget = c.budget := rfl
@[simp] theorem onPair_mgmt (c : Ctl) (f : Pair → Pair) : (onPair c f).mgmt = c.mgmt := rfl
@[simp] theorem onPair_heads (c : Ctl) (f : Pair → Pair) : (onPair c f).heads = c.heads := rfl
@[simp] theorem onPair_lds (c : Ctl) (f : Pair → Pair) : (onPair c f).lds = c.lds := rfl
@[simp] theorem onPair_halls (c : Ctl) (f : Pair → Pair) : (onPair c f).halls = c.halls := rfl
@[simp] theorem onPair_snoops (c : Ctl) (f : Pair → Pair) : (onPair c f).snoops = c.snoops := rfl
@[simp] theorem onPair_releases (c : Ctl) (f : Pair → Pair) : (onPair c f).releases = c.releases := rfl
@[simp] theorem onPair_tenants (c : Ctl) (f : Pair → Pair) : (onPair c f).tenants = c.tenants := rfl
@[simp] theorem onPair_gals (c : Ctl) (f : Pair → Pair) : (onPair c f).gals = c.gals := rfl
@[simp] theorem onPair_dchs (c : Ctl) (f : Pair → Pair) : (onPair c f).dchs = c.dchs := rfl
@[simp] theorem onPair_reqs (c : Ctl) (f : Pair → Pair) : (onPair c f).reqs = c.reqs := rfl
@[simp] theorem onPair_nextReq (c : Ctl) (f : Pair → Pair) : (onPair c f).nextReq = c.nextReq := rfl
@[simp] theorem onPair_twin (c : Ctl) (f : Pair → Pair) : (onPair c f).twin = c.twin := rfl
@[simp] theorem onPair_pair (c : Ctl) (f : Pair → Pair) : (onPair c f).pair = f c.pair := rfl
@[simp] theorem onPair_svr (c : Ctl) (f : Pair → Pair) : (onPair c f).svr = c.svr := rfl
@[simp] theorem onPair_vlt (c : Ctl) (f : Pair → Pair) : (onPair c f).vlt = c.vlt := rfl
@[simp] theorem onPair_rings (c : Ctl) (f : Pair → Pair) : (onPair c f).rings = c.rings := rfl
@[simp] theorem onPair_flights (c : Ctl) (f : Pair → Pair) : (onPair c f).flights = c.flights := rfl
@[simp] theorem onPair_fgen (c : Ctl) (f : Pair → Pair) : (onPair c f).fgen = c.fgen := rfl
@[simp] theorem onPair_commitSeq (c : Ctl) (f : Pair → Pair) : (onPair c f).commitSeq = c.commitSeq := rfl
@[simp] theorem onPair_flightCount (c : Ctl) (f : Pair → Pair) : (onPair c f).flightCount = c.flightCount := rfl
@[simp] theorem onPair_flightAbandoned (c : Ctl) (f : Pair → Pair) : (onPair c f).flightAbandoned = c.flightAbandoned := rfl
@[simp] theorem onPair_partnerApplied (c : Ctl) (f : Pair → Pair) : (onPair c f).partnerApplied = c.partnerApplied := rfl
@[simp] theorem onPair_poisonOver (c : Ctl) (f : Pair → Pair) : (onPair c f).poisonOver = c.poisonOver := rfl
@[simp] theorem onPair_throttling (c : Ctl) (f : Pair → Pair) : (onPair c f).throttling = c.throttling := rfl
@[simp] theorem onPair_out (c : Ctl) (f : Pair → Pair) : (onPair c f).out = c.out := rfl
@[simp] theorem onPair_free (c : Ctl) (f : Pair → Pair) : (onPair c f).free = c.free := rfl

/-! ## onTwin -/

@[simp] theorem onTwin_glb (c : Ctl) (f : Twin → Twin) : (onTwin c f).glb = c.glb := rfl
@[simp] theorem onTwin_img (c : Ctl) (f : Twin → Twin) : (onTwin c f).img = c.img := rfl
@[simp] theorem onTwin_dimm (c : Ctl) (f : Twin → Twin) : (onTwin c f).dimm = c.dimm := rfl
@[simp] theorem onTwin_fcu (c : Ctl) (f : Twin → Twin) : (onTwin c f).fcu = c.fcu := rfl
@[simp] theorem onTwin_rtc (c : Ctl) (f : Twin → Twin) : (onTwin c f).rtc = c.rtc := rfl
@[simp] theorem onTwin_alc (c : Ctl) (f : Twin → Twin) : (onTwin c f).alc = c.alc := rfl
@[simp] theorem onTwin_clk (c : Ctl) (f : Twin → Twin) : (onTwin c f).clk = c.clk := rfl
@[simp] theorem onTwin_rst (c : Ctl) (f : Twin → Twin) : (onTwin c f).rst = c.rst := rfl
@[simp] theorem onTwin_boot (c : Ctl) (f : Twin → Twin) : (onTwin c f).boot = c.boot := rfl
@[simp] theorem onTwin_seq (c : Ctl) (f : Twin → Twin) : (onTwin c f).seq = c.seq := rfl
@[simp] theorem onTwin_pwrImg (c : Ctl) (f : Twin → Twin) : (onTwin c f).pwrImg = c.pwrImg := rfl
@[simp] theorem onTwin_pf (c : Ctl) (f : Twin → Twin) : (onTwin c f).pf = c.pf := rfl
@[simp] theorem onTwin_hold (c : Ctl) (f : Twin → Twin) : (onTwin c f).hold = c.hold := rfl
@[simp] theorem onTwin_sns (c : Ctl) (f : Twin → Twin) : (onTwin c f).sns = c.sns := rfl
@[simp] theorem onTwin_budget (c : Ctl) (f : Twin → Twin) : (onTwin c f).budget = c.budget := rfl
@[simp] theorem onTwin_mgmt (c : Ctl) (f : Twin → Twin) : (onTwin c f).mgmt = c.mgmt := rfl
@[simp] theorem onTwin_heads (c : Ctl) (f : Twin → Twin) : (onTwin c f).heads = c.heads := rfl
@[simp] theorem onTwin_lds (c : Ctl) (f : Twin → Twin) : (onTwin c f).lds = c.lds := rfl
@[simp] theorem onTwin_halls (c : Ctl) (f : Twin → Twin) : (onTwin c f).halls = c.halls := rfl
@[simp] theorem onTwin_snoops (c : Ctl) (f : Twin → Twin) : (onTwin c f).snoops = c.snoops := rfl
@[simp] theorem onTwin_releases (c : Ctl) (f : Twin → Twin) : (onTwin c f).releases = c.releases := rfl
@[simp] theorem onTwin_tenants (c : Ctl) (f : Twin → Twin) : (onTwin c f).tenants = c.tenants := rfl
@[simp] theorem onTwin_gals (c : Ctl) (f : Twin → Twin) : (onTwin c f).gals = c.gals := rfl
@[simp] theorem onTwin_dchs (c : Ctl) (f : Twin → Twin) : (onTwin c f).dchs = c.dchs := rfl
@[simp] theorem onTwin_reqs (c : Ctl) (f : Twin → Twin) : (onTwin c f).reqs = c.reqs := rfl
@[simp] theorem onTwin_nextReq (c : Ctl) (f : Twin → Twin) : (onTwin c f).nextReq = c.nextReq := rfl
@[simp] theorem onTwin_twin (c : Ctl) (f : Twin → Twin) : (onTwin c f).twin = f c.twin := rfl
@[simp] theorem onTwin_pair (c : Ctl) (f : Twin → Twin) : (onTwin c f).pair = c.pair := rfl
@[simp] theorem onTwin_svr (c : Ctl) (f : Twin → Twin) : (onTwin c f).svr = c.svr := rfl
@[simp] theorem onTwin_vlt (c : Ctl) (f : Twin → Twin) : (onTwin c f).vlt = c.vlt := rfl
@[simp] theorem onTwin_rings (c : Ctl) (f : Twin → Twin) : (onTwin c f).rings = c.rings := rfl
@[simp] theorem onTwin_flights (c : Ctl) (f : Twin → Twin) : (onTwin c f).flights = c.flights := rfl
@[simp] theorem onTwin_fgen (c : Ctl) (f : Twin → Twin) : (onTwin c f).fgen = c.fgen := rfl
@[simp] theorem onTwin_commitSeq (c : Ctl) (f : Twin → Twin) : (onTwin c f).commitSeq = c.commitSeq := rfl
@[simp] theorem onTwin_flightCount (c : Ctl) (f : Twin → Twin) : (onTwin c f).flightCount = c.flightCount := rfl
@[simp] theorem onTwin_flightAbandoned (c : Ctl) (f : Twin → Twin) : (onTwin c f).flightAbandoned = c.flightAbandoned := rfl
@[simp] theorem onTwin_partnerApplied (c : Ctl) (f : Twin → Twin) : (onTwin c f).partnerApplied = c.partnerApplied := rfl
@[simp] theorem onTwin_poisonOver (c : Ctl) (f : Twin → Twin) : (onTwin c f).poisonOver = c.poisonOver := rfl
@[simp] theorem onTwin_throttling (c : Ctl) (f : Twin → Twin) : (onTwin c f).throttling = c.throttling := rfl
@[simp] theorem onTwin_out (c : Ctl) (f : Twin → Twin) : (onTwin c f).out = c.out := rfl
@[simp] theorem onTwin_free (c : Ctl) (f : Twin → Twin) : (onTwin c f).free = c.free := rfl

/-! ## onSeq -/

@[simp] theorem onSeq_glb (c : Ctl) (f : Seq → Seq) : (onSeq c f).glb = c.glb := rfl
@[simp] theorem onSeq_img (c : Ctl) (f : Seq → Seq) : (onSeq c f).img = c.img := rfl
@[simp] theorem onSeq_dimm (c : Ctl) (f : Seq → Seq) : (onSeq c f).dimm = c.dimm := rfl
@[simp] theorem onSeq_fcu (c : Ctl) (f : Seq → Seq) : (onSeq c f).fcu = c.fcu := rfl
@[simp] theorem onSeq_rtc (c : Ctl) (f : Seq → Seq) : (onSeq c f).rtc = c.rtc := rfl
@[simp] theorem onSeq_alc (c : Ctl) (f : Seq → Seq) : (onSeq c f).alc = c.alc := rfl
@[simp] theorem onSeq_clk (c : Ctl) (f : Seq → Seq) : (onSeq c f).clk = c.clk := rfl
@[simp] theorem onSeq_rst (c : Ctl) (f : Seq → Seq) : (onSeq c f).rst = c.rst := rfl
@[simp] theorem onSeq_boot (c : Ctl) (f : Seq → Seq) : (onSeq c f).boot = c.boot := rfl
@[simp] theorem onSeq_seq (c : Ctl) (f : Seq → Seq) : (onSeq c f).seq = f c.seq := rfl
@[simp] theorem onSeq_pwrImg (c : Ctl) (f : Seq → Seq) : (onSeq c f).pwrImg = c.pwrImg := rfl
@[simp] theorem onSeq_pf (c : Ctl) (f : Seq → Seq) : (onSeq c f).pf = c.pf := rfl
@[simp] theorem onSeq_hold (c : Ctl) (f : Seq → Seq) : (onSeq c f).hold = c.hold := rfl
@[simp] theorem onSeq_sns (c : Ctl) (f : Seq → Seq) : (onSeq c f).sns = c.sns := rfl
@[simp] theorem onSeq_budget (c : Ctl) (f : Seq → Seq) : (onSeq c f).budget = c.budget := rfl
@[simp] theorem onSeq_mgmt (c : Ctl) (f : Seq → Seq) : (onSeq c f).mgmt = c.mgmt := rfl
@[simp] theorem onSeq_heads (c : Ctl) (f : Seq → Seq) : (onSeq c f).heads = c.heads := rfl
@[simp] theorem onSeq_lds (c : Ctl) (f : Seq → Seq) : (onSeq c f).lds = c.lds := rfl
@[simp] theorem onSeq_halls (c : Ctl) (f : Seq → Seq) : (onSeq c f).halls = c.halls := rfl
@[simp] theorem onSeq_snoops (c : Ctl) (f : Seq → Seq) : (onSeq c f).snoops = c.snoops := rfl
@[simp] theorem onSeq_releases (c : Ctl) (f : Seq → Seq) : (onSeq c f).releases = c.releases := rfl
@[simp] theorem onSeq_tenants (c : Ctl) (f : Seq → Seq) : (onSeq c f).tenants = c.tenants := rfl
@[simp] theorem onSeq_gals (c : Ctl) (f : Seq → Seq) : (onSeq c f).gals = c.gals := rfl
@[simp] theorem onSeq_dchs (c : Ctl) (f : Seq → Seq) : (onSeq c f).dchs = c.dchs := rfl
@[simp] theorem onSeq_reqs (c : Ctl) (f : Seq → Seq) : (onSeq c f).reqs = c.reqs := rfl
@[simp] theorem onSeq_nextReq (c : Ctl) (f : Seq → Seq) : (onSeq c f).nextReq = c.nextReq := rfl
@[simp] theorem onSeq_twin (c : Ctl) (f : Seq → Seq) : (onSeq c f).twin = c.twin := rfl
@[simp] theorem onSeq_pair (c : Ctl) (f : Seq → Seq) : (onSeq c f).pair = c.pair := rfl
@[simp] theorem onSeq_svr (c : Ctl) (f : Seq → Seq) : (onSeq c f).svr = c.svr := rfl
@[simp] theorem onSeq_vlt (c : Ctl) (f : Seq → Seq) : (onSeq c f).vlt = c.vlt := rfl
@[simp] theorem onSeq_rings (c : Ctl) (f : Seq → Seq) : (onSeq c f).rings = c.rings := rfl
@[simp] theorem onSeq_flights (c : Ctl) (f : Seq → Seq) : (onSeq c f).flights = c.flights := rfl
@[simp] theorem onSeq_fgen (c : Ctl) (f : Seq → Seq) : (onSeq c f).fgen = c.fgen := rfl
@[simp] theorem onSeq_commitSeq (c : Ctl) (f : Seq → Seq) : (onSeq c f).commitSeq = c.commitSeq := rfl
@[simp] theorem onSeq_flightCount (c : Ctl) (f : Seq → Seq) : (onSeq c f).flightCount = c.flightCount := rfl
@[simp] theorem onSeq_flightAbandoned (c : Ctl) (f : Seq → Seq) : (onSeq c f).flightAbandoned = c.flightAbandoned := rfl
@[simp] theorem onSeq_partnerApplied (c : Ctl) (f : Seq → Seq) : (onSeq c f).partnerApplied = c.partnerApplied := rfl
@[simp] theorem onSeq_poisonOver (c : Ctl) (f : Seq → Seq) : (onSeq c f).poisonOver = c.poisonOver := rfl
@[simp] theorem onSeq_throttling (c : Ctl) (f : Seq → Seq) : (onSeq c f).throttling = c.throttling := rfl
@[simp] theorem onSeq_out (c : Ctl) (f : Seq → Seq) : (onSeq c f).out = c.out := rfl
@[simp] theorem onSeq_free (c : Ctl) (f : Seq → Seq) : (onSeq c f).free = c.free := rfl

/-! ## onHold -/

@[simp] theorem onHold_glb (c : Ctl) (f : Hold → Hold) : (onHold c f).glb = c.glb := rfl
@[simp] theorem onHold_img (c : Ctl) (f : Hold → Hold) : (onHold c f).img = c.img := rfl
@[simp] theorem onHold_dimm (c : Ctl) (f : Hold → Hold) : (onHold c f).dimm = c.dimm := rfl
@[simp] theorem onHold_fcu (c : Ctl) (f : Hold → Hold) : (onHold c f).fcu = c.fcu := rfl
@[simp] theorem onHold_rtc (c : Ctl) (f : Hold → Hold) : (onHold c f).rtc = c.rtc := rfl
@[simp] theorem onHold_alc (c : Ctl) (f : Hold → Hold) : (onHold c f).alc = c.alc := rfl
@[simp] theorem onHold_clk (c : Ctl) (f : Hold → Hold) : (onHold c f).clk = c.clk := rfl
@[simp] theorem onHold_rst (c : Ctl) (f : Hold → Hold) : (onHold c f).rst = c.rst := rfl
@[simp] theorem onHold_boot (c : Ctl) (f : Hold → Hold) : (onHold c f).boot = c.boot := rfl
@[simp] theorem onHold_seq (c : Ctl) (f : Hold → Hold) : (onHold c f).seq = c.seq := rfl
@[simp] theorem onHold_pwrImg (c : Ctl) (f : Hold → Hold) : (onHold c f).pwrImg = c.pwrImg := rfl
@[simp] theorem onHold_pf (c : Ctl) (f : Hold → Hold) : (onHold c f).pf = c.pf := rfl
@[simp] theorem onHold_hold (c : Ctl) (f : Hold → Hold) : (onHold c f).hold = f c.hold := rfl
@[simp] theorem onHold_sns (c : Ctl) (f : Hold → Hold) : (onHold c f).sns = c.sns := rfl
@[simp] theorem onHold_budget (c : Ctl) (f : Hold → Hold) : (onHold c f).budget = c.budget := rfl
@[simp] theorem onHold_mgmt (c : Ctl) (f : Hold → Hold) : (onHold c f).mgmt = c.mgmt := rfl
@[simp] theorem onHold_heads (c : Ctl) (f : Hold → Hold) : (onHold c f).heads = c.heads := rfl
@[simp] theorem onHold_lds (c : Ctl) (f : Hold → Hold) : (onHold c f).lds = c.lds := rfl
@[simp] theorem onHold_halls (c : Ctl) (f : Hold → Hold) : (onHold c f).halls = c.halls := rfl
@[simp] theorem onHold_snoops (c : Ctl) (f : Hold → Hold) : (onHold c f).snoops = c.snoops := rfl
@[simp] theorem onHold_releases (c : Ctl) (f : Hold → Hold) : (onHold c f).releases = c.releases := rfl
@[simp] theorem onHold_tenants (c : Ctl) (f : Hold → Hold) : (onHold c f).tenants = c.tenants := rfl
@[simp] theorem onHold_gals (c : Ctl) (f : Hold → Hold) : (onHold c f).gals = c.gals := rfl
@[simp] theorem onHold_dchs (c : Ctl) (f : Hold → Hold) : (onHold c f).dchs = c.dchs := rfl
@[simp] theorem onHold_reqs (c : Ctl) (f : Hold → Hold) : (onHold c f).reqs = c.reqs := rfl
@[simp] theorem onHold_nextReq (c : Ctl) (f : Hold → Hold) : (onHold c f).nextReq = c.nextReq := rfl
@[simp] theorem onHold_twin (c : Ctl) (f : Hold → Hold) : (onHold c f).twin = c.twin := rfl
@[simp] theorem onHold_pair (c : Ctl) (f : Hold → Hold) : (onHold c f).pair = c.pair := rfl
@[simp] theorem onHold_svr (c : Ctl) (f : Hold → Hold) : (onHold c f).svr = c.svr := rfl
@[simp] theorem onHold_vlt (c : Ctl) (f : Hold → Hold) : (onHold c f).vlt = c.vlt := rfl
@[simp] theorem onHold_rings (c : Ctl) (f : Hold → Hold) : (onHold c f).rings = c.rings := rfl
@[simp] theorem onHold_flights (c : Ctl) (f : Hold → Hold) : (onHold c f).flights = c.flights := rfl
@[simp] theorem onHold_fgen (c : Ctl) (f : Hold → Hold) : (onHold c f).fgen = c.fgen := rfl
@[simp] theorem onHold_commitSeq (c : Ctl) (f : Hold → Hold) : (onHold c f).commitSeq = c.commitSeq := rfl
@[simp] theorem onHold_flightCount (c : Ctl) (f : Hold → Hold) : (onHold c f).flightCount = c.flightCount := rfl
@[simp] theorem onHold_flightAbandoned (c : Ctl) (f : Hold → Hold) : (onHold c f).flightAbandoned = c.flightAbandoned := rfl
@[simp] theorem onHold_partnerApplied (c : Ctl) (f : Hold → Hold) : (onHold c f).partnerApplied = c.partnerApplied := rfl
@[simp] theorem onHold_poisonOver (c : Ctl) (f : Hold → Hold) : (onHold c f).poisonOver = c.poisonOver := rfl
@[simp] theorem onHold_throttling (c : Ctl) (f : Hold → Hold) : (onHold c f).throttling = c.throttling := rfl
@[simp] theorem onHold_out (c : Ctl) (f : Hold → Hold) : (onHold c f).out = c.out := rfl
@[simp] theorem onHold_free (c : Ctl) (f : Hold → Hold) : (onHold c f).free = c.free := rfl

/-! ## onSvr -/

@[simp] theorem onSvr_glb (c : Ctl) (f : Svr → Svr) : (onSvr c f).glb = c.glb := rfl
@[simp] theorem onSvr_img (c : Ctl) (f : Svr → Svr) : (onSvr c f).img = c.img := rfl
@[simp] theorem onSvr_dimm (c : Ctl) (f : Svr → Svr) : (onSvr c f).dimm = c.dimm := rfl
@[simp] theorem onSvr_fcu (c : Ctl) (f : Svr → Svr) : (onSvr c f).fcu = c.fcu := rfl
@[simp] theorem onSvr_rtc (c : Ctl) (f : Svr → Svr) : (onSvr c f).rtc = c.rtc := rfl
@[simp] theorem onSvr_alc (c : Ctl) (f : Svr → Svr) : (onSvr c f).alc = c.alc := rfl
@[simp] theorem onSvr_clk (c : Ctl) (f : Svr → Svr) : (onSvr c f).clk = c.clk := rfl
@[simp] theorem onSvr_rst (c : Ctl) (f : Svr → Svr) : (onSvr c f).rst = c.rst := rfl
@[simp] theorem onSvr_boot (c : Ctl) (f : Svr → Svr) : (onSvr c f).boot = c.boot := rfl
@[simp] theorem onSvr_seq (c : Ctl) (f : Svr → Svr) : (onSvr c f).seq = c.seq := rfl
@[simp] theorem onSvr_pwrImg (c : Ctl) (f : Svr → Svr) : (onSvr c f).pwrImg = c.pwrImg := rfl
@[simp] theorem onSvr_pf (c : Ctl) (f : Svr → Svr) : (onSvr c f).pf = c.pf := rfl
@[simp] theorem onSvr_hold (c : Ctl) (f : Svr → Svr) : (onSvr c f).hold = c.hold := rfl
@[simp] theorem onSvr_sns (c : Ctl) (f : Svr → Svr) : (onSvr c f).sns = c.sns := rfl
@[simp] theorem onSvr_budget (c : Ctl) (f : Svr → Svr) : (onSvr c f).budget = c.budget := rfl
@[simp] theorem onSvr_mgmt (c : Ctl) (f : Svr → Svr) : (onSvr c f).mgmt = c.mgmt := rfl
@[simp] theorem onSvr_heads (c : Ctl) (f : Svr → Svr) : (onSvr c f).heads = c.heads := rfl
@[simp] theorem onSvr_lds (c : Ctl) (f : Svr → Svr) : (onSvr c f).lds = c.lds := rfl
@[simp] theorem onSvr_halls (c : Ctl) (f : Svr → Svr) : (onSvr c f).halls = c.halls := rfl
@[simp] theorem onSvr_snoops (c : Ctl) (f : Svr → Svr) : (onSvr c f).snoops = c.snoops := rfl
@[simp] theorem onSvr_releases (c : Ctl) (f : Svr → Svr) : (onSvr c f).releases = c.releases := rfl
@[simp] theorem onSvr_tenants (c : Ctl) (f : Svr → Svr) : (onSvr c f).tenants = c.tenants := rfl
@[simp] theorem onSvr_gals (c : Ctl) (f : Svr → Svr) : (onSvr c f).gals = c.gals := rfl
@[simp] theorem onSvr_dchs (c : Ctl) (f : Svr → Svr) : (onSvr c f).dchs = c.dchs := rfl
@[simp] theorem onSvr_reqs (c : Ctl) (f : Svr → Svr) : (onSvr c f).reqs = c.reqs := rfl
@[simp] theorem onSvr_nextReq (c : Ctl) (f : Svr → Svr) : (onSvr c f).nextReq = c.nextReq := rfl
@[simp] theorem onSvr_twin (c : Ctl) (f : Svr → Svr) : (onSvr c f).twin = c.twin := rfl
@[simp] theorem onSvr_pair (c : Ctl) (f : Svr → Svr) : (onSvr c f).pair = c.pair := rfl
@[simp] theorem onSvr_svr (c : Ctl) (f : Svr → Svr) : (onSvr c f).svr = f c.svr := rfl
@[simp] theorem onSvr_vlt (c : Ctl) (f : Svr → Svr) : (onSvr c f).vlt = c.vlt := rfl
@[simp] theorem onSvr_rings (c : Ctl) (f : Svr → Svr) : (onSvr c f).rings = c.rings := rfl
@[simp] theorem onSvr_flights (c : Ctl) (f : Svr → Svr) : (onSvr c f).flights = c.flights := rfl
@[simp] theorem onSvr_fgen (c : Ctl) (f : Svr → Svr) : (onSvr c f).fgen = c.fgen := rfl
@[simp] theorem onSvr_commitSeq (c : Ctl) (f : Svr → Svr) : (onSvr c f).commitSeq = c.commitSeq := rfl
@[simp] theorem onSvr_flightCount (c : Ctl) (f : Svr → Svr) : (onSvr c f).flightCount = c.flightCount := rfl
@[simp] theorem onSvr_flightAbandoned (c : Ctl) (f : Svr → Svr) : (onSvr c f).flightAbandoned = c.flightAbandoned := rfl
@[simp] theorem onSvr_partnerApplied (c : Ctl) (f : Svr → Svr) : (onSvr c f).partnerApplied = c.partnerApplied := rfl
@[simp] theorem onSvr_poisonOver (c : Ctl) (f : Svr → Svr) : (onSvr c f).poisonOver = c.poisonOver := rfl
@[simp] theorem onSvr_throttling (c : Ctl) (f : Svr → Svr) : (onSvr c f).throttling = c.throttling := rfl
@[simp] theorem onSvr_out (c : Ctl) (f : Svr → Svr) : (onSvr c f).out = c.out := rfl
@[simp] theorem onSvr_free (c : Ctl) (f : Svr → Svr) : (onSvr c f).free = c.free := rfl

/-! ## onPf -/

@[simp] theorem onPf_glb (c : Ctl) (f : Pf → Pf) : (onPf c f).glb = c.glb := rfl
@[simp] theorem onPf_img (c : Ctl) (f : Pf → Pf) : (onPf c f).img = c.img := rfl
@[simp] theorem onPf_dimm (c : Ctl) (f : Pf → Pf) : (onPf c f).dimm = c.dimm := rfl
@[simp] theorem onPf_fcu (c : Ctl) (f : Pf → Pf) : (onPf c f).fcu = c.fcu := rfl
@[simp] theorem onPf_rtc (c : Ctl) (f : Pf → Pf) : (onPf c f).rtc = c.rtc := rfl
@[simp] theorem onPf_alc (c : Ctl) (f : Pf → Pf) : (onPf c f).alc = c.alc := rfl
@[simp] theorem onPf_clk (c : Ctl) (f : Pf → Pf) : (onPf c f).clk = c.clk := rfl
@[simp] theorem onPf_rst (c : Ctl) (f : Pf → Pf) : (onPf c f).rst = c.rst := rfl
@[simp] theorem onPf_boot (c : Ctl) (f : Pf → Pf) : (onPf c f).boot = c.boot := rfl
@[simp] theorem onPf_seq (c : Ctl) (f : Pf → Pf) : (onPf c f).seq = c.seq := rfl
@[simp] theorem onPf_pwrImg (c : Ctl) (f : Pf → Pf) : (onPf c f).pwrImg = c.pwrImg := rfl
@[simp] theorem onPf_pf (c : Ctl) (f : Pf → Pf) : (onPf c f).pf = f c.pf := rfl
@[simp] theorem onPf_hold (c : Ctl) (f : Pf → Pf) : (onPf c f).hold = c.hold := rfl
@[simp] theorem onPf_sns (c : Ctl) (f : Pf → Pf) : (onPf c f).sns = c.sns := rfl
@[simp] theorem onPf_budget (c : Ctl) (f : Pf → Pf) : (onPf c f).budget = c.budget := rfl
@[simp] theorem onPf_mgmt (c : Ctl) (f : Pf → Pf) : (onPf c f).mgmt = c.mgmt := rfl
@[simp] theorem onPf_heads (c : Ctl) (f : Pf → Pf) : (onPf c f).heads = c.heads := rfl
@[simp] theorem onPf_lds (c : Ctl) (f : Pf → Pf) : (onPf c f).lds = c.lds := rfl
@[simp] theorem onPf_halls (c : Ctl) (f : Pf → Pf) : (onPf c f).halls = c.halls := rfl
@[simp] theorem onPf_snoops (c : Ctl) (f : Pf → Pf) : (onPf c f).snoops = c.snoops := rfl
@[simp] theorem onPf_releases (c : Ctl) (f : Pf → Pf) : (onPf c f).releases = c.releases := rfl
@[simp] theorem onPf_tenants (c : Ctl) (f : Pf → Pf) : (onPf c f).tenants = c.tenants := rfl
@[simp] theorem onPf_gals (c : Ctl) (f : Pf → Pf) : (onPf c f).gals = c.gals := rfl
@[simp] theorem onPf_dchs (c : Ctl) (f : Pf → Pf) : (onPf c f).dchs = c.dchs := rfl
@[simp] theorem onPf_reqs (c : Ctl) (f : Pf → Pf) : (onPf c f).reqs = c.reqs := rfl
@[simp] theorem onPf_nextReq (c : Ctl) (f : Pf → Pf) : (onPf c f).nextReq = c.nextReq := rfl
@[simp] theorem onPf_twin (c : Ctl) (f : Pf → Pf) : (onPf c f).twin = c.twin := rfl
@[simp] theorem onPf_pair (c : Ctl) (f : Pf → Pf) : (onPf c f).pair = c.pair := rfl
@[simp] theorem onPf_svr (c : Ctl) (f : Pf → Pf) : (onPf c f).svr = c.svr := rfl
@[simp] theorem onPf_vlt (c : Ctl) (f : Pf → Pf) : (onPf c f).vlt = c.vlt := rfl
@[simp] theorem onPf_rings (c : Ctl) (f : Pf → Pf) : (onPf c f).rings = c.rings := rfl
@[simp] theorem onPf_flights (c : Ctl) (f : Pf → Pf) : (onPf c f).flights = c.flights := rfl
@[simp] theorem onPf_fgen (c : Ctl) (f : Pf → Pf) : (onPf c f).fgen = c.fgen := rfl
@[simp] theorem onPf_commitSeq (c : Ctl) (f : Pf → Pf) : (onPf c f).commitSeq = c.commitSeq := rfl
@[simp] theorem onPf_flightCount (c : Ctl) (f : Pf → Pf) : (onPf c f).flightCount = c.flightCount := rfl
@[simp] theorem onPf_flightAbandoned (c : Ctl) (f : Pf → Pf) : (onPf c f).flightAbandoned = c.flightAbandoned := rfl
@[simp] theorem onPf_partnerApplied (c : Ctl) (f : Pf → Pf) : (onPf c f).partnerApplied = c.partnerApplied := rfl
@[simp] theorem onPf_poisonOver (c : Ctl) (f : Pf → Pf) : (onPf c f).poisonOver = c.poisonOver := rfl
@[simp] theorem onPf_throttling (c : Ctl) (f : Pf → Pf) : (onPf c f).throttling = c.throttling := rfl
@[simp] theorem onPf_out (c : Ctl) (f : Pf → Pf) : (onPf c f).out = c.out := rfl
@[simp] theorem onPf_free (c : Ctl) (f : Pf → Pf) : (onPf c f).free = c.free := rfl

/-! ## onGlb -/

@[simp] theorem onGlb_glb (c : Ctl) (f : Glb → Glb) : (onGlb c f).glb = f c.glb := rfl
@[simp] theorem onGlb_img (c : Ctl) (f : Glb → Glb) : (onGlb c f).img = c.img := rfl
@[simp] theorem onGlb_dimm (c : Ctl) (f : Glb → Glb) : (onGlb c f).dimm = c.dimm := rfl
@[simp] theorem onGlb_fcu (c : Ctl) (f : Glb → Glb) : (onGlb c f).fcu = c.fcu := rfl
@[simp] theorem onGlb_rtc (c : Ctl) (f : Glb → Glb) : (onGlb c f).rtc = c.rtc := rfl
@[simp] theorem onGlb_alc (c : Ctl) (f : Glb → Glb) : (onGlb c f).alc = c.alc := rfl
@[simp] theorem onGlb_clk (c : Ctl) (f : Glb → Glb) : (onGlb c f).clk = c.clk := rfl
@[simp] theorem onGlb_rst (c : Ctl) (f : Glb → Glb) : (onGlb c f).rst = c.rst := rfl
@[simp] theorem onGlb_boot (c : Ctl) (f : Glb → Glb) : (onGlb c f).boot = c.boot := rfl
@[simp] theorem onGlb_seq (c : Ctl) (f : Glb → Glb) : (onGlb c f).seq = c.seq := rfl
@[simp] theorem onGlb_pwrImg (c : Ctl) (f : Glb → Glb) : (onGlb c f).pwrImg = c.pwrImg := rfl
@[simp] theorem onGlb_pf (c : Ctl) (f : Glb → Glb) : (onGlb c f).pf = c.pf := rfl
@[simp] theorem onGlb_hold (c : Ctl) (f : Glb → Glb) : (onGlb c f).hold = c.hold := rfl
@[simp] theorem onGlb_sns (c : Ctl) (f : Glb → Glb) : (onGlb c f).sns = c.sns := rfl
@[simp] theorem onGlb_budget (c : Ctl) (f : Glb → Glb) : (onGlb c f).budget = c.budget := rfl
@[simp] theorem onGlb_mgmt (c : Ctl) (f : Glb → Glb) : (onGlb c f).mgmt = c.mgmt := rfl
@[simp] theorem onGlb_heads (c : Ctl) (f : Glb → Glb) : (onGlb c f).heads = c.heads := rfl
@[simp] theorem onGlb_lds (c : Ctl) (f : Glb → Glb) : (onGlb c f).lds = c.lds := rfl
@[simp] theorem onGlb_halls (c : Ctl) (f : Glb → Glb) : (onGlb c f).halls = c.halls := rfl
@[simp] theorem onGlb_snoops (c : Ctl) (f : Glb → Glb) : (onGlb c f).snoops = c.snoops := rfl
@[simp] theorem onGlb_releases (c : Ctl) (f : Glb → Glb) : (onGlb c f).releases = c.releases := rfl
@[simp] theorem onGlb_tenants (c : Ctl) (f : Glb → Glb) : (onGlb c f).tenants = c.tenants := rfl
@[simp] theorem onGlb_gals (c : Ctl) (f : Glb → Glb) : (onGlb c f).gals = c.gals := rfl
@[simp] theorem onGlb_dchs (c : Ctl) (f : Glb → Glb) : (onGlb c f).dchs = c.dchs := rfl
@[simp] theorem onGlb_reqs (c : Ctl) (f : Glb → Glb) : (onGlb c f).reqs = c.reqs := rfl
@[simp] theorem onGlb_nextReq (c : Ctl) (f : Glb → Glb) : (onGlb c f).nextReq = c.nextReq := rfl
@[simp] theorem onGlb_twin (c : Ctl) (f : Glb → Glb) : (onGlb c f).twin = c.twin := rfl
@[simp] theorem onGlb_pair (c : Ctl) (f : Glb → Glb) : (onGlb c f).pair = c.pair := rfl
@[simp] theorem onGlb_svr (c : Ctl) (f : Glb → Glb) : (onGlb c f).svr = c.svr := rfl
@[simp] theorem onGlb_vlt (c : Ctl) (f : Glb → Glb) : (onGlb c f).vlt = c.vlt := rfl
@[simp] theorem onGlb_rings (c : Ctl) (f : Glb → Glb) : (onGlb c f).rings = c.rings := rfl
@[simp] theorem onGlb_flights (c : Ctl) (f : Glb → Glb) : (onGlb c f).flights = c.flights := rfl
@[simp] theorem onGlb_fgen (c : Ctl) (f : Glb → Glb) : (onGlb c f).fgen = c.fgen := rfl
@[simp] theorem onGlb_commitSeq (c : Ctl) (f : Glb → Glb) : (onGlb c f).commitSeq = c.commitSeq := rfl
@[simp] theorem onGlb_flightCount (c : Ctl) (f : Glb → Glb) : (onGlb c f).flightCount = c.flightCount := rfl
@[simp] theorem onGlb_flightAbandoned (c : Ctl) (f : Glb → Glb) : (onGlb c f).flightAbandoned = c.flightAbandoned := rfl
@[simp] theorem onGlb_partnerApplied (c : Ctl) (f : Glb → Glb) : (onGlb c f).partnerApplied = c.partnerApplied := rfl
@[simp] theorem onGlb_poisonOver (c : Ctl) (f : Glb → Glb) : (onGlb c f).poisonOver = c.poisonOver := rfl
@[simp] theorem onGlb_throttling (c : Ctl) (f : Glb → Glb) : (onGlb c f).throttling = c.throttling := rfl
@[simp] theorem onGlb_out (c : Ctl) (f : Glb → Glb) : (onGlb c f).out = c.out := rfl
@[simp] theorem onGlb_free (c : Ctl) (f : Glb → Glb) : (onGlb c f).free = c.free := rfl

/-! ## onRtc -/

@[simp] theorem onRtc_glb (c : Ctl) (f : Rtc → Rtc) : (onRtc c f).glb = c.glb := rfl
@[simp] theorem onRtc_img (c : Ctl) (f : Rtc → Rtc) : (onRtc c f).img = c.img := rfl
@[simp] theorem onRtc_dimm (c : Ctl) (f : Rtc → Rtc) : (onRtc c f).dimm = c.dimm := rfl
@[simp] theorem onRtc_fcu (c : Ctl) (f : Rtc → Rtc) : (onRtc c f).fcu = c.fcu := rfl
@[simp] theorem onRtc_rtc (c : Ctl) (f : Rtc → Rtc) : (onRtc c f).rtc = f c.rtc := rfl
@[simp] theorem onRtc_alc (c : Ctl) (f : Rtc → Rtc) : (onRtc c f).alc = c.alc := rfl
@[simp] theorem onRtc_clk (c : Ctl) (f : Rtc → Rtc) : (onRtc c f).clk = c.clk := rfl
@[simp] theorem onRtc_rst (c : Ctl) (f : Rtc → Rtc) : (onRtc c f).rst = c.rst := rfl
@[simp] theorem onRtc_boot (c : Ctl) (f : Rtc → Rtc) : (onRtc c f).boot = c.boot := rfl
@[simp] theorem onRtc_seq (c : Ctl) (f : Rtc → Rtc) : (onRtc c f).seq = c.seq := rfl
@[simp] theorem onRtc_pwrImg (c : Ctl) (f : Rtc → Rtc) : (onRtc c f).pwrImg = c.pwrImg := rfl
@[simp] theorem onRtc_pf (c : Ctl) (f : Rtc → Rtc) : (onRtc c f).pf = c.pf := rfl
@[simp] theorem onRtc_hold (c : Ctl) (f : Rtc → Rtc) : (onRtc c f).hold = c.hold := rfl
@[simp] theorem onRtc_sns (c : Ctl) (f : Rtc → Rtc) : (onRtc c f).sns = c.sns := rfl
@[simp] theorem onRtc_budget (c : Ctl) (f : Rtc → Rtc) : (onRtc c f).budget = c.budget := rfl
@[simp] theorem onRtc_mgmt (c : Ctl) (f : Rtc → Rtc) : (onRtc c f).mgmt = c.mgmt := rfl
@[simp] theorem onRtc_heads (c : Ctl) (f : Rtc → Rtc) : (onRtc c f).heads = c.heads := rfl
@[simp] theorem onRtc_lds (c : Ctl) (f : Rtc → Rtc) : (onRtc c f).lds = c.lds := rfl
@[simp] theorem onRtc_halls (c : Ctl) (f : Rtc → Rtc) : (onRtc c f).halls = c.halls := rfl
@[simp] theorem onRtc_snoops (c : Ctl) (f : Rtc → Rtc) : (onRtc c f).snoops = c.snoops := rfl
@[simp] theorem onRtc_releases (c : Ctl) (f : Rtc → Rtc) : (onRtc c f).releases = c.releases := rfl
@[simp] theorem onRtc_tenants (c : Ctl) (f : Rtc → Rtc) : (onRtc c f).tenants = c.tenants := rfl
@[simp] theorem onRtc_gals (c : Ctl) (f : Rtc → Rtc) : (onRtc c f).gals = c.gals := rfl
@[simp] theorem onRtc_dchs (c : Ctl) (f : Rtc → Rtc) : (onRtc c f).dchs = c.dchs := rfl
@[simp] theorem onRtc_reqs (c : Ctl) (f : Rtc → Rtc) : (onRtc c f).reqs = c.reqs := rfl
@[simp] theorem onRtc_nextReq (c : Ctl) (f : Rtc → Rtc) : (onRtc c f).nextReq = c.nextReq := rfl
@[simp] theorem onRtc_twin (c : Ctl) (f : Rtc → Rtc) : (onRtc c f).twin = c.twin := rfl
@[simp] theorem onRtc_pair (c : Ctl) (f : Rtc → Rtc) : (onRtc c f).pair = c.pair := rfl
@[simp] theorem onRtc_svr (c : Ctl) (f : Rtc → Rtc) : (onRtc c f).svr = c.svr := rfl
@[simp] theorem onRtc_vlt (c : Ctl) (f : Rtc → Rtc) : (onRtc c f).vlt = c.vlt := rfl
@[simp] theorem onRtc_rings (c : Ctl) (f : Rtc → Rtc) : (onRtc c f).rings = c.rings := rfl
@[simp] theorem onRtc_flights (c : Ctl) (f : Rtc → Rtc) : (onRtc c f).flights = c.flights := rfl
@[simp] theorem onRtc_fgen (c : Ctl) (f : Rtc → Rtc) : (onRtc c f).fgen = c.fgen := rfl
@[simp] theorem onRtc_commitSeq (c : Ctl) (f : Rtc → Rtc) : (onRtc c f).commitSeq = c.commitSeq := rfl
@[simp] theorem onRtc_flightCount (c : Ctl) (f : Rtc → Rtc) : (onRtc c f).flightCount = c.flightCount := rfl
@[simp] theorem onRtc_flightAbandoned (c : Ctl) (f : Rtc → Rtc) : (onRtc c f).flightAbandoned = c.flightAbandoned := rfl
@[simp] theorem onRtc_partnerApplied (c : Ctl) (f : Rtc → Rtc) : (onRtc c f).partnerApplied = c.partnerApplied := rfl
@[simp] theorem onRtc_poisonOver (c : Ctl) (f : Rtc → Rtc) : (onRtc c f).poisonOver = c.poisonOver := rfl
@[simp] theorem onRtc_throttling (c : Ctl) (f : Rtc → Rtc) : (onRtc c f).throttling = c.throttling := rfl
@[simp] theorem onRtc_out (c : Ctl) (f : Rtc → Rtc) : (onRtc c f).out = c.out := rfl
@[simp] theorem onRtc_free (c : Ctl) (f : Rtc → Rtc) : (onRtc c f).free = c.free := rfl

/-! ## emit -/

@[simp] theorem emit_glb (c : Ctl) (o : Out) : (emit c o).glb = c.glb := rfl
@[simp] theorem emit_img (c : Ctl) (o : Out) : (emit c o).img = c.img := rfl
@[simp] theorem emit_dimm (c : Ctl) (o : Out) : (emit c o).dimm = c.dimm := rfl
@[simp] theorem emit_fcu (c : Ctl) (o : Out) : (emit c o).fcu = c.fcu := rfl
@[simp] theorem emit_rtc (c : Ctl) (o : Out) : (emit c o).rtc = c.rtc := rfl
@[simp] theorem emit_alc (c : Ctl) (o : Out) : (emit c o).alc = c.alc := rfl
@[simp] theorem emit_clk (c : Ctl) (o : Out) : (emit c o).clk = c.clk := rfl
@[simp] theorem emit_rst (c : Ctl) (o : Out) : (emit c o).rst = c.rst := rfl
@[simp] theorem emit_boot (c : Ctl) (o : Out) : (emit c o).boot = c.boot := rfl
@[simp] theorem emit_seq (c : Ctl) (o : Out) : (emit c o).seq = c.seq := rfl
@[simp] theorem emit_pwrImg (c : Ctl) (o : Out) : (emit c o).pwrImg = c.pwrImg := rfl
@[simp] theorem emit_pf (c : Ctl) (o : Out) : (emit c o).pf = c.pf := rfl
@[simp] theorem emit_hold (c : Ctl) (o : Out) : (emit c o).hold = c.hold := rfl
@[simp] theorem emit_sns (c : Ctl) (o : Out) : (emit c o).sns = c.sns := rfl
@[simp] theorem emit_budget (c : Ctl) (o : Out) : (emit c o).budget = c.budget := rfl
@[simp] theorem emit_mgmt (c : Ctl) (o : Out) : (emit c o).mgmt = c.mgmt := rfl
@[simp] theorem emit_heads (c : Ctl) (o : Out) : (emit c o).heads = c.heads := rfl
@[simp] theorem emit_lds (c : Ctl) (o : Out) : (emit c o).lds = c.lds := rfl
@[simp] theorem emit_halls (c : Ctl) (o : Out) : (emit c o).halls = c.halls := rfl
@[simp] theorem emit_snoops (c : Ctl) (o : Out) : (emit c o).snoops = c.snoops := rfl
@[simp] theorem emit_releases (c : Ctl) (o : Out) : (emit c o).releases = c.releases := rfl
@[simp] theorem emit_tenants (c : Ctl) (o : Out) : (emit c o).tenants = c.tenants := rfl
@[simp] theorem emit_gals (c : Ctl) (o : Out) : (emit c o).gals = c.gals := rfl
@[simp] theorem emit_dchs (c : Ctl) (o : Out) : (emit c o).dchs = c.dchs := rfl
@[simp] theorem emit_reqs (c : Ctl) (o : Out) : (emit c o).reqs = c.reqs := rfl
@[simp] theorem emit_nextReq (c : Ctl) (o : Out) : (emit c o).nextReq = c.nextReq := rfl
@[simp] theorem emit_twin (c : Ctl) (o : Out) : (emit c o).twin = c.twin := rfl
@[simp] theorem emit_pair (c : Ctl) (o : Out) : (emit c o).pair = c.pair := rfl
@[simp] theorem emit_svr (c : Ctl) (o : Out) : (emit c o).svr = c.svr := rfl
@[simp] theorem emit_vlt (c : Ctl) (o : Out) : (emit c o).vlt = c.vlt := rfl
@[simp] theorem emit_rings (c : Ctl) (o : Out) : (emit c o).rings = c.rings := rfl
@[simp] theorem emit_flights (c : Ctl) (o : Out) : (emit c o).flights = c.flights := rfl
@[simp] theorem emit_fgen (c : Ctl) (o : Out) : (emit c o).fgen = c.fgen := rfl
@[simp] theorem emit_commitSeq (c : Ctl) (o : Out) : (emit c o).commitSeq = c.commitSeq := rfl
@[simp] theorem emit_flightCount (c : Ctl) (o : Out) : (emit c o).flightCount = c.flightCount := rfl
@[simp] theorem emit_flightAbandoned (c : Ctl) (o : Out) : (emit c o).flightAbandoned = c.flightAbandoned := rfl
@[simp] theorem emit_partnerApplied (c : Ctl) (o : Out) : (emit c o).partnerApplied = c.partnerApplied := rfl
@[simp] theorem emit_poisonOver (c : Ctl) (o : Out) : (emit c o).poisonOver = c.poisonOver := rfl
@[simp] theorem emit_throttling (c : Ctl) (o : Out) : (emit c o).throttling = c.throttling := rfl
@[simp] theorem emit_out (c : Ctl) (o : Out) : (emit c o).out = o :: c.out := rfl
@[simp] theorem emit_free (c : Ctl) (o : Out) : (emit c o).free = c.free := rfl

/-! ## useFree -/

@[simp] theorem useFree_glb (c : Ctl) : (useFree c).glb = c.glb := rfl
@[simp] theorem useFree_img (c : Ctl) : (useFree c).img = c.img := rfl
@[simp] theorem useFree_dimm (c : Ctl) : (useFree c).dimm = c.dimm := rfl
@[simp] theorem useFree_fcu (c : Ctl) : (useFree c).fcu = c.fcu := rfl
@[simp] theorem useFree_rtc (c : Ctl) : (useFree c).rtc = c.rtc := rfl
@[simp] theorem useFree_alc (c : Ctl) : (useFree c).alc = c.alc := rfl
@[simp] theorem useFree_clk (c : Ctl) : (useFree c).clk = c.clk := rfl
@[simp] theorem useFree_rst (c : Ctl) : (useFree c).rst = c.rst := rfl
@[simp] theorem useFree_boot (c : Ctl) : (useFree c).boot = c.boot := rfl
@[simp] theorem useFree_seq (c : Ctl) : (useFree c).seq = c.seq := rfl
@[simp] theorem useFree_pwrImg (c : Ctl) : (useFree c).pwrImg = c.pwrImg := rfl
@[simp] theorem useFree_pf (c : Ctl) : (useFree c).pf = c.pf := rfl
@[simp] theorem useFree_hold (c : Ctl) : (useFree c).hold = c.hold := rfl
@[simp] theorem useFree_sns (c : Ctl) : (useFree c).sns = c.sns := rfl
@[simp] theorem useFree_budget (c : Ctl) : (useFree c).budget = c.budget := rfl
@[simp] theorem useFree_mgmt (c : Ctl) : (useFree c).mgmt = c.mgmt := rfl
@[simp] theorem useFree_heads (c : Ctl) : (useFree c).heads = c.heads := rfl
@[simp] theorem useFree_lds (c : Ctl) : (useFree c).lds = c.lds := rfl
@[simp] theorem useFree_halls (c : Ctl) : (useFree c).halls = c.halls := rfl
@[simp] theorem useFree_snoops (c : Ctl) : (useFree c).snoops = c.snoops := rfl
@[simp] theorem useFree_releases (c : Ctl) : (useFree c).releases = c.releases := rfl
@[simp] theorem useFree_tenants (c : Ctl) : (useFree c).tenants = c.tenants := rfl
@[simp] theorem useFree_gals (c : Ctl) : (useFree c).gals = c.gals := rfl
@[simp] theorem useFree_dchs (c : Ctl) : (useFree c).dchs = c.dchs := rfl
@[simp] theorem useFree_reqs (c : Ctl) : (useFree c).reqs = c.reqs := rfl
@[simp] theorem useFree_nextReq (c : Ctl) : (useFree c).nextReq = c.nextReq := rfl
@[simp] theorem useFree_twin (c : Ctl) : (useFree c).twin = c.twin := rfl
@[simp] theorem useFree_pair (c : Ctl) : (useFree c).pair = c.pair := rfl
@[simp] theorem useFree_svr (c : Ctl) : (useFree c).svr = c.svr := rfl
@[simp] theorem useFree_vlt (c : Ctl) : (useFree c).vlt = c.vlt := rfl
@[simp] theorem useFree_rings (c : Ctl) : (useFree c).rings = c.rings := rfl
@[simp] theorem useFree_flights (c : Ctl) : (useFree c).flights = c.flights := rfl
@[simp] theorem useFree_fgen (c : Ctl) : (useFree c).fgen = c.fgen := rfl
@[simp] theorem useFree_commitSeq (c : Ctl) : (useFree c).commitSeq = c.commitSeq := rfl
@[simp] theorem useFree_flightCount (c : Ctl) : (useFree c).flightCount = c.flightCount := rfl
@[simp] theorem useFree_flightAbandoned (c : Ctl) : (useFree c).flightAbandoned = c.flightAbandoned := rfl
@[simp] theorem useFree_partnerApplied (c : Ctl) : (useFree c).partnerApplied = c.partnerApplied := rfl
@[simp] theorem useFree_poisonOver (c : Ctl) : (useFree c).poisonOver = c.poisonOver := rfl
@[simp] theorem useFree_throttling (c : Ctl) : (useFree c).throttling = c.throttling := rfl
@[simp] theorem useFree_out (c : Ctl) : (useFree c).out = c.out := rfl
@[simp] theorem useFree_free (c : Ctl) : (useFree c).free = c.free + 1 := rfl

/-! ## onHall: it changes the hall map alone -/

@[simp] theorem onHall_glb (c : Ctl) (k : Nat) (f : Hall → Hall) : (onHall c k f).glb = c.glb := by
  unfold onHall; split <;> rfl
@[simp] theorem onHall_img (c : Ctl) (k : Nat) (f : Hall → Hall) : (onHall c k f).img = c.img := by
  unfold onHall; split <;> rfl
@[simp] theorem onHall_dimm (c : Ctl) (k : Nat) (f : Hall → Hall) : (onHall c k f).dimm = c.dimm := by
  unfold onHall; split <;> rfl
@[simp] theorem onHall_fcu (c : Ctl) (k : Nat) (f : Hall → Hall) : (onHall c k f).fcu = c.fcu := by
  unfold onHall; split <;> rfl
@[simp] theorem onHall_rtc (c : Ctl) (k : Nat) (f : Hall → Hall) : (onHall c k f).rtc = c.rtc := by
  unfold onHall; split <;> rfl
@[simp] theorem onHall_alc (c : Ctl) (k : Nat) (f : Hall → Hall) : (onHall c k f).alc = c.alc := by
  unfold onHall; split <;> rfl
@[simp] theorem onHall_clk (c : Ctl) (k : Nat) (f : Hall → Hall) : (onHall c k f).clk = c.clk := by
  unfold onHall; split <;> rfl
@[simp] theorem onHall_rst (c : Ctl) (k : Nat) (f : Hall → Hall) : (onHall c k f).rst = c.rst := by
  unfold onHall; split <;> rfl
@[simp] theorem onHall_boot (c : Ctl) (k : Nat) (f : Hall → Hall) : (onHall c k f).boot = c.boot := by
  unfold onHall; split <;> rfl
@[simp] theorem onHall_seq (c : Ctl) (k : Nat) (f : Hall → Hall) : (onHall c k f).seq = c.seq := by
  unfold onHall; split <;> rfl
@[simp] theorem onHall_pwrImg (c : Ctl) (k : Nat) (f : Hall → Hall) : (onHall c k f).pwrImg = c.pwrImg := by
  unfold onHall; split <;> rfl
@[simp] theorem onHall_pf (c : Ctl) (k : Nat) (f : Hall → Hall) : (onHall c k f).pf = c.pf := by
  unfold onHall; split <;> rfl
@[simp] theorem onHall_hold (c : Ctl) (k : Nat) (f : Hall → Hall) : (onHall c k f).hold = c.hold := by
  unfold onHall; split <;> rfl
@[simp] theorem onHall_sns (c : Ctl) (k : Nat) (f : Hall → Hall) : (onHall c k f).sns = c.sns := by
  unfold onHall; split <;> rfl
@[simp] theorem onHall_budget (c : Ctl) (k : Nat) (f : Hall → Hall) : (onHall c k f).budget = c.budget := by
  unfold onHall; split <;> rfl
@[simp] theorem onHall_mgmt (c : Ctl) (k : Nat) (f : Hall → Hall) : (onHall c k f).mgmt = c.mgmt := by
  unfold onHall; split <;> rfl
@[simp] theorem onHall_heads (c : Ctl) (k : Nat) (f : Hall → Hall) : (onHall c k f).heads = c.heads := by
  unfold onHall; split <;> rfl
@[simp] theorem onHall_lds (c : Ctl) (k : Nat) (f : Hall → Hall) : (onHall c k f).lds = c.lds := by
  unfold onHall; split <;> rfl
@[simp] theorem onHall_snoops (c : Ctl) (k : Nat) (f : Hall → Hall) : (onHall c k f).snoops = c.snoops := by
  unfold onHall; split <;> rfl
@[simp] theorem onHall_releases (c : Ctl) (k : Nat) (f : Hall → Hall) : (onHall c k f).releases = c.releases := by
  unfold onHall; split <;> rfl
@[simp] theorem onHall_tenants (c : Ctl) (k : Nat) (f : Hall → Hall) : (onHall c k f).tenants = c.tenants := by
  unfold onHall; split <;> rfl
@[simp] theorem onHall_gals (c : Ctl) (k : Nat) (f : Hall → Hall) : (onHall c k f).gals = c.gals := by
  unfold onHall; split <;> rfl
@[simp] theorem onHall_dchs (c : Ctl) (k : Nat) (f : Hall → Hall) : (onHall c k f).dchs = c.dchs := by
  unfold onHall; split <;> rfl
@[simp] theorem onHall_reqs (c : Ctl) (k : Nat) (f : Hall → Hall) : (onHall c k f).reqs = c.reqs := by
  unfold onHall; split <;> rfl
@[simp] theorem onHall_nextReq (c : Ctl) (k : Nat) (f : Hall → Hall) : (onHall c k f).nextReq = c.nextReq := by
  unfold onHall; split <;> rfl
@[simp] theorem onHall_twin (c : Ctl) (k : Nat) (f : Hall → Hall) : (onHall c k f).twin = c.twin := by
  unfold onHall; split <;> rfl
@[simp] theorem onHall_pair (c : Ctl) (k : Nat) (f : Hall → Hall) : (onHall c k f).pair = c.pair := by
  unfold onHall; split <;> rfl
@[simp] theorem onHall_svr (c : Ctl) (k : Nat) (f : Hall → Hall) : (onHall c k f).svr = c.svr := by
  unfold onHall; split <;> rfl
@[simp] theorem onHall_vlt (c : Ctl) (k : Nat) (f : Hall → Hall) : (onHall c k f).vlt = c.vlt := by
  unfold onHall; split <;> rfl
@[simp] theorem onHall_rings (c : Ctl) (k : Nat) (f : Hall → Hall) : (onHall c k f).rings = c.rings := by
  unfold onHall; split <;> rfl
@[simp] theorem onHall_flights (c : Ctl) (k : Nat) (f : Hall → Hall) : (onHall c k f).flights = c.flights := by
  unfold onHall; split <;> rfl
@[simp] theorem onHall_fgen (c : Ctl) (k : Nat) (f : Hall → Hall) : (onHall c k f).fgen = c.fgen := by
  unfold onHall; split <;> rfl
@[simp] theorem onHall_commitSeq (c : Ctl) (k : Nat) (f : Hall → Hall) : (onHall c k f).commitSeq = c.commitSeq := by
  unfold onHall; split <;> rfl
@[simp] theorem onHall_flightCount (c : Ctl) (k : Nat) (f : Hall → Hall) : (onHall c k f).flightCount = c.flightCount := by
  unfold onHall; split <;> rfl
@[simp] theorem onHall_flightAbandoned (c : Ctl) (k : Nat) (f : Hall → Hall) : (onHall c k f).flightAbandoned = c.flightAbandoned := by
  unfold onHall; split <;> rfl
@[simp] theorem onHall_partnerApplied (c : Ctl) (k : Nat) (f : Hall → Hall) : (onHall c k f).partnerApplied = c.partnerApplied := by
  unfold onHall; split <;> rfl
@[simp] theorem onHall_poisonOver (c : Ctl) (k : Nat) (f : Hall → Hall) : (onHall c k f).poisonOver = c.poisonOver := by
  unfold onHall; split <;> rfl
@[simp] theorem onHall_throttling (c : Ctl) (k : Nat) (f : Hall → Hall) : (onHall c k f).throttling = c.throttling := by
  unfold onHall; split <;> rfl
@[simp] theorem onHall_out (c : Ctl) (k : Nat) (f : Hall → Hall) : (onHall c k f).out = c.out := by
  unfold onHall; split <;> rfl
@[simp] theorem onHall_free (c : Ctl) (k : Nat) (f : Hall → Hall) : (onHall c k f).free = c.free := by
  unfold onHall; split <;> rfl

/-! ## The whole state -/

@[simp] theorem withCtl_ctl (s : State) (c : Ctl) : (s.withCtl c).ctl = c := rfl
@[simp] theorem withCtl_dev_ctl (s : State) (c : Ctl) : (s.withCtl c).dev.ctl = c := rfl
@[simp] theorem withCtl_mem (s : State) (c : Ctl) : (s.withCtl c).dev.mem = s.dev.mem := rfl
@[simp] theorem withCtl_pending (s : State) (c : Ctl) : (s.withCtl c).pending = s.pending := rfl
@[simp] theorem withRtc_ctl (s : State) (x : Rtc) : (s.withRtc x).ctl = { s.ctl with rtc := x } := rfl
@[simp] theorem withRtc_mem (s : State) (x : Rtc) : (s.withRtc x).dev.mem = s.dev.mem := rfl
@[simp] theorem withRtc_pending (s : State) (x : Rtc) : (s.withRtc x).pending = s.pending := rfl
@[simp] theorem withAlc_ctl (s : State) (x : Alc) : (s.withAlc x).ctl = { s.ctl with alc := x } := rfl
@[simp] theorem withAlc_mem (s : State) (x : Alc) : (s.withAlc x).dev.mem = s.dev.mem := rfl
@[simp] theorem withAlc_pending (s : State) (x : Alc) : (s.withAlc x).pending = s.pending := rfl
@[simp] theorem withSeq_ctl (s : State) (x : Seq) : (s.withSeq x).ctl = { s.ctl with seq := x } := rfl
@[simp] theorem withSeq_mem (s : State) (x : Seq) : (s.withSeq x).dev.mem = s.dev.mem := rfl
@[simp] theorem withSeq_pending (s : State) (x : Seq) : (s.withSeq x).pending = s.pending := rfl
@[simp] theorem withHold_ctl (s : State) (x : Hold) : (s.withHold x).ctl = { s.ctl with hold := x } := rfl
@[simp] theorem withHold_mem (s : State) (x : Hold) : (s.withHold x).dev.mem = s.dev.mem := rfl
@[simp] theorem withHold_pending (s : State) (x : Hold) : (s.withHold x).pending = s.pending := rfl
@[simp] theorem withPf_ctl (s : State) (x : Pf) : (s.withPf x).ctl = { s.ctl with pf := x } := rfl
@[simp] theorem withPf_mem (s : State) (x : Pf) : (s.withPf x).dev.mem = s.dev.mem := rfl
@[simp] theorem withPf_pending (s : State) (x : Pf) : (s.withPf x).pending = s.pending := rfl
@[simp] theorem withGlb_ctl (s : State) (x : Glb) : (s.withGlb x).ctl = { s.ctl with glb := x } := rfl
@[simp] theorem withGlb_mem (s : State) (x : Glb) : (s.withGlb x).dev.mem = s.dev.mem := rfl
@[simp] theorem withGlb_pending (s : State) (x : Glb) : (s.withGlb x).pending = s.pending := rfl
@[simp] theorem withFcu_ctl (s : State) (x : Fcu) : (s.withFcu x).ctl = { s.ctl with fcu := x } := rfl
@[simp] theorem withFcu_mem (s : State) (x : Fcu) : (s.withFcu x).dev.mem = s.dev.mem := rfl
@[simp] theorem withFcu_pending (s : State) (x : Fcu) : (s.withFcu x).pending = s.pending := rfl
@[simp] theorem withClk_ctl (s : State) (x : Clk) : (s.withClk x).ctl = { s.ctl with clk := x } := rfl
@[simp] theorem withClk_mem (s : State) (x : Clk) : (s.withClk x).dev.mem = s.dev.mem := rfl
@[simp] theorem withClk_pending (s : State) (x : Clk) : (s.withClk x).pending = s.pending := rfl
@[simp] theorem withBoot_ctl (s : State) (x : Boot) : (s.withBoot x).ctl = { s.ctl with boot := x } := rfl
@[simp] theorem withBoot_mem (s : State) (x : Boot) : (s.withBoot x).dev.mem = s.dev.mem := rfl
@[simp] theorem withBoot_pending (s : State) (x : Boot) : (s.withBoot x).pending = s.pending := rfl

/-- A meaning over registers answers a next state and leaves queue and memory alone. -/
@[simp] theorem onCtl_next (s : State) (f : Ctl → Ctl) : onCtl s f = .next (s.withCtl (f s.dev.ctl)) := rfl

/-- A meaning over registers and memory answers a next state and leaves the queue alone. -/
@[simp] theorem onDev_next (s : State) (f : Dev → Dev) : onDev s f = .next { s with dev := f s.dev } := rfl

/-- What a meaning over registers changes is what its function changes. -/
theorem onlyChanges_onCtl {s : State} {c : Ctl} {ps : List Part} (h : ∀ p, p ∉ ps → p.same s (s.withCtl c)) : OnlyChanges ps s (s.withCtl c) :=
  ⟨rfl, h⟩

/-- No change at all changes nothing. -/
theorem onlyChanges_refl (ps : List Part) (s : State) : OnlyChanges ps s s := ⟨rfl, fun p _ => by cases p <;> rfl⟩

/-- Changes of one list of parts are changes of a longer one. -/
theorem onlyChanges_mono {ps qs : List Part} {s t : State} (h : OnlyChanges ps s t) (sub : ∀ p ∈ ps, p ∈ qs) : OnlyChanges qs s t :=
  ⟨h.1, fun p hp => h.2 p (fun hq => hp (sub p hq))⟩

/-- Changes one after another. -/
theorem onlyChanges_trans {ps : List Part} {s t u : State} (h : OnlyChanges ps s t) (k : OnlyChanges ps t u) : OnlyChanges ps s u :=
  ⟨k.1.trans h.1, fun p hp => by
    have a := h.2 p hp; have b := k.2 p hp
    cases p <;> exact b.trans a⟩

end Sys2Proof.Machine
end

