-- ==== Sys2Proof/Laws/Base.lean ====
section
/-! SUPPORT. Laws/Base.lean: what each shared operation can do: the parts it leaves alone, and what it leaves behind. -/
namespace Sys2Proof.Machine

/-! ## raiseMsg -/

@[simp] theorem raiseMsg_glb (c : Ctl) (s k a i x : Nat) (b : Bool) : (raiseMsg c s k a i x b).glb = c.glb := by
  unfold raiseMsg; split <;> rfl
@[simp] theorem raiseMsg_img (c : Ctl) (s k a i x : Nat) (b : Bool) : (raiseMsg c s k a i x b).img = c.img := by
  unfold raiseMsg; split <;> rfl
@[simp] theorem raiseMsg_dimm (c : Ctl) (s k a i x : Nat) (b : Bool) : (raiseMsg c s k a i x b).dimm = c.dimm := by
  unfold raiseMsg; split <;> rfl
@[simp] theorem raiseMsg_rtc (c : Ctl) (s k a i x : Nat) (b : Bool) : (raiseMsg c s k a i x b).rtc = c.rtc := by
  unfold raiseMsg; split <;> rfl
@[simp] theorem raiseMsg_alc (c : Ctl) (s k a i x : Nat) (b : Bool) : (raiseMsg c s k a i x b).alc = c.alc := by
  unfold raiseMsg; split <;> rfl
@[simp] theorem raiseMsg_clk (c : Ctl) (s k a i x : Nat) (b : Bool) : (raiseMsg c s k a i x b).clk = c.clk := by
  unfold raiseMsg; split <;> rfl
@[simp] theorem raiseMsg_rst (c : Ctl) (s k a i x : Nat) (b : Bool) : (raiseMsg c s k a i x b).rst = c.rst := by
  unfold raiseMsg; split <;> rfl
@[simp] theorem raiseMsg_boot (c : Ctl) (s k a i x : Nat) (b : Bool) : (raiseMsg c s k a i x b).boot = c.boot := by
  unfold raiseMsg; split <;> rfl
@[simp] theorem raiseMsg_seq (c : Ctl) (s k a i x : Nat) (b : Bool) : (raiseMsg c s k a i x b).seq = c.seq := by
  unfold raiseMsg; split <;> rfl
@[simp] theorem raiseMsg_pwrImg (c : Ctl) (s k a i x : Nat) (b : Bool) : (raiseMsg c s k a i x b).pwrImg = c.pwrImg := by
  unfold raiseMsg; split <;> rfl
@[simp] theorem raiseMsg_pf (c : Ctl) (s k a i x : Nat) (b : Bool) : (raiseMsg c s k a i x b).pf = c.pf := by
  unfold raiseMsg; split <;> rfl
@[simp] theorem raiseMsg_hold (c : Ctl) (s k a i x : Nat) (b : Bool) : (raiseMsg c s k a i x b).hold = c.hold := by
  unfold raiseMsg; split <;> rfl
@[simp] theorem raiseMsg_sns (c : Ctl) (s k a i x : Nat) (b : Bool) : (raiseMsg c s k a i x b).sns = c.sns := by
  unfold raiseMsg; split <;> rfl
@[simp] theorem raiseMsg_budget (c : Ctl) (s k a i x : Nat) (b : Bool) : (raiseMsg c s k a i x b).budget = c.budget := by
  unfold raiseMsg; split <;> rfl
@[simp] theorem raiseMsg_mgmt (c : Ctl) (s k a i x : Nat) (b : Bool) : (raiseMsg c s k a i x b).mgmt = c.mgmt := by
  unfold raiseMsg; split <;> rfl
@[simp] theorem raiseMsg_heads (c : Ctl) (s k a i x : Nat) (b : Bool) : (raiseMsg c s k a i x b).heads = c.heads := by
  unfold raiseMsg; split <;> rfl
@[simp] theorem raiseMsg_lds (c : Ctl) (s k a i x : Nat) (b : Bool) : (raiseMsg c s k a i x b).lds = c.lds := by
  unfold raiseMsg; split <;> rfl
@[simp] theorem raiseMsg_halls (c : Ctl) (s k a i x : Nat) (b : Bool) : (raiseMsg c s k a i x b).halls = c.halls := by
  unfold raiseMsg; split <;> rfl
@[simp] theorem raiseMsg_snoops (c : Ctl) (s k a i x : Nat) (b : Bool) : (raiseMsg c s k a i x b).snoops = c.snoops := by
  unfold raiseMsg; split <;> rfl
@[simp] theorem raiseMsg_releases (c : Ctl) (s k a i x : Nat) (b : Bool) : (raiseMsg c s k a i x b).releases = c.releases := by
  unfold raiseMsg; split <;> rfl
@[simp] theorem raiseMsg_tenants (c : Ctl) (s k a i x : Nat) (b : Bool) : (raiseMsg c s k a i x b).tenants = c.tenants := by
  unfold raiseMsg; split <;> rfl
@[simp] theorem raiseMsg_gals (c : Ctl) (s k a i x : Nat) (b : Bool) : (raiseMsg c s k a i x b).gals = c.gals := by
  unfold raiseMsg; split <;> rfl
@[simp] theorem raiseMsg_dchs (c : Ctl) (s k a i x : Nat) (b : Bool) : (raiseMsg c s k a i x b).dchs = c.dchs := by
  unfold raiseMsg; split <;> rfl
@[simp] theorem raiseMsg_reqs (c : Ctl) (s k a i x : Nat) (b : Bool) : (raiseMsg c s k a i x b).reqs = c.reqs := by
  unfold raiseMsg; split <;> rfl
@[simp] theorem raiseMsg_nextReq (c : Ctl) (s k a i x : Nat) (b : Bool) : (raiseMsg c s k a i x b).nextReq = c.nextReq := by
  unfold raiseMsg; split <;> rfl
@[simp] theorem raiseMsg_twin (c : Ctl) (s k a i x : Nat) (b : Bool) : (raiseMsg c s k a i x b).twin = c.twin := by
  unfold raiseMsg; split <;> rfl
@[simp] theorem raiseMsg_pair (c : Ctl) (s k a i x : Nat) (b : Bool) : (raiseMsg c s k a i x b).pair = c.pair := by
  unfold raiseMsg; split <;> rfl
@[simp] theorem raiseMsg_svr (c : Ctl) (s k a i x : Nat) (b : Bool) : (raiseMsg c s k a i x b).svr = c.svr := by
  unfold raiseMsg; split <;> rfl
@[simp] theorem raiseMsg_vlt (c : Ctl) (s k a i x : Nat) (b : Bool) : (raiseMsg c s k a i x b).vlt = c.vlt := by
  unfold raiseMsg; split <;> rfl
@[simp] theorem raiseMsg_rings (c : Ctl) (s k a i x : Nat) (b : Bool) : (raiseMsg c s k a i x b).rings = c.rings := by
  unfold raiseMsg; split <;> rfl
@[simp] theorem raiseMsg_flights (c : Ctl) (s k a i x : Nat) (b : Bool) : (raiseMsg c s k a i x b).flights = c.flights := by
  unfold raiseMsg; split <;> rfl
@[simp] theorem raiseMsg_fgen (c : Ctl) (s k a i x : Nat) (b : Bool) : (raiseMsg c s k a i x b).fgen = c.fgen := by
  unfold raiseMsg; split <;> rfl
@[simp] theorem raiseMsg_commitSeq (c : Ctl) (s k a i x : Nat) (b : Bool) : (raiseMsg c s k a i x b).commitSeq = c.commitSeq := by
  unfold raiseMsg; split <;> rfl
@[simp] theorem raiseMsg_flightCount (c : Ctl) (s k a i x : Nat) (b : Bool) : (raiseMsg c s k a i x b).flightCount = c.flightCount := by
  unfold raiseMsg; split <;> rfl
@[simp] theorem raiseMsg_flightAbandoned (c : Ctl) (s k a i x : Nat) (b : Bool) : (raiseMsg c s k a i x b).flightAbandoned = c.flightAbandoned := by
  unfold raiseMsg; split <;> rfl
@[simp] theorem raiseMsg_partnerApplied (c : Ctl) (s k a i x : Nat) (b : Bool) : (raiseMsg c s k a i x b).partnerApplied = c.partnerApplied := by
  unfold raiseMsg; split <;> rfl
@[simp] theorem raiseMsg_poisonOver (c : Ctl) (s k a i x : Nat) (b : Bool) : (raiseMsg c s k a i x b).poisonOver = c.poisonOver := by
  unfold raiseMsg; split <;> rfl
@[simp] theorem raiseMsg_throttling (c : Ctl) (s k a i x : Nat) (b : Bool) : (raiseMsg c s k a i x b).throttling = c.throttling := by
  unfold raiseMsg; split <;> rfl
@[simp] theorem raiseMsg_out (c : Ctl) (s k a i x : Nat) (b : Bool) : (raiseMsg c s k a i x b).out = c.out := by
  unfold raiseMsg; split <;> rfl
@[simp] theorem raiseMsg_free (c : Ctl) (s k a i x : Nat) (b : Bool) : (raiseMsg c s k a i x b).free = c.free := by
  unfold raiseMsg; split <;> rfl

/-! ## raiseAt -/

@[simp] theorem raiseAt_glb (c : Ctl) (s k a i x : Nat) : (raiseAt c s k a i x).glb = c.glb := by
  simp [raiseAt]
@[simp] theorem raiseAt_img (c : Ctl) (s k a i x : Nat) : (raiseAt c s k a i x).img = c.img := by
  simp [raiseAt]
@[simp] theorem raiseAt_dimm (c : Ctl) (s k a i x : Nat) : (raiseAt c s k a i x).dimm = c.dimm := by
  simp [raiseAt]
@[simp] theorem raiseAt_rtc (c : Ctl) (s k a i x : Nat) : (raiseAt c s k a i x).rtc = c.rtc := by
  simp [raiseAt]
@[simp] theorem raiseAt_alc (c : Ctl) (s k a i x : Nat) : (raiseAt c s k a i x).alc = c.alc := by
  simp [raiseAt]
@[simp] theorem raiseAt_clk (c : Ctl) (s k a i x : Nat) : (raiseAt c s k a i x).clk = c.clk := by
  simp [raiseAt]
@[simp] theorem raiseAt_rst (c : Ctl) (s k a i x : Nat) : (raiseAt c s k a i x).rst = c.rst := by
  simp [raiseAt]
@[simp] theorem raiseAt_boot (c : Ctl) (s k a i x : Nat) : (raiseAt c s k a i x).boot = c.boot := by
  simp [raiseAt]
@[simp] theorem raiseAt_seq (c : Ctl) (s k a i x : Nat) : (raiseAt c s k a i x).seq = c.seq := by
  simp [raiseAt]
@[simp] theorem raiseAt_pwrImg (c : Ctl) (s k a i x : Nat) : (raiseAt c s k a i x).pwrImg = c.pwrImg := by
  simp [raiseAt]
@[simp] theorem raiseAt_pf (c : Ctl) (s k a i x : Nat) : (raiseAt c s k a i x).pf = c.pf := by
  simp [raiseAt]
@[simp] theorem raiseAt_hold (c : Ctl) (s k a i x : Nat) : (raiseAt c s k a i x).hold = c.hold := by
  simp [raiseAt]
@[simp] theorem raiseAt_sns (c : Ctl) (s k a i x : Nat) : (raiseAt c s k a i x).sns = c.sns := by
  simp [raiseAt]
@[simp] theorem raiseAt_budget (c : Ctl) (s k a i x : Nat) : (raiseAt c s k a i x).budget = c.budget := by
  simp [raiseAt]
@[simp] theorem raiseAt_mgmt (c : Ctl) (s k a i x : Nat) : (raiseAt c s k a i x).mgmt = c.mgmt := by
  simp [raiseAt]
@[simp] theorem raiseAt_heads (c : Ctl) (s k a i x : Nat) : (raiseAt c s k a i x).heads = c.heads := by
  simp [raiseAt]
@[simp] theorem raiseAt_lds (c : Ctl) (s k a i x : Nat) : (raiseAt c s k a i x).lds = c.lds := by
  simp [raiseAt]
@[simp] theorem raiseAt_halls (c : Ctl) (s k a i x : Nat) : (raiseAt c s k a i x).halls = c.halls := by
  simp [raiseAt]
@[simp] theorem raiseAt_snoops (c : Ctl) (s k a i x : Nat) : (raiseAt c s k a i x).snoops = c.snoops := by
  simp [raiseAt]
@[simp] theorem raiseAt_releases (c : Ctl) (s k a i x : Nat) : (raiseAt c s k a i x).releases = c.releases := by
  simp [raiseAt]
@[simp] theorem raiseAt_tenants (c : Ctl) (s k a i x : Nat) : (raiseAt c s k a i x).tenants = c.tenants := by
  simp [raiseAt]
@[simp] theorem raiseAt_gals (c : Ctl) (s k a i x : Nat) : (raiseAt c s k a i x).gals = c.gals := by
  simp [raiseAt]
@[simp] theorem raiseAt_dchs (c : Ctl) (s k a i x : Nat) : (raiseAt c s k a i x).dchs = c.dchs := by
  simp [raiseAt]
@[simp] theorem raiseAt_reqs (c : Ctl) (s k a i x : Nat) : (raiseAt c s k a i x).reqs = c.reqs := by
  simp [raiseAt]
@[simp] theorem raiseAt_nextReq (c : Ctl) (s k a i x : Nat) : (raiseAt c s k a i x).nextReq = c.nextReq := by
  simp [raiseAt]
@[simp] theorem raiseAt_twin (c : Ctl) (s k a i x : Nat) : (raiseAt c s k a i x).twin = c.twin := by
  simp [raiseAt]
@[simp] theorem raiseAt_pair (c : Ctl) (s k a i x : Nat) : (raiseAt c s k a i x).pair = c.pair := by
  simp [raiseAt]
@[simp] theorem raiseAt_svr (c : Ctl) (s k a i x : Nat) : (raiseAt c s k a i x).svr = c.svr := by
  simp [raiseAt]
@[simp] theorem raiseAt_vlt (c : Ctl) (s k a i x : Nat) : (raiseAt c s k a i x).vlt = c.vlt := by
  simp [raiseAt]
@[simp] theorem raiseAt_rings (c : Ctl) (s k a i x : Nat) : (raiseAt c s k a i x).rings = c.rings := by
  simp [raiseAt]
@[simp] theorem raiseAt_flights (c : Ctl) (s k a i x : Nat) : (raiseAt c s k a i x).flights = c.flights := by
  simp [raiseAt]
@[simp] theorem raiseAt_fgen (c : Ctl) (s k a i x : Nat) : (raiseAt c s k a i x).fgen = c.fgen := by
  simp [raiseAt]
@[simp] theorem raiseAt_commitSeq (c : Ctl) (s k a i x : Nat) : (raiseAt c s k a i x).commitSeq = c.commitSeq := by
  simp [raiseAt]
@[simp] theorem raiseAt_flightCount (c : Ctl) (s k a i x : Nat) : (raiseAt c s k a i x).flightCount = c.flightCount := by
  simp [raiseAt]
@[simp] theorem raiseAt_flightAbandoned (c : Ctl) (s k a i x : Nat) : (raiseAt c s k a i x).flightAbandoned = c.flightAbandoned := by
  simp [raiseAt]
@[simp] theorem raiseAt_partnerApplied (c : Ctl) (s k a i x : Nat) : (raiseAt c s k a i x).partnerApplied = c.partnerApplied := by
  simp [raiseAt]
@[simp] theorem raiseAt_poisonOver (c : Ctl) (s k a i x : Nat) : (raiseAt c s k a i x).poisonOver = c.poisonOver := by
  simp [raiseAt]
@[simp] theorem raiseAt_throttling (c : Ctl) (s k a i x : Nat) : (raiseAt c s k a i x).throttling = c.throttling := by
  simp [raiseAt]
@[simp] theorem raiseAt_out (c : Ctl) (s k a i x : Nat) : (raiseAt c s k a i x).out = c.out := by
  simp [raiseAt]
@[simp] theorem raiseAt_free (c : Ctl) (s k a i x : Nat) : (raiseAt c s k a i x).free = c.free := by
  simp [raiseAt]

/-! ## raiseF -/

@[simp] theorem raiseF_glb (c : Ctl) (s k : Nat) : (raiseF c s k).glb = c.glb := by
  simp [raiseF]
@[simp] theorem raiseF_img (c : Ctl) (s k : Nat) : (raiseF c s k).img = c.img := by
  simp [raiseF]
@[simp] theorem raiseF_dimm (c : Ctl) (s k : Nat) : (raiseF c s k).dimm = c.dimm := by
  simp [raiseF]
@[simp] theorem raiseF_rtc (c : Ctl) (s k : Nat) : (raiseF c s k).rtc = c.rtc := by
  simp [raiseF]
@[simp] theorem raiseF_alc (c : Ctl) (s k : Nat) : (raiseF c s k).alc = c.alc := by
  simp [raiseF]
@[simp] theorem raiseF_clk (c : Ctl) (s k : Nat) : (raiseF c s k).clk = c.clk := by
  simp [raiseF]
@[simp] theorem raiseF_rst (c : Ctl) (s k : Nat) : (raiseF c s k).rst = c.rst := by
  simp [raiseF]
@[simp] theorem raiseF_boot (c : Ctl) (s k : Nat) : (raiseF c s k).boot = c.boot := by
  simp [raiseF]
@[simp] theorem raiseF_seq (c : Ctl) (s k : Nat) : (raiseF c s k).seq = c.seq := by
  simp [raiseF]
@[simp] theorem raiseF_pwrImg (c : Ctl) (s k : Nat) : (raiseF c s k).pwrImg = c.pwrImg := by
  simp [raiseF]
@[simp] theorem raiseF_pf (c : Ctl) (s k : Nat) : (raiseF c s k).pf = c.pf := by
  simp [raiseF]
@[simp] theorem raiseF_hold (c : Ctl) (s k : Nat) : (raiseF c s k).hold = c.hold := by
  simp [raiseF]
@[simp] theorem raiseF_sns (c : Ctl) (s k : Nat) : (raiseF c s k).sns = c.sns := by
  simp [raiseF]
@[simp] theorem raiseF_budget (c : Ctl) (s k : Nat) : (raiseF c s k).budget = c.budget := by
  simp [raiseF]
@[simp] theorem raiseF_mgmt (c : Ctl) (s k : Nat) : (raiseF c s k).mgmt = c.mgmt := by
  simp [raiseF]
@[simp] theorem raiseF_heads (c : Ctl) (s k : Nat) : (raiseF c s k).heads = c.heads := by
  simp [raiseF]
@[simp] theorem raiseF_lds (c : Ctl) (s k : Nat) : (raiseF c s k).lds = c.lds := by
  simp [raiseF]
@[simp] theorem raiseF_halls (c : Ctl) (s k : Nat) : (raiseF c s k).halls = c.halls := by
  simp [raiseF]
@[simp] theorem raiseF_snoops (c : Ctl) (s k : Nat) : (raiseF c s k).snoops = c.snoops := by
  simp [raiseF]
@[simp] theorem raiseF_releases (c : Ctl) (s k : Nat) : (raiseF c s k).releases = c.releases := by
  simp [raiseF]
@[simp] theorem raiseF_tenants (c : Ctl) (s k : Nat) : (raiseF c s k).tenants = c.tenants := by
  simp [raiseF]
@[simp] theorem raiseF_gals (c : Ctl) (s k : Nat) : (raiseF c s k).gals = c.gals := by
  simp [raiseF]
@[simp] theorem raiseF_dchs (c : Ctl) (s k : Nat) : (raiseF c s k).dchs = c.dchs := by
  simp [raiseF]
@[simp] theorem raiseF_reqs (c : Ctl) (s k : Nat) : (raiseF c s k).reqs = c.reqs := by
  simp [raiseF]
@[simp] theorem raiseF_nextReq (c : Ctl) (s k : Nat) : (raiseF c s k).nextReq = c.nextReq := by
  simp [raiseF]
@[simp] theorem raiseF_twin (c : Ctl) (s k : Nat) : (raiseF c s k).twin = c.twin := by
  simp [raiseF]
@[simp] theorem raiseF_pair (c : Ctl) (s k : Nat) : (raiseF c s k).pair = c.pair := by
  simp [raiseF]
@[simp] theorem raiseF_svr (c : Ctl) (s k : Nat) : (raiseF c s k).svr = c.svr := by
  simp [raiseF]
@[simp] theorem raiseF_vlt (c : Ctl) (s k : Nat) : (raiseF c s k).vlt = c.vlt := by
  simp [raiseF]
@[simp] theorem raiseF_rings (c : Ctl) (s k : Nat) : (raiseF c s k).rings = c.rings := by
  simp [raiseF]
@[simp] theorem raiseF_flights (c : Ctl) (s k : Nat) : (raiseF c s k).flights = c.flights := by
  simp [raiseF]
@[simp] theorem raiseF_fgen (c : Ctl) (s k : Nat) : (raiseF c s k).fgen = c.fgen := by
  simp [raiseF]
@[simp] theorem raiseF_commitSeq (c : Ctl) (s k : Nat) : (raiseF c s k).commitSeq = c.commitSeq := by
  simp [raiseF]
@[simp] theorem raiseF_flightCount (c : Ctl) (s k : Nat) : (raiseF c s k).flightCount = c.flightCount := by
  simp [raiseF]
@[simp] theorem raiseF_flightAbandoned (c : Ctl) (s k : Nat) : (raiseF c s k).flightAbandoned = c.flightAbandoned := by
  simp [raiseF]
@[simp] theorem raiseF_partnerApplied (c : Ctl) (s k : Nat) : (raiseF c s k).partnerApplied = c.partnerApplied := by
  simp [raiseF]
@[simp] theorem raiseF_poisonOver (c : Ctl) (s k : Nat) : (raiseF c s k).poisonOver = c.poisonOver := by
  simp [raiseF]
@[simp] theorem raiseF_throttling (c : Ctl) (s k : Nat) : (raiseF c s k).throttling = c.throttling := by
  simp [raiseF]
@[simp] theorem raiseF_out (c : Ctl) (s k : Nat) : (raiseF c s k).out = c.out := by
  simp [raiseF]
@[simp] theorem raiseF_free (c : Ctl) (s k : Nat) : (raiseF c s k).free = c.free := by
  simp [raiseF]

/-! ## beginCond -/

@[simp] theorem beginCond_glb (c : Ctl) (s k a : Nat) : (beginCond c s k a).glb = c.glb := by
  unfold beginCond; split <;> simp
@[simp] theorem beginCond_img (c : Ctl) (s k a : Nat) : (beginCond c s k a).img = c.img := by
  unfold beginCond; split <;> simp
@[simp] theorem beginCond_dimm (c : Ctl) (s k a : Nat) : (beginCond c s k a).dimm = c.dimm := by
  unfold beginCond; split <;> simp
@[simp] theorem beginCond_rtc (c : Ctl) (s k a : Nat) : (beginCond c s k a).rtc = c.rtc := by
  unfold beginCond; split <;> simp
@[simp] theorem beginCond_alc (c : Ctl) (s k a : Nat) : (beginCond c s k a).alc = c.alc := by
  unfold beginCond; split <;> simp
@[simp] theorem beginCond_clk (c : Ctl) (s k a : Nat) : (beginCond c s k a).clk = c.clk := by
  unfold beginCond; split <;> simp
@[simp] theorem beginCond_rst (c : Ctl) (s k a : Nat) : (beginCond c s k a).rst = c.rst := by
  unfold beginCond; split <;> simp
@[simp] theorem beginCond_boot (c : Ctl) (s k a : Nat) : (beginCond c s k a).boot = c.boot := by
  unfold beginCond; split <;> simp
@[simp] theorem beginCond_seq (c : Ctl) (s k a : Nat) : (beginCond c s k a).seq = c.seq := by
  unfold beginCond; split <;> simp
@[simp] theorem beginCond_pwrImg (c : Ctl) (s k a : Nat) : (beginCond c s k a).pwrImg = c.pwrImg := by
  unfold beginCond; split <;> simp
@[simp] theorem beginCond_pf (c : Ctl) (s k a : Nat) : (beginCond c s k a).pf = c.pf := by
  unfold beginCond; split <;> simp
@[simp] theorem beginCond_hold (c : Ctl) (s k a : Nat) : (beginCond c s k a).hold = c.hold := by
  unfold beginCond; split <;> simp
@[simp] theorem beginCond_sns (c : Ctl) (s k a : Nat) : (beginCond c s k a).sns = c.sns := by
  unfold beginCond; split <;> simp
@[simp] theorem beginCond_budget (c : Ctl) (s k a : Nat) : (beginCond c s k a).budget = c.budget := by
  unfold beginCond; split <;> simp
@[simp] theorem beginCond_mgmt (c : Ctl) (s k a : Nat) : (beginCond c s k a).mgmt = c.mgmt := by
  unfold beginCond; split <;> simp
@[simp] theorem beginCond_heads (c : Ctl) (s k a : Nat) : (beginCond c s k a).heads = c.heads := by
  unfold beginCond; split <;> simp
@[simp] theorem beginCond_lds (c : Ctl) (s k a : Nat) : (beginCond c s k a).lds = c.lds := by
  unfold beginCond; split <;> simp
@[simp] theorem beginCond_halls (c : Ctl) (s k a : Nat) : (beginCond c s k a).halls = c.halls := by
  unfold beginCond; split <;> simp
@[simp] theorem beginCond_snoops (c : Ctl) (s k a : Nat) : (beginCond c s k a).snoops = c.snoops := by
  unfold beginCond; split <;> simp
@[simp] theorem beginCond_releases (c : Ctl) (s k a : Nat) : (beginCond c s k a).releases = c.releases := by
  unfold beginCond; split <;> simp
@[simp] theorem beginCond_tenants (c : Ctl) (s k a : Nat) : (beginCond c s k a).tenants = c.tenants := by
  unfold beginCond; split <;> simp
@[simp] theorem beginCond_gals (c : Ctl) (s k a : Nat) : (beginCond c s k a).gals = c.gals := by
  unfold beginCond; split <;> simp
@[simp] theorem beginCond_dchs (c : Ctl) (s k a : Nat) : (beginCond c s k a).dchs = c.dchs := by
  unfold beginCond; split <;> simp
@[simp] theorem beginCond_reqs (c : Ctl) (s k a : Nat) : (beginCond c s k a).reqs = c.reqs := by
  unfold beginCond; split <;> simp
@[simp] theorem beginCond_nextReq (c : Ctl) (s k a : Nat) : (beginCond c s k a).nextReq = c.nextReq := by
  unfold beginCond; split <;> simp
@[simp] theorem beginCond_twin (c : Ctl) (s k a : Nat) : (beginCond c s k a).twin = c.twin := by
  unfold beginCond; split <;> simp
@[simp] theorem beginCond_pair (c : Ctl) (s k a : Nat) : (beginCond c s k a).pair = c.pair := by
  unfold beginCond; split <;> simp
@[simp] theorem beginCond_svr (c : Ctl) (s k a : Nat) : (beginCond c s k a).svr = c.svr := by
  unfold beginCond; split <;> simp
@[simp] theorem beginCond_vlt (c : Ctl) (s k a : Nat) : (beginCond c s k a).vlt = c.vlt := by
  unfold beginCond; split <;> simp
@[simp] theorem beginCond_rings (c : Ctl) (s k a : Nat) : (beginCond c s k a).rings = c.rings := by
  unfold beginCond; split <;> simp
@[simp] theorem beginCond_flights (c : Ctl) (s k a : Nat) : (beginCond c s k a).flights = c.flights := by
  unfold beginCond; split <;> simp
@[simp] theorem beginCond_fgen (c : Ctl) (s k a : Nat) : (beginCond c s k a).fgen = c.fgen := by
  unfold beginCond; split <;> simp
@[simp] theorem beginCond_commitSeq (c : Ctl) (s k a : Nat) : (beginCond c s k a).commitSeq = c.commitSeq := by
  unfold beginCond; split <;> simp
@[simp] theorem beginCond_flightCount (c : Ctl) (s k a : Nat) : (beginCond c s k a).flightCount = c.flightCount := by
  unfold beginCond; split <;> simp
@[simp] theorem beginCond_flightAbandoned (c : Ctl) (s k a : Nat) : (beginCond c s k a).flightAbandoned = c.flightAbandoned := by
  unfold beginCond; split <;> simp
@[simp] theorem beginCond_partnerApplied (c : Ctl) (s k a : Nat) : (beginCond c s k a).partnerApplied = c.partnerApplied := by
  unfold beginCond; split <;> simp
@[simp] theorem beginCond_poisonOver (c : Ctl) (s k a : Nat) : (beginCond c s k a).poisonOver = c.poisonOver := by
  unfold beginCond; split <;> simp
@[simp] theorem beginCond_throttling (c : Ctl) (s k a : Nat) : (beginCond c s k a).throttling = c.throttling := by
  unfold beginCond; split <;> simp
@[simp] theorem beginCond_out (c : Ctl) (s k a : Nat) : (beginCond c s k a).out = c.out := by
  unfold beginCond; split <;> simp
@[simp] theorem beginCond_free (c : Ctl) (s k a : Nat) : (beginCond c s k a).free = c.free := by
  unfold beginCond; split <;> simp

/-! ## endCond -/

@[simp] theorem endCond_glb (c : Ctl) (s : Nat) : (endCond c s).glb = c.glb := by
  simp [endCond]
@[simp] theorem endCond_img (c : Ctl) (s : Nat) : (endCond c s).img = c.img := by
  simp [endCond]
@[simp] theorem endCond_dimm (c : Ctl) (s : Nat) : (endCond c s).dimm = c.dimm := by
  simp [endCond]
@[simp] theorem endCond_rtc (c : Ctl) (s : Nat) : (endCond c s).rtc = c.rtc := by
  simp [endCond]
@[simp] theorem endCond_alc (c : Ctl) (s : Nat) : (endCond c s).alc = c.alc := by
  simp [endCond]
@[simp] theorem endCond_clk (c : Ctl) (s : Nat) : (endCond c s).clk = c.clk := by
  simp [endCond]
@[simp] theorem endCond_rst (c : Ctl) (s : Nat) : (endCond c s).rst = c.rst := by
  simp [endCond]
@[simp] theorem endCond_boot (c : Ctl) (s : Nat) : (endCond c s).boot = c.boot := by
  simp [endCond]
@[simp] theorem endCond_seq (c : Ctl) (s : Nat) : (endCond c s).seq = c.seq := by
  simp [endCond]
@[simp] theorem endCond_pwrImg (c : Ctl) (s : Nat) : (endCond c s).pwrImg = c.pwrImg := by
  simp [endCond]
@[simp] theorem endCond_pf (c : Ctl) (s : Nat) : (endCond c s).pf = c.pf := by
  simp [endCond]
@[simp] theorem endCond_hold (c : Ctl) (s : Nat) : (endCond c s).hold = c.hold := by
  simp [endCond]
@[simp] theorem endCond_sns (c : Ctl) (s : Nat) : (endCond c s).sns = c.sns := by
  simp [endCond]
@[simp] theorem endCond_budget (c : Ctl) (s : Nat) : (endCond c s).budget = c.budget := by
  simp [endCond]
@[simp] theorem endCond_mgmt (c : Ctl) (s : Nat) : (endCond c s).mgmt = c.mgmt := by
  simp [endCond]
@[simp] theorem endCond_heads (c : Ctl) (s : Nat) : (endCond c s).heads = c.heads := by
  simp [endCond]
@[simp] theorem endCond_lds (c : Ctl) (s : Nat) : (endCond c s).lds = c.lds := by
  simp [endCond]
@[simp] theorem endCond_halls (c : Ctl) (s : Nat) : (endCond c s).halls = c.halls := by
  simp [endCond]
@[simp] theorem endCond_snoops (c : Ctl) (s : Nat) : (endCond c s).snoops = c.snoops := by
  simp [endCond]
@[simp] theorem endCond_releases (c : Ctl) (s : Nat) : (endCond c s).releases = c.releases := by
  simp [endCond]
@[simp] theorem endCond_tenants (c : Ctl) (s : Nat) : (endCond c s).tenants = c.tenants := by
  simp [endCond]
@[simp] theorem endCond_gals (c : Ctl) (s : Nat) : (endCond c s).gals = c.gals := by
  simp [endCond]
@[simp] theorem endCond_dchs (c : Ctl) (s : Nat) : (endCond c s).dchs = c.dchs := by
  simp [endCond]
@[simp] theorem endCond_reqs (c : Ctl) (s : Nat) : (endCond c s).reqs = c.reqs := by
  simp [endCond]
@[simp] theorem endCond_nextReq (c : Ctl) (s : Nat) : (endCond c s).nextReq = c.nextReq := by
  simp [endCond]
@[simp] theorem endCond_twin (c : Ctl) (s : Nat) : (endCond c s).twin = c.twin := by
  simp [endCond]
@[simp] theorem endCond_pair (c : Ctl) (s : Nat) : (endCond c s).pair = c.pair := by
  simp [endCond]
@[simp] theorem endCond_svr (c : Ctl) (s : Nat) : (endCond c s).svr = c.svr := by
  simp [endCond]
@[simp] theorem endCond_vlt (c : Ctl) (s : Nat) : (endCond c s).vlt = c.vlt := by
  simp [endCond]
@[simp] theorem endCond_rings (c : Ctl) (s : Nat) : (endCond c s).rings = c.rings := by
  simp [endCond]
@[simp] theorem endCond_flights (c : Ctl) (s : Nat) : (endCond c s).flights = c.flights := by
  simp [endCond]
@[simp] theorem endCond_fgen (c : Ctl) (s : Nat) : (endCond c s).fgen = c.fgen := by
  simp [endCond]
@[simp] theorem endCond_commitSeq (c : Ctl) (s : Nat) : (endCond c s).commitSeq = c.commitSeq := by
  simp [endCond]
@[simp] theorem endCond_flightCount (c : Ctl) (s : Nat) : (endCond c s).flightCount = c.flightCount := by
  simp [endCond]
@[simp] theorem endCond_flightAbandoned (c : Ctl) (s : Nat) : (endCond c s).flightAbandoned = c.flightAbandoned := by
  simp [endCond]
@[simp] theorem endCond_partnerApplied (c : Ctl) (s : Nat) : (endCond c s).partnerApplied = c.partnerApplied := by
  simp [endCond]
@[simp] theorem endCond_poisonOver (c : Ctl) (s : Nat) : (endCond c s).poisonOver = c.poisonOver := by
  simp [endCond]
@[simp] theorem endCond_throttling (c : Ctl) (s : Nat) : (endCond c s).throttling = c.throttling := by
  simp [endCond]
@[simp] theorem endCond_out (c : Ctl) (s : Nat) : (endCond c s).out = c.out := by
  simp [endCond]
@[simp] theorem endCond_free (c : Ctl) (s : Nat) : (endCond c s).free = c.free := by
  simp [endCond]

/-! ## setCond -/

@[simp] theorem setCond_glb (c : Ctl) (s k a : Nat) (b : Bool) : (setCond c s k a b).glb = c.glb := by
  unfold setCond; split <;> simp
@[simp] theorem setCond_img (c : Ctl) (s k a : Nat) (b : Bool) : (setCond c s k a b).img = c.img := by
  unfold setCond; split <;> simp
@[simp] theorem setCond_dimm (c : Ctl) (s k a : Nat) (b : Bool) : (setCond c s k a b).dimm = c.dimm := by
  unfold setCond; split <;> simp
@[simp] theorem setCond_rtc (c : Ctl) (s k a : Nat) (b : Bool) : (setCond c s k a b).rtc = c.rtc := by
  unfold setCond; split <;> simp
@[simp] theorem setCond_alc (c : Ctl) (s k a : Nat) (b : Bool) : (setCond c s k a b).alc = c.alc := by
  unfold setCond; split <;> simp
@[simp] theorem setCond_clk (c : Ctl) (s k a : Nat) (b : Bool) : (setCond c s k a b).clk = c.clk := by
  unfold setCond; split <;> simp
@[simp] theorem setCond_rst (c : Ctl) (s k a : Nat) (b : Bool) : (setCond c s k a b).rst = c.rst := by
  unfold setCond; split <;> simp
@[simp] theorem setCond_boot (c : Ctl) (s k a : Nat) (b : Bool) : (setCond c s k a b).boot = c.boot := by
  unfold setCond; split <;> simp
@[simp] theorem setCond_seq (c : Ctl) (s k a : Nat) (b : Bool) : (setCond c s k a b).seq = c.seq := by
  unfold setCond; split <;> simp
@[simp] theorem setCond_pwrImg (c : Ctl) (s k a : Nat) (b : Bool) : (setCond c s k a b).pwrImg = c.pwrImg := by
  unfold setCond; split <;> simp
@[simp] theorem setCond_pf (c : Ctl) (s k a : Nat) (b : Bool) : (setCond c s k a b).pf = c.pf := by
  unfold setCond; split <;> simp
@[simp] theorem setCond_hold (c : Ctl) (s k a : Nat) (b : Bool) : (setCond c s k a b).hold = c.hold := by
  unfold setCond; split <;> simp
@[simp] theorem setCond_sns (c : Ctl) (s k a : Nat) (b : Bool) : (setCond c s k a b).sns = c.sns := by
  unfold setCond; split <;> simp
@[simp] theorem setCond_budget (c : Ctl) (s k a : Nat) (b : Bool) : (setCond c s k a b).budget = c.budget := by
  unfold setCond; split <;> simp
@[simp] theorem setCond_mgmt (c : Ctl) (s k a : Nat) (b : Bool) : (setCond c s k a b).mgmt = c.mgmt := by
  unfold setCond; split <;> simp
@[simp] theorem setCond_heads (c : Ctl) (s k a : Nat) (b : Bool) : (setCond c s k a b).heads = c.heads := by
  unfold setCond; split <;> simp
@[simp] theorem setCond_lds (c : Ctl) (s k a : Nat) (b : Bool) : (setCond c s k a b).lds = c.lds := by
  unfold setCond; split <;> simp
@[simp] theorem setCond_halls (c : Ctl) (s k a : Nat) (b : Bool) : (setCond c s k a b).halls = c.halls := by
  unfold setCond; split <;> simp
@[simp] theorem setCond_snoops (c : Ctl) (s k a : Nat) (b : Bool) : (setCond c s k a b).snoops = c.snoops := by
  unfold setCond; split <;> simp
@[simp] theorem setCond_releases (c : Ctl) (s k a : Nat) (b : Bool) : (setCond c s k a b).releases = c.releases := by
  unfold setCond; split <;> simp
@[simp] theorem setCond_tenants (c : Ctl) (s k a : Nat) (b : Bool) : (setCond c s k a b).tenants = c.tenants := by
  unfold setCond; split <;> simp
@[simp] theorem setCond_gals (c : Ctl) (s k a : Nat) (b : Bool) : (setCond c s k a b).gals = c.gals := by
  unfold setCond; split <;> simp
@[simp] theorem setCond_dchs (c : Ctl) (s k a : Nat) (b : Bool) : (setCond c s k a b).dchs = c.dchs := by
  unfold setCond; split <;> simp
@[simp] theorem setCond_reqs (c : Ctl) (s k a : Nat) (b : Bool) : (setCond c s k a b).reqs = c.reqs := by
  unfold setCond; split <;> simp
@[simp] theorem setCond_nextReq (c : Ctl) (s k a : Nat) (b : Bool) : (setCond c s k a b).nextReq = c.nextReq := by
  unfold setCond; split <;> simp
@[simp] theorem setCond_twin (c : Ctl) (s k a : Nat) (b : Bool) : (setCond c s k a b).twin = c.twin := by
  unfold setCond; split <;> simp
@[simp] theorem setCond_pair (c : Ctl) (s k a : Nat) (b : Bool) : (setCond c s k a b).pair = c.pair := by
  unfold setCond; split <;> simp
@[simp] theorem setCond_svr (c : Ctl) (s k a : Nat) (b : Bool) : (setCond c s k a b).svr = c.svr := by
  unfold setCond; split <;> simp
@[simp] theorem setCond_vlt (c : Ctl) (s k a : Nat) (b : Bool) : (setCond c s k a b).vlt = c.vlt := by
  unfold setCond; split <;> simp
@[simp] theorem setCond_rings (c : Ctl) (s k a : Nat) (b : Bool) : (setCond c s k a b).rings = c.rings := by
  unfold setCond; split <;> simp
@[simp] theorem setCond_flights (c : Ctl) (s k a : Nat) (b : Bool) : (setCond c s k a b).flights = c.flights := by
  unfold setCond; split <;> simp
@[simp] theorem setCond_fgen (c : Ctl) (s k a : Nat) (b : Bool) : (setCond c s k a b).fgen = c.fgen := by
  unfold setCond; split <;> simp
@[simp] theorem setCond_commitSeq (c : Ctl) (s k a : Nat) (b : Bool) : (setCond c s k a b).commitSeq = c.commitSeq := by
  unfold setCond; split <;> simp
@[simp] theorem setCond_flightCount (c : Ctl) (s k a : Nat) (b : Bool) : (setCond c s k a b).flightCount = c.flightCount := by
  unfold setCond; split <;> simp
@[simp] theorem setCond_flightAbandoned (c : Ctl) (s k a : Nat) (b : Bool) : (setCond c s k a b).flightAbandoned = c.flightAbandoned := by
  unfold setCond; split <;> simp
@[simp] theorem setCond_partnerApplied (c : Ctl) (s k a : Nat) (b : Bool) : (setCond c s k a b).partnerApplied = c.partnerApplied := by
  unfold setCond; split <;> simp
@[simp] theorem setCond_poisonOver (c : Ctl) (s k a : Nat) (b : Bool) : (setCond c s k a b).poisonOver = c.poisonOver := by
  unfold setCond; split <;> simp
@[simp] theorem setCond_throttling (c : Ctl) (s k a : Nat) (b : Bool) : (setCond c s k a b).throttling = c.throttling := by
  unfold setCond; split <;> simp
@[simp] theorem setCond_out (c : Ctl) (s k a : Nat) (b : Bool) : (setCond c s k a b).out = c.out := by
  unfold setCond; split <;> simp
@[simp] theorem setCond_free (c : Ctl) (s k a : Nat) (b : Bool) : (setCond c s k a b).free = c.free := by
  unfold setCond; split <;> simp

/-! ## illegal -/

@[simp] theorem illegal_glb (c : Ctl) (ini : Nat) : (illegal c ini).glb = c.glb := by
  unfold illegal; (repeat' split) <;> rfl
@[simp] theorem illegal_img (c : Ctl) (ini : Nat) : (illegal c ini).img = c.img := by
  unfold illegal; (repeat' split) <;> rfl
@[simp] theorem illegal_dimm (c : Ctl) (ini : Nat) : (illegal c ini).dimm = c.dimm := by
  unfold illegal; (repeat' split) <;> rfl
@[simp] theorem illegal_fcu (c : Ctl) (ini : Nat) : (illegal c ini).fcu = c.fcu := by
  unfold illegal; (repeat' split) <;> rfl
@[simp] theorem illegal_rtc (c : Ctl) (ini : Nat) : (illegal c ini).rtc = c.rtc := by
  unfold illegal; (repeat' split) <;> rfl
@[simp] theorem illegal_alc (c : Ctl) (ini : Nat) : (illegal c ini).alc = c.alc := by
  unfold illegal; (repeat' split) <;> rfl
@[simp] theorem illegal_clk (c : Ctl) (ini : Nat) : (illegal c ini).clk = c.clk := by
  unfold illegal; (repeat' split) <;> rfl
@[simp] theorem illegal_rst (c : Ctl) (ini : Nat) : (illegal c ini).rst = c.rst := by
  unfold illegal; (repeat' split) <;> rfl
@[simp] theorem illegal_boot (c : Ctl) (ini : Nat) : (illegal c ini).boot = c.boot := by
  unfold illegal; (repeat' split) <;> rfl
@[simp] theorem illegal_seq (c : Ctl) (ini : Nat) : (illegal c ini).seq = c.seq := by
  unfold illegal; (repeat' split) <;> rfl
@[simp] theorem illegal_pwrImg (c : Ctl) (ini : Nat) : (illegal c ini).pwrImg = c.pwrImg := by
  unfold illegal; (repeat' split) <;> rfl
@[simp] theorem illegal_pf (c : Ctl) (ini : Nat) : (illegal c ini).pf = c.pf := by
  unfold illegal; (repeat' split) <;> rfl
@[simp] theorem illegal_hold (c : Ctl) (ini : Nat) : (illegal c ini).hold = c.hold := by
  unfold illegal; (repeat' split) <;> rfl
@[simp] theorem illegal_sns (c : Ctl) (ini : Nat) : (illegal c ini).sns = c.sns := by
  unfold illegal; (repeat' split) <;> rfl
@[simp] theorem illegal_budget (c : Ctl) (ini : Nat) : (illegal c ini).budget = c.budget := by
  unfold illegal; (repeat' split) <;> rfl
@[simp] theorem illegal_lds (c : Ctl) (ini : Nat) : (illegal c ini).lds = c.lds := by
  unfold illegal; (repeat' split) <;> rfl
@[simp] theorem illegal_halls (c : Ctl) (ini : Nat) : (illegal c ini).halls = c.halls := by
  unfold illegal; (repeat' split) <;> rfl
@[simp] theorem illegal_snoops (c : Ctl) (ini : Nat) : (illegal c ini).snoops = c.snoops := by
  unfold illegal; (repeat' split) <;> rfl
@[simp] theorem illegal_releases (c : Ctl) (ini : Nat) : (illegal c ini).releases = c.releases := by
  unfold illegal; (repeat' split) <;> rfl
@[simp] theorem illegal_tenants (c : Ctl) (ini : Nat) : (illegal c ini).tenants = c.tenants := by
  unfold illegal; (repeat' split) <;> rfl
@[simp] theorem illegal_gals (c : Ctl) (ini : Nat) : (illegal c ini).gals = c.gals := by
  unfold illegal; (repeat' split) <;> rfl
@[simp] theorem illegal_dchs (c : Ctl) (ini : Nat) : (illegal c ini).dchs = c.dchs := by
  unfold illegal; (repeat' split) <;> rfl
@[simp] theorem illegal_reqs (c : Ctl) (ini : Nat) : (illegal c ini).reqs = c.reqs := by
  unfold illegal; (repeat' split) <;> rfl
@[simp] theorem illegal_nextReq (c : Ctl) (ini : Nat) : (illegal c ini).nextReq = c.nextReq := by
  unfold illegal; (repeat' split) <;> rfl
@[simp] theorem illegal_twin (c : Ctl) (ini : Nat) : (illegal c ini).twin = c.twin := by
  unfold illegal; (repeat' split) <;> rfl
@[simp] theorem illegal_pair (c : Ctl) (ini : Nat) : (illegal c ini).pair = c.pair := by
  unfold illegal; (repeat' split) <;> rfl
@[simp] theorem illegal_svr (c : Ctl) (ini : Nat) : (illegal c ini).svr = c.svr := by
  unfold illegal; (repeat' split) <;> rfl
@[simp] theorem illegal_vlt (c : Ctl) (ini : Nat) : (illegal c ini).vlt = c.vlt := by
  unfold illegal; (repeat' split) <;> rfl
@[simp] theorem illegal_rings (c : Ctl) (ini : Nat) : (illegal c ini).rings = c.rings := by
  unfold illegal; (repeat' split) <;> rfl
@[simp] theorem illegal_flights (c : Ctl) (ini : Nat) : (illegal c ini).flights = c.flights := by
  unfold illegal; (repeat' split) <;> rfl
@[simp] theorem illegal_fgen (c : Ctl) (ini : Nat) : (illegal c ini).fgen = c.fgen := by
  unfold illegal; (repeat' split) <;> rfl
@[simp] theorem illegal_commitSeq (c : Ctl) (ini : Nat) : (illegal c ini).commitSeq = c.commitSeq := by
  unfold illegal; (repeat' split) <;> rfl
@[simp] theorem illegal_flightCount (c : Ctl) (ini : Nat) : (illegal c ini).flightCount = c.flightCount := by
  unfold illegal; (repeat' split) <;> rfl
@[simp] theorem illegal_flightAbandoned (c : Ctl) (ini : Nat) : (illegal c ini).flightAbandoned = c.flightAbandoned := by
  unfold illegal; (repeat' split) <;> rfl
@[simp] theorem illegal_partnerApplied (c : Ctl) (ini : Nat) : (illegal c ini).partnerApplied = c.partnerApplied := by
  unfold illegal; (repeat' split) <;> rfl
@[simp] theorem illegal_poisonOver (c : Ctl) (ini : Nat) : (illegal c ini).poisonOver = c.poisonOver := by
  unfold illegal; (repeat' split) <;> rfl
@[simp] theorem illegal_throttling (c : Ctl) (ini : Nat) : (illegal c ini).throttling = c.throttling := by
  unfold illegal; (repeat' split) <;> rfl
@[simp] theorem illegal_out (c : Ctl) (ini : Nat) : (illegal c ini).out = c.out := by
  unfold illegal; (repeat' split) <;> rfl
@[simp] theorem illegal_free (c : Ctl) (ini : Nat) : (illegal c ini).free = c.free := by
  unfold illegal; (repeat' split) <;> rfl

/-! ## emitUr -/

@[simp] theorem emitUr_glb (c : Ctl) (ini off : Nat) : (emitUr c ini off).glb = c.glb := by
  unfold emitUr; split <;> rfl
@[simp] theorem emitUr_img (c : Ctl) (ini off : Nat) : (emitUr c ini off).img = c.img := by
  unfold emitUr; split <;> rfl
@[simp] theorem emitUr_dimm (c : Ctl) (ini off : Nat) : (emitUr c ini off).dimm = c.dimm := by
  unfold emitUr; split <;> rfl
@[simp] theorem emitUr_fcu (c : Ctl) (ini off : Nat) : (emitUr c ini off).fcu = c.fcu := by
  unfold emitUr; split <;> rfl
@[simp] theorem emitUr_rtc (c : Ctl) (ini off : Nat) : (emitUr c ini off).rtc = c.rtc := by
  unfold emitUr; split <;> rfl
@[simp] theorem emitUr_alc (c : Ctl) (ini off : Nat) : (emitUr c ini off).alc = c.alc := by
  unfold emitUr; split <;> rfl
@[simp] theorem emitUr_clk (c : Ctl) (ini off : Nat) : (emitUr c ini off).clk = c.clk := by
  unfold emitUr; split <;> rfl
@[simp] theorem emitUr_rst (c : Ctl) (ini off : Nat) : (emitUr c ini off).rst = c.rst := by
  unfold emitUr; split <;> rfl
@[simp] theorem emitUr_boot (c : Ctl) (ini off : Nat) : (emitUr c ini off).boot = c.boot := by
  unfold emitUr; split <;> rfl
@[simp] theorem emitUr_seq (c : Ctl) (ini off : Nat) : (emitUr c ini off).seq = c.seq := by
  unfold emitUr; split <;> rfl
@[simp] theorem emitUr_pwrImg (c : Ctl) (ini off : Nat) : (emitUr c ini off).pwrImg = c.pwrImg := by
  unfold emitUr; split <;> rfl
@[simp] theorem emitUr_pf (c : Ctl) (ini off : Nat) : (emitUr c ini off).pf = c.pf := by
  unfold emitUr; split <;> rfl
@[simp] theorem emitUr_hold (c : Ctl) (ini off : Nat) : (emitUr c ini off).hold = c.hold := by
  unfold emitUr; split <;> rfl
@[simp] theorem emitUr_sns (c : Ctl) (ini off : Nat) : (emitUr c ini off).sns = c.sns := by
  unfold emitUr; split <;> rfl
@[simp] theorem emitUr_budget (c : Ctl) (ini off : Nat) : (emitUr c ini off).budget = c.budget := by
  unfold emitUr; split <;> rfl
@[simp] theorem emitUr_mgmt (c : Ctl) (ini off : Nat) : (emitUr c ini off).mgmt = c.mgmt := by
  unfold emitUr; split <;> rfl
@[simp] theorem emitUr_heads (c : Ctl) (ini off : Nat) : (emitUr c ini off).heads = c.heads := by
  unfold emitUr; split <;> rfl
@[simp] theorem emitUr_lds (c : Ctl) (ini off : Nat) : (emitUr c ini off).lds = c.lds := by
  unfold emitUr; split <;> rfl
@[simp] theorem emitUr_halls (c : Ctl) (ini off : Nat) : (emitUr c ini off).halls = c.halls := by
  unfold emitUr; split <;> rfl
@[simp] theorem emitUr_snoops (c : Ctl) (ini off : Nat) : (emitUr c ini off).snoops = c.snoops := by
  unfold emitUr; split <;> rfl
@[simp] theorem emitUr_releases (c : Ctl) (ini off : Nat) : (emitUr c ini off).releases = c.releases := by
  unfold emitUr; split <;> rfl
@[simp] theorem emitUr_tenants (c : Ctl) (ini off : Nat) : (emitUr c ini off).tenants = c.tenants := by
  unfold emitUr; split <;> rfl
@[simp] theorem emitUr_gals (c : Ctl) (ini off : Nat) : (emitUr c ini off).gals = c.gals := by
  unfold emitUr; split <;> rfl
@[simp] theorem emitUr_dchs (c : Ctl) (ini off : Nat) : (emitUr c ini off).dchs = c.dchs := by
  unfold emitUr; split <;> rfl
@[simp] theorem emitUr_reqs (c : Ctl) (ini off : Nat) : (emitUr c ini off).reqs = c.reqs := by
  unfold emitUr; split <;> rfl
@[simp] theorem emitUr_nextReq (c : Ctl) (ini off : Nat) : (emitUr c ini off).nextReq = c.nextReq := by
  unfold emitUr; split <;> rfl
@[simp] theorem emitUr_twin (c : Ctl) (ini off : Nat) : (emitUr c ini off).twin = c.twin := by
  unfold emitUr; split <;> rfl
@[simp] theorem emitUr_pair (c : Ctl) (ini off : Nat) : (emitUr c ini off).pair = c.pair := by
  unfold emitUr; split <;> rfl
@[simp] theorem emitUr_svr (c : Ctl) (ini off : Nat) : (emitUr c ini off).svr = c.svr := by
  unfold emitUr; split <;> rfl
@[simp] theorem emitUr_vlt (c : Ctl) (ini off : Nat) : (emitUr c ini off).vlt = c.vlt := by
  unfold emitUr; split <;> rfl
@[simp] theorem emitUr_rings (c : Ctl) (ini off : Nat) : (emitUr c ini off).rings = c.rings := by
  unfold emitUr; split <;> rfl
@[simp] theorem emitUr_flights (c : Ctl) (ini off : Nat) : (emitUr c ini off).flights = c.flights := by
  unfold emitUr; split <;> rfl
@[simp] theorem emitUr_fgen (c : Ctl) (ini off : Nat) : (emitUr c ini off).fgen = c.fgen := by
  unfold emitUr; split <;> rfl
@[simp] theorem emitUr_commitSeq (c : Ctl) (ini off : Nat) : (emitUr c ini off).commitSeq = c.commitSeq := by
  unfold emitUr; split <;> rfl
@[simp] theorem emitUr_flightCount (c : Ctl) (ini off : Nat) : (emitUr c ini off).flightCount = c.flightCount := by
  unfold emitUr; split <;> rfl
@[simp] theorem emitUr_flightAbandoned (c : Ctl) (ini off : Nat) : (emitUr c ini off).flightAbandoned = c.flightAbandoned := by
  unfold emitUr; split <;> rfl
@[simp] theorem emitUr_partnerApplied (c : Ctl) (ini off : Nat) : (emitUr c ini off).partnerApplied = c.partnerApplied := by
  unfold emitUr; split <;> rfl
@[simp] theorem emitUr_poisonOver (c : Ctl) (ini off : Nat) : (emitUr c ini off).poisonOver = c.poisonOver := by
  unfold emitUr; split <;> rfl
@[simp] theorem emitUr_throttling (c : Ctl) (ini off : Nat) : (emitUr c ini off).throttling = c.throttling := by
  unfold emitUr; split <;> rfl
@[simp] theorem emitUr_free (c : Ctl) (ini off : Nat) : (emitUr c ini off).free = c.free := by
  unfold emitUr; split <;> rfl

/-! ## reply -/

@[simp] theorem reply_glb (c : Ctl) (ini op code : Nat) (l : List Byte) : (reply c ini op code l).glb = c.glb := by
  unfold reply; dsimp only; split <;> rfl
@[simp] theorem reply_img (c : Ctl) (ini op code : Nat) (l : List Byte) : (reply c ini op code l).img = c.img := by
  unfold reply; dsimp only; split <;> rfl
@[simp] theorem reply_dimm (c : Ctl) (ini op code : Nat) (l : List Byte) : (reply c ini op code l).dimm = c.dimm := by
  unfold reply; dsimp only; split <;> rfl
@[simp] theorem reply_fcu (c : Ctl) (ini op code : Nat) (l : List Byte) : (reply c ini op code l).fcu = c.fcu := by
  unfold reply; dsimp only; split <;> rfl
@[simp] theorem reply_rtc (c : Ctl) (ini op code : Nat) (l : List Byte) : (reply c ini op code l).rtc = c.rtc := by
  unfold reply; dsimp only; split <;> rfl
@[simp] theorem reply_alc (c : Ctl) (ini op code : Nat) (l : List Byte) : (reply c ini op code l).alc = c.alc := by
  unfold reply; dsimp only; split <;> rfl
@[simp] theorem reply_clk (c : Ctl) (ini op code : Nat) (l : List Byte) : (reply c ini op code l).clk = c.clk := by
  unfold reply; dsimp only; split <;> rfl
@[simp] theorem reply_rst (c : Ctl) (ini op code : Nat) (l : List Byte) : (reply c ini op code l).rst = c.rst := by
  unfold reply; dsimp only; split <;> rfl
@[simp] theorem reply_boot (c : Ctl) (ini op code : Nat) (l : List Byte) : (reply c ini op code l).boot = c.boot := by
  unfold reply; dsimp only; split <;> rfl
@[simp] theorem reply_seq (c : Ctl) (ini op code : Nat) (l : List Byte) : (reply c ini op code l).seq = c.seq := by
  unfold reply; dsimp only; split <;> rfl
@[simp] theorem reply_pwrImg (c : Ctl) (ini op code : Nat) (l : List Byte) : (reply c ini op code l).pwrImg = c.pwrImg := by
  unfold reply; dsimp only; split <;> rfl
@[simp] theorem reply_pf (c : Ctl) (ini op code : Nat) (l : List Byte) : (reply c ini op code l).pf = c.pf := by
  unfold reply; dsimp only; split <;> rfl
@[simp] theorem reply_hold (c : Ctl) (ini op code : Nat) (l : List Byte) : (reply c ini op code l).hold = c.hold := by
  unfold reply; dsimp only; split <;> rfl
@[simp] theorem reply_sns (c : Ctl) (ini op code : Nat) (l : List Byte) : (reply c ini op code l).sns = c.sns := by
  unfold reply; dsimp only; split <;> rfl
@[simp] theorem reply_budget (c : Ctl) (ini op code : Nat) (l : List Byte) : (reply c ini op code l).budget = c.budget := by
  unfold reply; dsimp only; split <;> rfl
@[simp] theorem reply_mgmt (c : Ctl) (ini op code : Nat) (l : List Byte) : (reply c ini op code l).mgmt = c.mgmt := by
  unfold reply; dsimp only; split <;> rfl
@[simp] theorem reply_heads (c : Ctl) (ini op code : Nat) (l : List Byte) : (reply c ini op code l).heads = c.heads := by
  unfold reply; dsimp only; split <;> rfl
@[simp] theorem reply_lds (c : Ctl) (ini op code : Nat) (l : List Byte) : (reply c ini op code l).lds = c.lds := by
  unfold reply; dsimp only; split <;> rfl
@[simp] theorem reply_halls (c : Ctl) (ini op code : Nat) (l : List Byte) : (reply c ini op code l).halls = c.halls := by
  unfold reply; dsimp only; split <;> rfl
@[simp] theorem reply_snoops (c : Ctl) (ini op code : Nat) (l : List Byte) : (reply c ini op code l).snoops = c.snoops := by
  unfold reply; dsimp only; split <;> rfl
@[simp] theorem reply_releases (c : Ctl) (ini op code : Nat) (l : List Byte) : (reply c ini op code l).releases = c.releases := by
  unfold reply; dsimp only; split <;> rfl
@[simp] theorem reply_tenants (c : Ctl) (ini op code : Nat) (l : List Byte) : (reply c ini op code l).tenants = c.tenants := by
  unfold reply; dsimp only; split <;> rfl
@[simp] theorem reply_gals (c : Ctl) (ini op code : Nat) (l : List Byte) : (reply c ini op code l).gals = c.gals := by
  unfold reply; dsimp only; split <;> rfl
@[simp] theorem reply_dchs (c : Ctl) (ini op code : Nat) (l : List Byte) : (reply c ini op code l).dchs = c.dchs := by
  unfold reply; dsimp only; split <;> rfl
@[simp] theorem reply_reqs (c : Ctl) (ini op code : Nat) (l : List Byte) : (reply c ini op code l).reqs = c.reqs := by
  unfold reply; dsimp only; split <;> rfl
@[simp] theorem reply_nextReq (c : Ctl) (ini op code : Nat) (l : List Byte) : (reply c ini op code l).nextReq = c.nextReq := by
  unfold reply; dsimp only; split <;> rfl
@[simp] theorem reply_twin (c : Ctl) (ini op code : Nat) (l : List Byte) : (reply c ini op code l).twin = c.twin := by
  unfold reply; dsimp only; split <;> rfl
@[simp] theorem reply_pair (c : Ctl) (ini op code : Nat) (l : List Byte) : (reply c ini op code l).pair = c.pair := by
  unfold reply; dsimp only; split <;> rfl
@[simp] theorem reply_svr (c : Ctl) (ini op code : Nat) (l : List Byte) : (reply c ini op code l).svr = c.svr := by
  unfold reply; dsimp only; split <;> rfl
@[simp] theorem reply_vlt (c : Ctl) (ini op code : Nat) (l : List Byte) : (reply c ini op code l).vlt = c.vlt := by
  unfold reply; dsimp only; split <;> rfl
@[simp] theorem reply_rings (c : Ctl) (ini op code : Nat) (l : List Byte) : (reply c ini op code l).rings = c.rings := by
  unfold reply; dsimp only; split <;> rfl
@[simp] theorem reply_flights (c : Ctl) (ini op code : Nat) (l : List Byte) : (reply c ini op code l).flights = c.flights := by
  unfold reply; dsimp only; split <;> rfl
@[simp] theorem reply_fgen (c : Ctl) (ini op code : Nat) (l : List Byte) : (reply c ini op code l).fgen = c.fgen := by
  unfold reply; dsimp only; split <;> rfl
@[simp] theorem reply_commitSeq (c : Ctl) (ini op code : Nat) (l : List Byte) : (reply c ini op code l).commitSeq = c.commitSeq := by
  unfold reply; dsimp only; split <;> rfl
@[simp] theorem reply_flightCount (c : Ctl) (ini op code : Nat) (l : List Byte) : (reply c ini op code l).flightCount = c.flightCount := by
  unfold reply; dsimp only; split <;> rfl
@[simp] theorem reply_flightAbandoned (c : Ctl) (ini op code : Nat) (l : List Byte) : (reply c ini op code l).flightAbandoned = c.flightAbandoned := by
  unfold reply; dsimp only; split <;> rfl
@[simp] theorem reply_partnerApplied (c : Ctl) (ini op code : Nat) (l : List Byte) : (reply c ini op code l).partnerApplied = c.partnerApplied := by
  unfold reply; dsimp only; split <;> rfl
@[simp] theorem reply_poisonOver (c : Ctl) (ini op code : Nat) (l : List Byte) : (reply c ini op code l).poisonOver = c.poisonOver := by
  unfold reply; dsimp only; split <;> rfl
@[simp] theorem reply_throttling (c : Ctl) (ini op code : Nat) (l : List Byte) : (reply c ini op code l).throttling = c.throttling := by
  unfold reply; dsimp only; split <;> rfl
@[simp] theorem reply_free (c : Ctl) (ini op code : Nat) (l : List Byte) : (reply c ini op code l).free = c.free := by
  unfold reply; dsimp only; split <;> rfl

/-! ## violateOn -/

@[simp] theorem violateOn_glb (c : Ctl) (h i a x k l : Nat) : (violateOn c h i a x k l).glb = c.glb := by
  simp [violateOn]
@[simp] theorem violateOn_img (c : Ctl) (h i a x k l : Nat) : (violateOn c h i a x k l).img = c.img := by
  simp [violateOn]
@[simp] theorem violateOn_dimm (c : Ctl) (h i a x k l : Nat) : (violateOn c h i a x k l).dimm = c.dimm := by
  simp [violateOn]
@[simp] theorem violateOn_rtc (c : Ctl) (h i a x k l : Nat) : (violateOn c h i a x k l).rtc = c.rtc := by
  simp [violateOn]
@[simp] theorem violateOn_alc (c : Ctl) (h i a x k l : Nat) : (violateOn c h i a x k l).alc = c.alc := by
  simp [violateOn]
@[simp] theorem violateOn_clk (c : Ctl) (h i a x k l : Nat) : (violateOn c h i a x k l).clk = c.clk := by
  simp [violateOn]
@[simp] theorem violateOn_rst (c : Ctl) (h i a x k l : Nat) : (violateOn c h i a x k l).rst = c.rst := by
  simp [violateOn]
@[simp] theorem violateOn_boot (c : Ctl) (h i a x k l : Nat) : (violateOn c h i a x k l).boot = c.boot := by
  simp [violateOn]
@[simp] theorem violateOn_seq (c : Ctl) (h i a x k l : Nat) : (violateOn c h i a x k l).seq = c.seq := by
  simp [violateOn]
@[simp] theorem violateOn_pwrImg (c : Ctl) (h i a x k l : Nat) : (violateOn c h i a x k l).pwrImg = c.pwrImg := by
  simp [violateOn]
@[simp] theorem violateOn_pf (c : Ctl) (h i a x k l : Nat) : (violateOn c h i a x k l).pf = c.pf := by
  simp [violateOn]
@[simp] theorem violateOn_hold (c : Ctl) (h i a x k l : Nat) : (violateOn c h i a x k l).hold = c.hold := by
  simp [violateOn]
@[simp] theorem violateOn_sns (c : Ctl) (h i a x k l : Nat) : (violateOn c h i a x k l).sns = c.sns := by
  simp [violateOn]
@[simp] theorem violateOn_budget (c : Ctl) (h i a x k l : Nat) : (violateOn c h i a x k l).budget = c.budget := by
  simp [violateOn]
@[simp] theorem violateOn_mgmt (c : Ctl) (h i a x k l : Nat) : (violateOn c h i a x k l).mgmt = c.mgmt := by
  simp [violateOn]
@[simp] theorem violateOn_lds (c : Ctl) (h i a x k l : Nat) : (violateOn c h i a x k l).lds = c.lds := by
  simp [violateOn]
@[simp] theorem violateOn_halls (c : Ctl) (h i a x k l : Nat) : (violateOn c h i a x k l).halls = c.halls := by
  simp [violateOn]
@[simp] theorem violateOn_snoops (c : Ctl) (h i a x k l : Nat) : (violateOn c h i a x k l).snoops = c.snoops := by
  simp [violateOn]
@[simp] theorem violateOn_releases (c : Ctl) (h i a x k l : Nat) : (violateOn c h i a x k l).releases = c.releases := by
  simp [violateOn]
@[simp] theorem violateOn_tenants (c : Ctl) (h i a x k l : Nat) : (violateOn c h i a x k l).tenants = c.tenants := by
  simp [violateOn]
@[simp] theorem violateOn_gals (c : Ctl) (h i a x k l : Nat) : (violateOn c h i a x k l).gals = c.gals := by
  simp [violateOn]
@[simp] theorem violateOn_dchs (c : Ctl) (h i a x k l : Nat) : (violateOn c h i a x k l).dchs = c.dchs := by
  simp [violateOn]
@[simp] theorem violateOn_reqs (c : Ctl) (h i a x k l : Nat) : (violateOn c h i a x k l).reqs = c.reqs := by
  simp [violateOn]
@[simp] theorem violateOn_nextReq (c : Ctl) (h i a x k l : Nat) : (violateOn c h i a x k l).nextReq = c.nextReq := by
  simp [violateOn]
@[simp] theorem violateOn_twin (c : Ctl) (h i a x k l : Nat) : (violateOn c h i a x k l).twin = c.twin := by
  simp [violateOn]
@[simp] theorem violateOn_pair (c : Ctl) (h i a x k l : Nat) : (violateOn c h i a x k l).pair = c.pair := by
  simp [violateOn]
@[simp] theorem violateOn_svr (c : Ctl) (h i a x k l : Nat) : (violateOn c h i a x k l).svr = c.svr := by
  simp [violateOn]
@[simp] theorem violateOn_vlt (c : Ctl) (h i a x k l : Nat) : (violateOn c h i a x k l).vlt = c.vlt := by
  simp [violateOn]
@[simp] theorem violateOn_rings (c : Ctl) (h i a x k l : Nat) : (violateOn c h i a x k l).rings = c.rings := by
  simp [violateOn]
@[simp] theorem violateOn_flights (c : Ctl) (h i a x k l : Nat) : (violateOn c h i a x k l).flights = c.flights := by
  simp [violateOn]
@[simp] theorem violateOn_fgen (c : Ctl) (h i a x k l : Nat) : (violateOn c h i a x k l).fgen = c.fgen := by
  simp [violateOn]
@[simp] theorem violateOn_commitSeq (c : Ctl) (h i a x k l : Nat) : (violateOn c h i a x k l).commitSeq = c.commitSeq := by
  simp [violateOn]
@[simp] theorem violateOn_flightCount (c : Ctl) (h i a x k l : Nat) : (violateOn c h i a x k l).flightCount = c.flightCount := by
  simp [violateOn]
@[simp] theorem violateOn_flightAbandoned (c : Ctl) (h i a x k l : Nat) : (violateOn c h i a x k l).flightAbandoned = c.flightAbandoned := by
  simp [violateOn]
@[simp] theorem violateOn_partnerApplied (c : Ctl) (h i a x k l : Nat) : (violateOn c h i a x k l).partnerApplied = c.partnerApplied := by
  simp [violateOn]
@[simp] theorem violateOn_poisonOver (c : Ctl) (h i a x k l : Nat) : (violateOn c h i a x k l).poisonOver = c.poisonOver := by
  simp [violateOn]
@[simp] theorem violateOn_throttling (c : Ctl) (h i a x k l : Nat) : (violateOn c h i a x k l).throttling = c.throttling := by
  simp [violateOn]
@[simp] theorem violateOn_out (c : Ctl) (h i a x k l : Nat) : (violateOn c h i a x k l).out = c.out := by
  simp [violateOn]
@[simp] theorem violateOn_free (c : Ctl) (h i a x k l : Nat) : (violateOn c h i a x k l).free = c.free := by
  simp [violateOn]

/-! ## alcoveEntry -/

@[simp] theorem alcoveEntry_glb (c : Ctl) (e : LogEntry) (b : Bool) : (alcoveEntry c e b).glb = c.glb := by
  unfold alcoveEntry; split <;> rfl
@[simp] theorem alcoveEntry_img (c : Ctl) (e : LogEntry) (b : Bool) : (alcoveEntry c e b).img = c.img := by
  unfold alcoveEntry; split <;> rfl
@[simp] theorem alcoveEntry_dimm (c : Ctl) (e : LogEntry) (b : Bool) : (alcoveEntry c e b).dimm = c.dimm := by
  unfold alcoveEntry; split <;> rfl
@[simp] theorem alcoveEntry_rtc (c : Ctl) (e : LogEntry) (b : Bool) : (alcoveEntry c e b).rtc = c.rtc := by
  unfold alcoveEntry; split <;> rfl
@[simp] theorem alcoveEntry_clk (c : Ctl) (e : LogEntry) (b : Bool) : (alcoveEntry c e b).clk = c.clk := by
  unfold alcoveEntry; split <;> rfl
@[simp] theorem alcoveEntry_rst (c : Ctl) (e : LogEntry) (b : Bool) : (alcoveEntry c e b).rst = c.rst := by
  unfold alcoveEntry; split <;> rfl
@[simp] theorem alcoveEntry_boot (c : Ctl) (e : LogEntry) (b : Bool) : (alcoveEntry c e b).boot = c.boot := by
  unfold alcoveEntry; split <;> rfl
@[simp] theorem alcoveEntry_seq (c : Ctl) (e : LogEntry) (b : Bool) : (alcoveEntry c e b).seq = c.seq := by
  unfold alcoveEntry; split <;> rfl
@[simp] theorem alcoveEntry_pwrImg (c : Ctl) (e : LogEntry) (b : Bool) : (alcoveEntry c e b).pwrImg = c.pwrImg := by
  unfold alcoveEntry; split <;> rfl
@[simp] theorem alcoveEntry_pf (c : Ctl) (e : LogEntry) (b : Bool) : (alcoveEntry c e b).pf = c.pf := by
  unfold alcoveEntry; split <;> rfl
@[simp] theorem alcoveEntry_hold (c : Ctl) (e : LogEntry) (b : Bool) : (alcoveEntry c e b).hold = c.hold := by
  unfold alcoveEntry; split <;> rfl
@[simp] theorem alcoveEntry_sns (c : Ctl) (e : LogEntry) (b : Bool) : (alcoveEntry c e b).sns = c.sns := by
  unfold alcoveEntry; split <;> rfl
@[simp] theorem alcoveEntry_budget (c : Ctl) (e : LogEntry) (b : Bool) : (alcoveEntry c e b).budget = c.budget := by
  unfold alcoveEntry; split <;> rfl
@[simp] theorem alcoveEntry_mgmt (c : Ctl) (e : LogEntry) (b : Bool) : (alcoveEntry c e b).mgmt = c.mgmt := by
  unfold alcoveEntry; split <;> rfl
@[simp] theorem alcoveEntry_heads (c : Ctl) (e : LogEntry) (b : Bool) : (alcoveEntry c e b).heads = c.heads := by
  unfold alcoveEntry; split <;> rfl
@[simp] theorem alcoveEntry_lds (c : Ctl) (e : LogEntry) (b : Bool) : (alcoveEntry c e b).lds = c.lds := by
  unfold alcoveEntry; split <;> rfl
@[simp] theorem alcoveEntry_halls (c : Ctl) (e : LogEntry) (b : Bool) : (alcoveEntry c e b).halls = c.halls := by
  unfold alcoveEntry; split <;> rfl
@[simp] theorem alcoveEntry_snoops (c : Ctl) (e : LogEntry) (b : Bool) : (alcoveEntry c e b).snoops = c.snoops := by
  unfold alcoveEntry; split <;> rfl
@[simp] theorem alcoveEntry_releases (c : Ctl) (e : LogEntry) (b : Bool) : (alcoveEntry c e b).releases = c.releases := by
  unfold alcoveEntry; split <;> rfl
@[simp] theorem alcoveEntry_tenants (c : Ctl) (e : LogEntry) (b : Bool) : (alcoveEntry c e b).tenants = c.tenants := by
  unfold alcoveEntry; split <;> rfl
@[simp] theorem alcoveEntry_gals (c : Ctl) (e : LogEntry) (b : Bool) : (alcoveEntry c e b).gals = c.gals := by
  unfold alcoveEntry; split <;> rfl
@[simp] theorem alcoveEntry_dchs (c : Ctl) (e : LogEntry) (b : Bool) : (alcoveEntry c e b).dchs = c.dchs := by
  unfold alcoveEntry; split <;> rfl
@[simp] theorem alcoveEntry_reqs (c : Ctl) (e : LogEntry) (b : Bool) : (alcoveEntry c e b).reqs = c.reqs := by
  unfold alcoveEntry; split <;> rfl
@[simp] theorem alcoveEntry_nextReq (c : Ctl) (e : LogEntry) (b : Bool) : (alcoveEntry c e b).nextReq = c.nextReq := by
  unfold alcoveEntry; split <;> rfl
@[simp] theorem alcoveEntry_twin (c : Ctl) (e : LogEntry) (b : Bool) : (alcoveEntry c e b).twin = c.twin := by
  unfold alcoveEntry; split <;> rfl
@[simp] theorem alcoveEntry_pair (c : Ctl) (e : LogEntry) (b : Bool) : (alcoveEntry c e b).pair = c.pair := by
  unfold alcoveEntry; split <;> rfl
@[simp] theorem alcoveEntry_svr (c : Ctl) (e : LogEntry) (b : Bool) : (alcoveEntry c e b).svr = c.svr := by
  unfold alcoveEntry; split <;> rfl
@[simp] theorem alcoveEntry_vlt (c : Ctl) (e : LogEntry) (b : Bool) : (alcoveEntry c e b).vlt = c.vlt := by
  unfold alcoveEntry; split <;> rfl
@[simp] theorem alcoveEntry_rings (c : Ctl) (e : LogEntry) (b : Bool) : (alcoveEntry c e b).rings = c.rings := by
  unfold alcoveEntry; split <;> rfl
@[simp] theorem alcoveEntry_flights (c : Ctl) (e : LogEntry) (b : Bool) : (alcoveEntry c e b).flights = c.flights := by
  unfold alcoveEntry; split <;> rfl
@[simp] theorem alcoveEntry_fgen (c : Ctl) (e : LogEntry) (b : Bool) : (alcoveEntry c e b).fgen = c.fgen := by
  unfold alcoveEntry; split <;> rfl
@[simp] theorem alcoveEntry_commitSeq (c : Ctl) (e : LogEntry) (b : Bool) : (alcoveEntry c e b).commitSeq = c.commitSeq := by
  unfold alcoveEntry; split <;> rfl
@[simp] theorem alcoveEntry_flightCount (c : Ctl) (e : LogEntry) (b : Bool) : (alcoveEntry c e b).flightCount = c.flightCount := by
  unfold alcoveEntry; split <;> rfl
@[simp] theorem alcoveEntry_flightAbandoned (c : Ctl) (e : LogEntry) (b : Bool) : (alcoveEntry c e b).flightAbandoned = c.flightAbandoned := by
  unfold alcoveEntry; split <;> rfl
@[simp] theorem alcoveEntry_partnerApplied (c : Ctl) (e : LogEntry) (b : Bool) : (alcoveEntry c e b).partnerApplied = c.partnerApplied := by
  unfold alcoveEntry; split <;> rfl
@[simp] theorem alcoveEntry_poisonOver (c : Ctl) (e : LogEntry) (b : Bool) : (alcoveEntry c e b).poisonOver = c.poisonOver := by
  unfold alcoveEntry; split <;> rfl
@[simp] theorem alcoveEntry_throttling (c : Ctl) (e : LogEntry) (b : Bool) : (alcoveEntry c e b).throttling = c.throttling := by
  unfold alcoveEntry; split <;> rfl
@[simp] theorem alcoveEntry_out (c : Ctl) (e : LogEntry) (b : Bool) : (alcoveEntry c e b).out = c.out := by
  unfold alcoveEntry; split <;> rfl
@[simp] theorem alcoveEntry_free (c : Ctl) (e : LogEntry) (b : Bool) : (alcoveEntry c e b).free = c.free := by
  unfold alcoveEntry; split <;> rfl

/-! ## logAdd -/

@[simp] theorem logAdd_glb (c : Ctl) (e : LogEntry) (b : Bool) : (logAdd c e b).glb = c.glb := by
  unfold logAdd; split
  · rfl
  · dsimp only; split
    · exact alcoveEntry_glb _ _ _
    · rfl
@[simp] theorem logAdd_img (c : Ctl) (e : LogEntry) (b : Bool) : (logAdd c e b).img = c.img := by
  unfold logAdd; split
  · rfl
  · dsimp only; split
    · exact alcoveEntry_img _ _ _
    · rfl
@[simp] theorem logAdd_dimm (c : Ctl) (e : LogEntry) (b : Bool) : (logAdd c e b).dimm = c.dimm := by
  unfold logAdd; split
  · rfl
  · dsimp only; split
    · exact alcoveEntry_dimm _ _ _
    · rfl
@[simp] theorem logAdd_rtc (c : Ctl) (e : LogEntry) (b : Bool) : (logAdd c e b).rtc = c.rtc := by
  unfold logAdd; split
  · rfl
  · dsimp only; split
    · exact alcoveEntry_rtc _ _ _
    · rfl
@[simp] theorem logAdd_clk (c : Ctl) (e : LogEntry) (b : Bool) : (logAdd c e b).clk = c.clk := by
  unfold logAdd; split
  · rfl
  · dsimp only; split
    · exact alcoveEntry_clk _ _ _
    · rfl
@[simp] theorem logAdd_rst (c : Ctl) (e : LogEntry) (b : Bool) : (logAdd c e b).rst = c.rst := by
  unfold logAdd; split
  · rfl
  · dsimp only; split
    · exact alcoveEntry_rst _ _ _
    · rfl
@[simp] theorem logAdd_boot (c : Ctl) (e : LogEntry) (b : Bool) : (logAdd c e b).boot = c.boot := by
  unfold logAdd; split
  · rfl
  · dsimp only; split
    · exact alcoveEntry_boot _ _ _
    · rfl
@[simp] theorem logAdd_seq (c : Ctl) (e : LogEntry) (b : Bool) : (logAdd c e b).seq = c.seq := by
  unfold logAdd; split
  · rfl
  · dsimp only; split
    · exact alcoveEntry_seq _ _ _
    · rfl
@[simp] theorem logAdd_pwrImg (c : Ctl) (e : LogEntry) (b : Bool) : (logAdd c e b).pwrImg = c.pwrImg := by
  unfold logAdd; split
  · rfl
  · dsimp only; split
    · exact alcoveEntry_pwrImg _ _ _
    · rfl
@[simp] theorem logAdd_pf (c : Ctl) (e : LogEntry) (b : Bool) : (logAdd c e b).pf = c.pf := by
  unfold logAdd; split
  · rfl
  · dsimp only; split
    · exact alcoveEntry_pf _ _ _
    · rfl
@[simp] theorem logAdd_hold (c : Ctl) (e : LogEntry) (b : Bool) : (logAdd c e b).hold = c.hold := by
  unfold logAdd; split
  · rfl
  · dsimp only; split
    · exact alcoveEntry_hold _ _ _
    · rfl
@[simp] theorem logAdd_sns (c : Ctl) (e : LogEntry) (b : Bool) : (logAdd c e b).sns = c.sns := by
  unfold logAdd; split
  · rfl
  · dsimp only; split
    · exact alcoveEntry_sns _ _ _
    · rfl
@[simp] theorem logAdd_budget (c : Ctl) (e : LogEntry) (b : Bool) : (logAdd c e b).budget = c.budget := by
  unfold logAdd; split
  · rfl
  · dsimp only; split
    · exact alcoveEntry_budget _ _ _
    · rfl
@[simp] theorem logAdd_mgmt (c : Ctl) (e : LogEntry) (b : Bool) : (logAdd c e b).mgmt = c.mgmt := by
  unfold logAdd; split
  · rfl
  · dsimp only; split
    · exact alcoveEntry_mgmt _ _ _
    · rfl
@[simp] theorem logAdd_heads (c : Ctl) (e : LogEntry) (b : Bool) : (logAdd c e b).heads = c.heads := by
  unfold logAdd; split
  · rfl
  · dsimp only; split
    · exact alcoveEntry_heads _ _ _
    · rfl
@[simp] theorem logAdd_lds (c : Ctl) (e : LogEntry) (b : Bool) : (logAdd c e b).lds = c.lds := by
  unfold logAdd; split
  · rfl
  · dsimp only; split
    · exact alcoveEntry_lds _ _ _
    · rfl
@[simp] theorem logAdd_halls (c : Ctl) (e : LogEntry) (b : Bool) : (logAdd c e b).halls = c.halls := by
  unfold logAdd; split
  · rfl
  · dsimp only; split
    · exact alcoveEntry_halls _ _ _
    · rfl
@[simp] theorem logAdd_snoops (c : Ctl) (e : LogEntry) (b : Bool) : (logAdd c e b).snoops = c.snoops := by
  unfold logAdd; split
  · rfl
  · dsimp only; split
    · exact alcoveEntry_snoops _ _ _
    · rfl
@[simp] theorem logAdd_releases (c : Ctl) (e : LogEntry) (b : Bool) : (logAdd c e b).releases = c.releases := by
  unfold logAdd; split
  · rfl
  · dsimp only; split
    · exact alcoveEntry_releases _ _ _
    · rfl
@[simp] theorem logAdd_tenants (c : Ctl) (e : LogEntry) (b : Bool) : (logAdd c e b).tenants = c.tenants := by
  unfold logAdd; split
  · rfl
  · dsimp only; split
    · exact alcoveEntry_tenants _ _ _
    · rfl
@[simp] theorem logAdd_gals (c : Ctl) (e : LogEntry) (b : Bool) : (logAdd c e b).gals = c.gals := by
  unfold logAdd; split
  · rfl
  · dsimp only; split
    · exact alcoveEntry_gals _ _ _
    · rfl
@[simp] theorem logAdd_dchs (c : Ctl) (e : LogEntry) (b : Bool) : (logAdd c e b).dchs = c.dchs := by
  unfold logAdd; split
  · rfl
  · dsimp only; split
    · exact alcoveEntry_dchs _ _ _
    · rfl
@[simp] theorem logAdd_reqs (c : Ctl) (e : LogEntry) (b : Bool) : (logAdd c e b).reqs = c.reqs := by
  unfold logAdd; split
  · rfl
  · dsimp only; split
    · exact alcoveEntry_reqs _ _ _
    · rfl
@[simp] theorem logAdd_nextReq (c : Ctl) (e : LogEntry) (b : Bool) : (logAdd c e b).nextReq = c.nextReq := by
  unfold logAdd; split
  · rfl
  · dsimp only; split
    · exact alcoveEntry_nextReq _ _ _
    · rfl
@[simp] theorem logAdd_twin (c : Ctl) (e : LogEntry) (b : Bool) : (logAdd c e b).twin = c.twin := by
  unfold logAdd; split
  · rfl
  · dsimp only; split
    · exact alcoveEntry_twin _ _ _
    · rfl
@[simp] theorem logAdd_pair (c : Ctl) (e : LogEntry) (b : Bool) : (logAdd c e b).pair = c.pair := by
  unfold logAdd; split
  · rfl
  · dsimp only; split
    · exact alcoveEntry_pair _ _ _
    · rfl
@[simp] theorem logAdd_svr (c : Ctl) (e : LogEntry) (b : Bool) : (logAdd c e b).svr = c.svr := by
  unfold logAdd; split
  · rfl
  · dsimp only; split
    · exact alcoveEntry_svr _ _ _
    · rfl
@[simp] theorem logAdd_vlt (c : Ctl) (e : LogEntry) (b : Bool) : (logAdd c e b).vlt = c.vlt := by
  unfold logAdd; split
  · rfl
  · dsimp only; split
    · exact alcoveEntry_vlt _ _ _
    · rfl
@[simp] theorem logAdd_rings (c : Ctl) (e : LogEntry) (b : Bool) : (logAdd c e b).rings = c.rings := by
  unfold logAdd; split
  · rfl
  · dsimp only; split
    · exact alcoveEntry_rings _ _ _
    · rfl
@[simp] theorem logAdd_flights (c : Ctl) (e : LogEntry) (b : Bool) : (logAdd c e b).flights = c.flights := by
  unfold logAdd; split
  · rfl
  · dsimp only; split
    · exact alcoveEntry_flights _ _ _
    · rfl
@[simp] theorem logAdd_fgen (c : Ctl) (e : LogEntry) (b : Bool) : (logAdd c e b).fgen = c.fgen := by
  unfold logAdd; split
  · rfl
  · dsimp only; split
    · exact alcoveEntry_fgen _ _ _
    · rfl
@[simp] theorem logAdd_commitSeq (c : Ctl) (e : LogEntry) (b : Bool) : (logAdd c e b).commitSeq = c.commitSeq := by
  unfold logAdd; split
  · rfl
  · dsimp only; split
    · exact alcoveEntry_commitSeq _ _ _
    · rfl
@[simp] theorem logAdd_flightCount (c : Ctl) (e : LogEntry) (b : Bool) : (logAdd c e b).flightCount = c.flightCount := by
  unfold logAdd; split
  · rfl
  · dsimp only; split
    · exact alcoveEntry_flightCount _ _ _
    · rfl
@[simp] theorem logAdd_flightAbandoned (c : Ctl) (e : LogEntry) (b : Bool) : (logAdd c e b).flightAbandoned = c.flightAbandoned := by
  unfold logAdd; split
  · rfl
  · dsimp only; split
    · exact alcoveEntry_flightAbandoned _ _ _
    · rfl
@[simp] theorem logAdd_partnerApplied (c : Ctl) (e : LogEntry) (b : Bool) : (logAdd c e b).partnerApplied = c.partnerApplied := by
  unfold logAdd; split
  · rfl
  · dsimp only; split
    · exact alcoveEntry_partnerApplied _ _ _
    · rfl
@[simp] theorem logAdd_poisonOver (c : Ctl) (e : LogEntry) (b : Bool) : (logAdd c e b).poisonOver = c.poisonOver := by
  unfold logAdd; split
  · rfl
  · dsimp only; split
    · exact alcoveEntry_poisonOver _ _ _
    · rfl
@[simp] theorem logAdd_throttling (c : Ctl) (e : LogEntry) (b : Bool) : (logAdd c e b).throttling = c.throttling := by
  unfold logAdd; split
  · rfl
  · dsimp only; split
    · exact alcoveEntry_throttling _ _ _
    · rfl
@[simp] theorem logAdd_out (c : Ctl) (e : LogEntry) (b : Bool) : (logAdd c e b).out = c.out := by
  unfold logAdd; split
  · rfl
  · dsimp only; split
    · exact alcoveEntry_out _ _ _
    · rfl
@[simp] theorem logAdd_free (c : Ctl) (e : LogEntry) (b : Bool) : (logAdd c e b).free = c.free := by
  unfold logAdd; split
  · rfl
  · dsimp only; split
    · exact alcoveEntry_free _ _ _
    · rfl

/-! ## recordTransition -/

@[simp] theorem recordTransition_img (c : Ctl) (a b k i : Nat) : (recordTransition c a b k i).img = c.img := by
  unfold recordTransition; dsimp only; split <;> simp
@[simp] theorem recordTransition_dimm (c : Ctl) (a b k i : Nat) : (recordTransition c a b k i).dimm = c.dimm := by
  unfold recordTransition; dsimp only; split <;> simp
@[simp] theorem recordTransition_rtc (c : Ctl) (a b k i : Nat) : (recordTransition c a b k i).rtc = c.rtc := by
  unfold recordTransition; dsimp only; split <;> simp
@[simp] theorem recordTransition_clk (c : Ctl) (a b k i : Nat) : (recordTransition c a b k i).clk = c.clk := by
  unfold recordTransition; dsimp only; split <;> simp
@[simp] theorem recordTransition_rst (c : Ctl) (a b k i : Nat) : (recordTransition c a b k i).rst = c.rst := by
  unfold recordTransition; dsimp only; split <;> simp
@[simp] theorem recordTransition_boot (c : Ctl) (a b k i : Nat) : (recordTransition c a b k i).boot = c.boot := by
  unfold recordTransition; dsimp only; split <;> simp
@[simp] theorem recordTransition_seq (c : Ctl) (a b k i : Nat) : (recordTransition c a b k i).seq = c.seq := by
  unfold recordTransition; dsimp only; split <;> simp
@[simp] theorem recordTransition_pwrImg (c : Ctl) (a b k i : Nat) : (recordTransition c a b k i).pwrImg = c.pwrImg := by
  unfold recordTransition; dsimp only; split <;> simp
@[simp] theorem recordTransition_pf (c : Ctl) (a b k i : Nat) : (recordTransition c a b k i).pf = c.pf := by
  unfold recordTransition; dsimp only; split <;> simp
@[simp] theorem recordTransition_hold (c : Ctl) (a b k i : Nat) : (recordTransition c a b k i).hold = c.hold := by
  unfold recordTransition; dsimp only; split <;> simp
@[simp] theorem recordTransition_sns (c : Ctl) (a b k i : Nat) : (recordTransition c a b k i).sns = c.sns := by
  unfold recordTransition; dsimp only; split <;> simp
@[simp] theorem recordTransition_budget (c : Ctl) (a b k i : Nat) : (recordTransition c a b k i).budget = c.budget := by
  unfold recordTransition; dsimp only; split <;> simp
@[simp] theorem recordTransition_mgmt (c : Ctl) (a b k i : Nat) : (recordTransition c a b k i).mgmt = c.mgmt := by
  unfold recordTransition; dsimp only; split <;> simp
@[simp] theorem recordTransition_heads (c : Ctl) (a b k i : Nat) : (recordTransition c a b k i).heads = c.heads := by
  unfold recordTransition; dsimp only; split <;> simp
@[simp] theorem recordTransition_lds (c : Ctl) (a b k i : Nat) : (recordTransition c a b k i).lds = c.lds := by
  unfold recordTransition; dsimp only; split <;> simp
@[simp] theorem recordTransition_halls (c : Ctl) (a b k i : Nat) : (recordTransition c a b k i).halls = c.halls := by
  unfold recordTransition; dsimp only; split <;> simp
@[simp] theorem recordTransition_snoops (c : Ctl) (a b k i : Nat) : (recordTransition c a b k i).snoops = c.snoops := by
  unfold recordTransition; dsimp only; split <;> simp
@[simp] theorem recordTransition_releases (c : Ctl) (a b k i : Nat) : (recordTransition c a b k i).releases = c.releases := by
  unfold recordTransition; dsimp only; split <;> simp
@[simp] theorem recordTransition_tenants (c : Ctl) (a b k i : Nat) : (recordTransition c a b k i).tenants = c.tenants := by
  unfold recordTransition; dsimp only; split <;> simp
@[simp] theorem recordTransition_gals (c : Ctl) (a b k i : Nat) : (recordTransition c a b k i).gals = c.gals := by
  unfold recordTransition; dsimp only; split <;> simp
@[simp] theorem recordTransition_dchs (c : Ctl) (a b k i : Nat) : (recordTransition c a b k i).dchs = c.dchs := by
  unfold recordTransition; dsimp only; split <;> simp
@[simp] theorem recordTransition_reqs (c : Ctl) (a b k i : Nat) : (recordTransition c a b k i).reqs = c.reqs := by
  unfold recordTransition; dsimp only; split <;> simp
@[simp] theorem recordTransition_nextReq (c : Ctl) (a b k i : Nat) : (recordTransition c a b k i).nextReq = c.nextReq := by
  unfold recordTransition; dsimp only; split <;> simp
@[simp] theorem recordTransition_twin (c : Ctl) (a b k i : Nat) : (recordTransition c a b k i).twin = c.twin := by
  unfold recordTransition; dsimp only; split <;> simp
@[simp] theorem recordTransition_pair (c : Ctl) (a b k i : Nat) : (recordTransition c a b k i).pair = c.pair := by
  unfold recordTransition; dsimp only; split <;> simp
@[simp] theorem recordTransition_svr (c : Ctl) (a b k i : Nat) : (recordTransition c a b k i).svr = c.svr := by
  unfold recordTransition; dsimp only; split <;> simp
@[simp] theorem recordTransition_vlt (c : Ctl) (a b k i : Nat) : (recordTransition c a b k i).vlt = c.vlt := by
  unfold recordTransition; dsimp only; split <;> simp
@[simp] theorem recordTransition_rings (c : Ctl) (a b k i : Nat) : (recordTransition c a b k i).rings = c.rings := by
  unfold recordTransition; dsimp only; split <;> simp
@[simp] theorem recordTransition_flights (c : Ctl) (a b k i : Nat) : (recordTransition c a b k i).flights = c.flights := by
  unfold recordTransition; dsimp only; split <;> simp
@[simp] theorem recordTransition_fgen (c : Ctl) (a b k i : Nat) : (recordTransition c a b k i).fgen = c.fgen := by
  unfold recordTransition; dsimp only; split <;> simp
@[simp] theorem recordTransition_commitSeq (c : Ctl) (a b k i : Nat) : (recordTransition c a b k i).commitSeq = c.commitSeq := by
  unfold recordTransition; dsimp only; split <;> simp
@[simp] theorem recordTransition_flightCount (c : Ctl) (a b k i : Nat) : (recordTransition c a b k i).flightCount = c.flightCount := by
  unfold recordTransition; dsimp only; split <;> simp
@[simp] theorem recordTransition_flightAbandoned (c : Ctl) (a b k i : Nat) : (recordTransition c a b k i).flightAbandoned = c.flightAbandoned := by
  unfold recordTransition; dsimp only; split <;> simp
@[simp] theorem recordTransition_partnerApplied (c : Ctl) (a b k i : Nat) : (recordTransition c a b k i).partnerApplied = c.partnerApplied := by
  unfold recordTransition; dsimp only; split <;> simp
@[simp] theorem recordTransition_poisonOver (c : Ctl) (a b k i : Nat) : (recordTransition c a b k i).poisonOver = c.poisonOver := by
  unfold recordTransition; dsimp only; split <;> simp
@[simp] theorem recordTransition_throttling (c : Ctl) (a b k i : Nat) : (recordTransition c a b k i).throttling = c.throttling := by
  unfold recordTransition; dsimp only; split <;> simp
@[simp] theorem recordTransition_out (c : Ctl) (a b k i : Nat) : (recordTransition c a b k i).out = c.out := by
  unfold recordTransition; dsimp only; split <;> simp
@[simp] theorem recordTransition_free (c : Ctl) (a b k i : Nat) : (recordTransition c a b k i).free = c.free := by
  unfold recordTransition; dsimp only; split <;> simp

/-! ## transition -/

@[simp] theorem transition_img (c : Ctl) (m : Mode) (k i : Nat) : (transition c m k i).img = c.img := by
  simp [transition]
@[simp] theorem transition_dimm (c : Ctl) (m : Mode) (k i : Nat) : (transition c m k i).dimm = c.dimm := by
  simp [transition]
@[simp] theorem transition_rtc (c : Ctl) (m : Mode) (k i : Nat) : (transition c m k i).rtc = c.rtc := by
  simp [transition]
@[simp] theorem transition_clk (c : Ctl) (m : Mode) (k i : Nat) : (transition c m k i).clk = c.clk := by
  simp [transition]
@[simp] theorem transition_rst (c : Ctl) (m : Mode) (k i : Nat) : (transition c m k i).rst = c.rst := by
  simp [transition]
@[simp] theorem transition_boot (c : Ctl) (m : Mode) (k i : Nat) : (transition c m k i).boot = c.boot := by
  simp [transition]
@[simp] theorem transition_seq (c : Ctl) (m : Mode) (k i : Nat) : (transition c m k i).seq = c.seq := by
  simp [transition]
@[simp] theorem transition_pwrImg (c : Ctl) (m : Mode) (k i : Nat) : (transition c m k i).pwrImg = c.pwrImg := by
  simp [transition]
@[simp] theorem transition_pf (c : Ctl) (m : Mode) (k i : Nat) : (transition c m k i).pf = c.pf := by
  simp [transition]
@[simp] theorem transition_hold (c : Ctl) (m : Mode) (k i : Nat) : (transition c m k i).hold = c.hold := by
  simp [transition]
@[simp] theorem transition_sns (c : Ctl) (m : Mode) (k i : Nat) : (transition c m k i).sns = c.sns := by
  simp [transition]
@[simp] theorem transition_budget (c : Ctl) (m : Mode) (k i : Nat) : (transition c m k i).budget = c.budget := by
  simp [transition]
@[simp] theorem transition_mgmt (c : Ctl) (m : Mode) (k i : Nat) : (transition c m k i).mgmt = c.mgmt := by
  simp [transition]
@[simp] theorem transition_heads (c : Ctl) (m : Mode) (k i : Nat) : (transition c m k i).heads = c.heads := by
  simp [transition]
@[simp] theorem transition_lds (c : Ctl) (m : Mode) (k i : Nat) : (transition c m k i).lds = c.lds := by
  simp [transition]
@[simp] theorem transition_halls (c : Ctl) (m : Mode) (k i : Nat) : (transition c m k i).halls = c.halls := by
  simp [transition]
@[simp] theorem transition_snoops (c : Ctl) (m : Mode) (k i : Nat) : (transition c m k i).snoops = c.snoops := by
  simp [transition]
@[simp] theorem transition_releases (c : Ctl) (m : Mode) (k i : Nat) : (transition c m k i).releases = c.releases := by
  simp [transition]
@[simp] theorem transition_tenants (c : Ctl) (m : Mode) (k i : Nat) : (transition c m k i).tenants = c.tenants := by
  simp [transition]
@[simp] theorem transition_gals (c : Ctl) (m : Mode) (k i : Nat) : (transition c m k i).gals = c.gals := by
  simp [transition]
@[simp] theorem transition_dchs (c : Ctl) (m : Mode) (k i : Nat) : (transition c m k i).dchs = c.dchs := by
  simp [transition]
@[simp] theorem transition_reqs (c : Ctl) (m : Mode) (k i : Nat) : (transition c m k i).reqs = c.reqs := by
  simp [transition]
@[simp] theorem transition_nextReq (c : Ctl) (m : Mode) (k i : Nat) : (transition c m k i).nextReq = c.nextReq := by
  simp [transition]
@[simp] theorem transition_twin (c : Ctl) (m : Mode) (k i : Nat) : (transition c m k i).twin = c.twin := by
  simp [transition]
@[simp] theorem transition_pair (c : Ctl) (m : Mode) (k i : Nat) : (transition c m k i).pair = c.pair := by
  simp [transition]
@[simp] theorem transition_svr (c : Ctl) (m : Mode) (k i : Nat) : (transition c m k i).svr = c.svr := by
  simp [transition]
@[simp] theorem transition_vlt (c : Ctl) (m : Mode) (k i : Nat) : (transition c m k i).vlt = c.vlt := by
  simp [transition]
@[simp] theorem transition_rings (c : Ctl) (m : Mode) (k i : Nat) : (transition c m k i).rings = c.rings := by
  simp [transition]
@[simp] theorem transition_flights (c : Ctl) (m : Mode) (k i : Nat) : (transition c m k i).flights = c.flights := by
  simp [transition]
@[simp] theorem transition_fgen (c : Ctl) (m : Mode) (k i : Nat) : (transition c m k i).fgen = c.fgen := by
  simp [transition]
@[simp] theorem transition_commitSeq (c : Ctl) (m : Mode) (k i : Nat) : (transition c m k i).commitSeq = c.commitSeq := by
  simp [transition]
@[simp] theorem transition_flightCount (c : Ctl) (m : Mode) (k i : Nat) : (transition c m k i).flightCount = c.flightCount := by
  simp [transition]
@[simp] theorem transition_flightAbandoned (c : Ctl) (m : Mode) (k i : Nat) : (transition c m k i).flightAbandoned = c.flightAbandoned := by
  simp [transition]
@[simp] theorem transition_partnerApplied (c : Ctl) (m : Mode) (k i : Nat) : (transition c m k i).partnerApplied = c.partnerApplied := by
  simp [transition]
@[simp] theorem transition_poisonOver (c : Ctl) (m : Mode) (k i : Nat) : (transition c m k i).poisonOver = c.poisonOver := by
  simp [transition]
@[simp] theorem transition_throttling (c : Ctl) (m : Mode) (k i : Nat) : (transition c m k i).throttling = c.throttling := by
  simp [transition]
@[simp] theorem transition_out (c : Ctl) (m : Mode) (k i : Nat) : (transition c m k i).out = c.out := by
  simp [transition]
@[simp] theorem transition_free (c : Ctl) (m : Mode) (k i : Nat) : (transition c m k i).free = c.free := by
  simp [transition]

/-! ## cdcTimeout -/

@[simp] theorem cdcTimeout_glb (c : Ctl) (i a : Nat) : (cdcTimeout c i a).glb = c.glb := by
  simp [cdcTimeout]
@[simp] theorem cdcTimeout_img (c : Ctl) (i a : Nat) : (cdcTimeout c i a).img = c.img := by
  simp [cdcTimeout]
@[simp] theorem cdcTimeout_dimm (c : Ctl) (i a : Nat) : (cdcTimeout c i a).dimm = c.dimm := by
  simp [cdcTimeout]
@[simp] theorem cdcTimeout_rtc (c : Ctl) (i a : Nat) : (cdcTimeout c i a).rtc = c.rtc := by
  simp [cdcTimeout]
@[simp] theorem cdcTimeout_alc (c : Ctl) (i a : Nat) : (cdcTimeout c i a).alc = c.alc := by
  simp [cdcTimeout]
@[simp] theorem cdcTimeout_rst (c : Ctl) (i a : Nat) : (cdcTimeout c i a).rst = c.rst := by
  simp [cdcTimeout]
@[simp] theorem cdcTimeout_boot (c : Ctl) (i a : Nat) : (cdcTimeout c i a).boot = c.boot := by
  simp [cdcTimeout]
@[simp] theorem cdcTimeout_seq (c : Ctl) (i a : Nat) : (cdcTimeout c i a).seq = c.seq := by
  simp [cdcTimeout]
@[simp] theorem cdcTimeout_pwrImg (c : Ctl) (i a : Nat) : (cdcTimeout c i a).pwrImg = c.pwrImg := by
  simp [cdcTimeout]
@[simp] theorem cdcTimeout_pf (c : Ctl) (i a : Nat) : (cdcTimeout c i a).pf = c.pf := by
  simp [cdcTimeout]
@[simp] theorem cdcTimeout_hold (c : Ctl) (i a : Nat) : (cdcTimeout c i a).hold = c.hold := by
  simp [cdcTimeout]
@[simp] theorem cdcTimeout_sns (c : Ctl) (i a : Nat) : (cdcTimeout c i a).sns = c.sns := by
  simp [cdcTimeout]
@[simp] theorem cdcTimeout_budget (c : Ctl) (i a : Nat) : (cdcTimeout c i a).budget = c.budget := by
  simp [cdcTimeout]
@[simp] theorem cdcTimeout_mgmt (c : Ctl) (i a : Nat) : (cdcTimeout c i a).mgmt = c.mgmt := by
  simp [cdcTimeout]
@[simp] theorem cdcTimeout_heads (c : Ctl) (i a : Nat) : (cdcTimeout c i a).heads = c.heads := by
  simp [cdcTimeout]
@[simp] theorem cdcTimeout_lds (c : Ctl) (i a : Nat) : (cdcTimeout c i a).lds = c.lds := by
  simp [cdcTimeout]
@[simp] theorem cdcTimeout_halls (c : Ctl) (i a : Nat) : (cdcTimeout c i a).halls = c.halls := by
  simp [cdcTimeout]
@[simp] theorem cdcTimeout_snoops (c : Ctl) (i a : Nat) : (cdcTimeout c i a).snoops = c.snoops := by
  simp [cdcTimeout]
@[simp] theorem cdcTimeout_releases (c : Ctl) (i a : Nat) : (cdcTimeout c i a).releases = c.releases := by
  simp [cdcTimeout]
@[simp] theorem cdcTimeout_tenants (c : Ctl) (i a : Nat) : (cdcTimeout c i a).tenants = c.tenants := by
  simp [cdcTimeout]
@[simp] theorem cdcTimeout_gals (c : Ctl) (i a : Nat) : (cdcTimeout c i a).gals = c.gals := by
  simp [cdcTimeout]
@[simp] theorem cdcTimeout_dchs (c : Ctl) (i a : Nat) : (cdcTimeout c i a).dchs = c.dchs := by
  simp [cdcTimeout]
@[simp] theorem cdcTimeout_reqs (c : Ctl) (i a : Nat) : (cdcTimeout c i a).reqs = c.reqs := by
  simp [cdcTimeout]
@[simp] theorem cdcTimeout_nextReq (c : Ctl) (i a : Nat) : (cdcTimeout c i a).nextReq = c.nextReq := by
  simp [cdcTimeout]
@[simp] theorem cdcTimeout_twin (c : Ctl) (i a : Nat) : (cdcTimeout c i a).twin = c.twin := by
  simp [cdcTimeout]
@[simp] theorem cdcTimeout_pair (c : Ctl) (i a : Nat) : (cdcTimeout c i a).pair = c.pair := by
  simp [cdcTimeout]
@[simp] theorem cdcTimeout_svr (c : Ctl) (i a : Nat) : (cdcTimeout c i a).svr = c.svr := by
  simp [cdcTimeout]
@[simp] theorem cdcTimeout_vlt (c : Ctl) (i a : Nat) : (cdcTimeout c i a).vlt = c.vlt := by
  simp [cdcTimeout]
@[simp] theorem cdcTimeout_rings (c : Ctl) (i a : Nat) : (cdcTimeout c i a).rings = c.rings := by
  simp [cdcTimeout]
@[simp] theorem cdcTimeout_flights (c : Ctl) (i a : Nat) : (cdcTimeout c i a).flights = c.flights := by
  simp [cdcTimeout]
@[simp] theorem cdcTimeout_fgen (c : Ctl) (i a : Nat) : (cdcTimeout c i a).fgen = c.fgen := by
  simp [cdcTimeout]
@[simp] theorem cdcTimeout_commitSeq (c : Ctl) (i a : Nat) : (cdcTimeout c i a).commitSeq = c.commitSeq := by
  simp [cdcTimeout]
@[simp] theorem cdcTimeout_flightCount (c : Ctl) (i a : Nat) : (cdcTimeout c i a).flightCount = c.flightCount := by
  simp [cdcTimeout]
@[simp] theorem cdcTimeout_flightAbandoned (c : Ctl) (i a : Nat) : (cdcTimeout c i a).flightAbandoned = c.flightAbandoned := by
  simp [cdcTimeout]
@[simp] theorem cdcTimeout_partnerApplied (c : Ctl) (i a : Nat) : (cdcTimeout c i a).partnerApplied = c.partnerApplied := by
  simp [cdcTimeout]
@[simp] theorem cdcTimeout_poisonOver (c : Ctl) (i a : Nat) : (cdcTimeout c i a).poisonOver = c.poisonOver := by
  simp [cdcTimeout]
@[simp] theorem cdcTimeout_throttling (c : Ctl) (i a : Nat) : (cdcTimeout c i a).throttling = c.throttling := by
  simp [cdcTimeout]
@[simp] theorem cdcTimeout_out (c : Ctl) (i a : Nat) : (cdcTimeout c i a).out = c.out := by
  simp [cdcTimeout]
@[simp] theorem cdcTimeout_free (c : Ctl) (i a : Nat) : (cdcTimeout c i a).free = c.free := by
  simp [cdcTimeout]

/-! ## msixSend -/

@[simp] theorem msixSend_glb (c : Ctl) (d v : Nat) : (msixSend c d v).glb = c.glb := by
  unfold msixSend; (repeat' split) <;> simp
@[simp] theorem msixSend_img (c : Ctl) (d v : Nat) : (msixSend c d v).img = c.img := by
  unfold msixSend; (repeat' split) <;> simp
@[simp] theorem msixSend_dimm (c : Ctl) (d v : Nat) : (msixSend c d v).dimm = c.dimm := by
  unfold msixSend; (repeat' split) <;> simp
@[simp] theorem msixSend_fcu (c : Ctl) (d v : Nat) : (msixSend c d v).fcu = c.fcu := by
  unfold msixSend; (repeat' split) <;> simp
@[simp] theorem msixSend_rtc (c : Ctl) (d v : Nat) : (msixSend c d v).rtc = c.rtc := by
  unfold msixSend; (repeat' split) <;> simp
@[simp] theorem msixSend_alc (c : Ctl) (d v : Nat) : (msixSend c d v).alc = c.alc := by
  unfold msixSend; (repeat' split) <;> simp
@[simp] theorem msixSend_clk (c : Ctl) (d v : Nat) : (msixSend c d v).clk = c.clk := by
  unfold msixSend; (repeat' split) <;> simp
@[simp] theorem msixSend_rst (c : Ctl) (d v : Nat) : (msixSend c d v).rst = c.rst := by
  unfold msixSend; (repeat' split) <;> simp
@[simp] theorem msixSend_boot (c : Ctl) (d v : Nat) : (msixSend c d v).boot = c.boot := by
  unfold msixSend; (repeat' split) <;> simp
@[simp] theorem msixSend_seq (c : Ctl) (d v : Nat) : (msixSend c d v).seq = c.seq := by
  unfold msixSend; (repeat' split) <;> simp
@[simp] theorem msixSend_pwrImg (c : Ctl) (d v : Nat) : (msixSend c d v).pwrImg = c.pwrImg := by
  unfold msixSend; (repeat' split) <;> simp
@[simp] theorem msixSend_pf (c : Ctl) (d v : Nat) : (msixSend c d v).pf = c.pf := by
  unfold msixSend; (repeat' split) <;> simp
@[simp] theorem msixSend_hold (c : Ctl) (d v : Nat) : (msixSend c d v).hold = c.hold := by
  unfold msixSend; (repeat' split) <;> simp
@[simp] theorem msixSend_sns (c : Ctl) (d v : Nat) : (msixSend c d v).sns = c.sns := by
  unfold msixSend; (repeat' split) <;> simp
@[simp] theorem msixSend_budget (c : Ctl) (d v : Nat) : (msixSend c d v).budget = c.budget := by
  unfold msixSend; (repeat' split) <;> simp
@[simp] theorem msixSend_mgmt (c : Ctl) (d v : Nat) : (msixSend c d v).mgmt = c.mgmt := by
  unfold msixSend; (repeat' split) <;> simp
@[simp] theorem msixSend_heads (c : Ctl) (d v : Nat) : (msixSend c d v).heads = c.heads := by
  unfold msixSend; (repeat' split) <;> simp
@[simp] theorem msixSend_halls (c : Ctl) (d v : Nat) : (msixSend c d v).halls = c.halls := by
  unfold msixSend; (repeat' split) <;> simp
@[simp] theorem msixSend_snoops (c : Ctl) (d v : Nat) : (msixSend c d v).snoops = c.snoops := by
  unfold msixSend; (repeat' split) <;> simp
@[simp] theorem msixSend_releases (c : Ctl) (d v : Nat) : (msixSend c d v).releases = c.releases := by
  unfold msixSend; (repeat' split) <;> simp
@[simp] theorem msixSend_tenants (c : Ctl) (d v : Nat) : (msixSend c d v).tenants = c.tenants := by
  unfold msixSend; (repeat' split) <;> simp
@[simp] theorem msixSend_gals (c : Ctl) (d v : Nat) : (msixSend c d v).gals = c.gals := by
  unfold msixSend; (repeat' split) <;> simp
@[simp] theorem msixSend_dchs (c : Ctl) (d v : Nat) : (msixSend c d v).dchs = c.dchs := by
  unfold msixSend; (repeat' split) <;> simp
@[simp] theorem msixSend_reqs (c : Ctl) (d v : Nat) : (msixSend c d v).reqs = c.reqs := by
  unfold msixSend; (repeat' split) <;> simp
@[simp] theorem msixSend_nextReq (c : Ctl) (d v : Nat) : (msixSend c d v).nextReq = c.nextReq := by
  unfold msixSend; (repeat' split) <;> simp
@[simp] theorem msixSend_twin (c : Ctl) (d v : Nat) : (msixSend c d v).twin = c.twin := by
  unfold msixSend; (repeat' split) <;> simp
@[simp] theorem msixSend_pair (c : Ctl) (d v : Nat) : (msixSend c d v).pair = c.pair := by
  unfold msixSend; (repeat' split) <;> simp
@[simp] theorem msixSend_svr (c : Ctl) (d v : Nat) : (msixSend c d v).svr = c.svr := by
  unfold msixSend; (repeat' split) <;> simp
@[simp] theorem msixSend_vlt (c : Ctl) (d v : Nat) : (msixSend c d v).vlt = c.vlt := by
  unfold msixSend; (repeat' split) <;> simp
@[simp] theorem msixSend_rings (c : Ctl) (d v : Nat) : (msixSend c d v).rings = c.rings := by
  unfold msixSend; (repeat' split) <;> simp
@[simp] theorem msixSend_flights (c : Ctl) (d v : Nat) : (msixSend c d v).flights = c.flights := by
  unfold msixSend; (repeat' split) <;> simp
@[simp] theorem msixSend_fgen (c : Ctl) (d v : Nat) : (msixSend c d v).fgen = c.fgen := by
  unfold msixSend; (repeat' split) <;> simp
@[simp] theorem msixSend_commitSeq (c : Ctl) (d v : Nat) : (msixSend c d v).commitSeq = c.commitSeq := by
  unfold msixSend; (repeat' split) <;> simp
@[simp] theorem msixSend_flightCount (c : Ctl) (d v : Nat) : (msixSend c d v).flightCount = c.flightCount := by
  unfold msixSend; (repeat' split) <;> simp
@[simp] theorem msixSend_flightAbandoned (c : Ctl) (d v : Nat) : (msixSend c d v).flightAbandoned = c.flightAbandoned := by
  unfold msixSend; (repeat' split) <;> simp
@[simp] theorem msixSend_partnerApplied (c : Ctl) (d v : Nat) : (msixSend c d v).partnerApplied = c.partnerApplied := by
  unfold msixSend; (repeat' split) <;> simp
@[simp] theorem msixSend_poisonOver (c : Ctl) (d v : Nat) : (msixSend c d v).poisonOver = c.poisonOver := by
  unfold msixSend; (repeat' split) <;> simp
@[simp] theorem msixSend_throttling (c : Ctl) (d v : Nat) : (msixSend c d v).throttling = c.throttling := by
  unfold msixSend; (repeat' split) <;> simp
@[simp] theorem msixSend_free (c : Ctl) (d v : Nat) : (msixSend c d v).free = c.free := by
  unfold msixSend; (repeat' split) <;> simp

/-! ## addEvent -/

@[simp] theorem addEvent_glb (c : Ctl) (d : Nat) (l : EvLog) (r : EvRec) : (addEvent c d l r).glb = c.glb := by
  unfold addEvent; dsimp only; split <;> simp
@[simp] theorem addEvent_img (c : Ctl) (d : Nat) (l : EvLog) (r : EvRec) : (addEvent c d l r).img = c.img := by
  unfold addEvent; dsimp only; split <;> simp
@[simp] theorem addEvent_dimm (c : Ctl) (d : Nat) (l : EvLog) (r : EvRec) : (addEvent c d l r).dimm = c.dimm := by
  unfold addEvent; dsimp only; split <;> simp
@[simp] theorem addEvent_rtc (c : Ctl) (d : Nat) (l : EvLog) (r : EvRec) : (addEvent c d l r).rtc = c.rtc := by
  unfold addEvent; dsimp only; split <;> simp
@[simp] theorem addEvent_alc (c : Ctl) (d : Nat) (l : EvLog) (r : EvRec) : (addEvent c d l r).alc = c.alc := by
  unfold addEvent; dsimp only; split <;> simp
@[simp] theorem addEvent_clk (c : Ctl) (d : Nat) (l : EvLog) (r : EvRec) : (addEvent c d l r).clk = c.clk := by
  unfold addEvent; dsimp only; split <;> simp
@[simp] theorem addEvent_rst (c : Ctl) (d : Nat) (l : EvLog) (r : EvRec) : (addEvent c d l r).rst = c.rst := by
  unfold addEvent; dsimp only; split <;> simp
@[simp] theorem addEvent_boot (c : Ctl) (d : Nat) (l : EvLog) (r : EvRec) : (addEvent c d l r).boot = c.boot := by
  unfold addEvent; dsimp only; split <;> simp
@[simp] theorem addEvent_seq (c : Ctl) (d : Nat) (l : EvLog) (r : EvRec) : (addEvent c d l r).seq = c.seq := by
  unfold addEvent; dsimp only; split <;> simp
@[simp] theorem addEvent_pwrImg (c : Ctl) (d : Nat) (l : EvLog) (r : EvRec) : (addEvent c d l r).pwrImg = c.pwrImg := by
  unfold addEvent; dsimp only; split <;> simp
@[simp] theorem addEvent_pf (c : Ctl) (d : Nat) (l : EvLog) (r : EvRec) : (addEvent c d l r).pf = c.pf := by
  unfold addEvent; dsimp only; split <;> simp
@[simp] theorem addEvent_hold (c : Ctl) (d : Nat) (l : EvLog) (r : EvRec) : (addEvent c d l r).hold = c.hold := by
  unfold addEvent; dsimp only; split <;> simp
@[simp] theorem addEvent_sns (c : Ctl) (d : Nat) (l : EvLog) (r : EvRec) : (addEvent c d l r).sns = c.sns := by
  unfold addEvent; dsimp only; split <;> simp
@[simp] theorem addEvent_budget (c : Ctl) (d : Nat) (l : EvLog) (r : EvRec) : (addEvent c d l r).budget = c.budget := by
  unfold addEvent; dsimp only; split <;> simp
@[simp] theorem addEvent_mgmt (c : Ctl) (d : Nat) (l : EvLog) (r : EvRec) : (addEvent c d l r).mgmt = c.mgmt := by
  unfold addEvent; dsimp only; split <;> simp
@[simp] theorem addEvent_heads (c : Ctl) (d : Nat) (l : EvLog) (r : EvRec) : (addEvent c d l r).heads = c.heads := by
  unfold addEvent; dsimp only; split <;> simp
@[simp] theorem addEvent_halls (c : Ctl) (d : Nat) (l : EvLog) (r : EvRec) : (addEvent c d l r).halls = c.halls := by
  unfold addEvent; dsimp only; split <;> simp
@[simp] theorem addEvent_snoops (c : Ctl) (d : Nat) (l : EvLog) (r : EvRec) : (addEvent c d l r).snoops = c.snoops := by
  unfold addEvent; dsimp only; split <;> simp
@[simp] theorem addEvent_releases (c : Ctl) (d : Nat) (l : EvLog) (r : EvRec) : (addEvent c d l r).releases = c.releases := by
  unfold addEvent; dsimp only; split <;> simp
@[simp] theorem addEvent_tenants (c : Ctl) (d : Nat) (l : EvLog) (r : EvRec) : (addEvent c d l r).tenants = c.tenants := by
  unfold addEvent; dsimp only; split <;> simp
@[simp] theorem addEvent_gals (c : Ctl) (d : Nat) (l : EvLog) (r : EvRec) : (addEvent c d l r).gals = c.gals := by
  unfold addEvent; dsimp only; split <;> simp
@[simp] theorem addEvent_dchs (c : Ctl) (d : Nat) (l : EvLog) (r : EvRec) : (addEvent c d l r).dchs = c.dchs := by
  unfold addEvent; dsimp only; split <;> simp
@[simp] theorem addEvent_reqs (c : Ctl) (d : Nat) (l : EvLog) (r : EvRec) : (addEvent c d l r).reqs = c.reqs := by
  unfold addEvent; dsimp only; split <;> simp
@[simp] theorem addEvent_nextReq (c : Ctl) (d : Nat) (l : EvLog) (r : EvRec) : (addEvent c d l r).nextReq = c.nextReq := by
  unfold addEvent; dsimp only; split <;> simp
@[simp] theorem addEvent_twin (c : Ctl) (d : Nat) (l : EvLog) (r : EvRec) : (addEvent c d l r).twin = c.twin := by
  unfold addEvent; dsimp only; split <;> simp
@[simp] theorem addEvent_pair (c : Ctl) (d : Nat) (l : EvLog) (r : EvRec) : (addEvent c d l r).pair = c.pair := by
  unfold addEvent; dsimp only; split <;> simp
@[simp] theorem addEvent_svr (c : Ctl) (d : Nat) (l : EvLog) (r : EvRec) : (addEvent c d l r).svr = c.svr := by
  unfold addEvent; dsimp only; split <;> simp
@[simp] theorem addEvent_vlt (c : Ctl) (d : Nat) (l : EvLog) (r : EvRec) : (addEvent c d l r).vlt = c.vlt := by
  unfold addEvent; dsimp only; split <;> simp
@[simp] theorem addEvent_rings (c : Ctl) (d : Nat) (l : EvLog) (r : EvRec) : (addEvent c d l r).rings = c.rings := by
  unfold addEvent; dsimp only; split <;> simp
@[simp] theorem addEvent_flights (c : Ctl) (d : Nat) (l : EvLog) (r : EvRec) : (addEvent c d l r).flights = c.flights := by
  unfold addEvent; dsimp only; split <;> simp
@[simp] theorem addEvent_fgen (c : Ctl) (d : Nat) (l : EvLog) (r : EvRec) : (addEvent c d l r).fgen = c.fgen := by
  unfold addEvent; dsimp only; split <;> simp
@[simp] theorem addEvent_commitSeq (c : Ctl) (d : Nat) (l : EvLog) (r : EvRec) : (addEvent c d l r).commitSeq = c.commitSeq := by
  unfold addEvent; dsimp only; split <;> simp
@[simp] theorem addEvent_flightCount (c : Ctl) (d : Nat) (l : EvLog) (r : EvRec) : (addEvent c d l r).flightCount = c.flightCount := by
  unfold addEvent; dsimp only; split <;> simp
@[simp] theorem addEvent_flightAbandoned (c : Ctl) (d : Nat) (l : EvLog) (r : EvRec) : (addEvent c d l r).flightAbandoned = c.flightAbandoned := by
  unfold addEvent; dsimp only; split <;> simp
@[simp] theorem addEvent_partnerApplied (c : Ctl) (d : Nat) (l : EvLog) (r : EvRec) : (addEvent c d l r).partnerApplied = c.partnerApplied := by
  unfold addEvent; dsimp only; split <;> simp
@[simp] theorem addEvent_poisonOver (c : Ctl) (d : Nat) (l : EvLog) (r : EvRec) : (addEvent c d l r).poisonOver = c.poisonOver := by
  unfold addEvent; dsimp only; split <;> simp
@[simp] theorem addEvent_throttling (c : Ctl) (d : Nat) (l : EvLog) (r : EvRec) : (addEvent c d l r).throttling = c.throttling := by
  unfold addEvent; dsimp only; split <;> simp
@[simp] theorem addEvent_free (c : Ctl) (d : Nat) (l : EvLog) (r : EvRec) : (addEvent c d l r).free = c.free := by
  unfold addEvent; dsimp only; split <;> simp

/-! ## txOne -/

@[simp] theorem txOne_glb (c : Ctl) (k : Nat) : (txOne c k).glb = c.glb := by
  unfold txOne; dsimp only; (repeat' split) <;> simp
@[simp] theorem txOne_img (c : Ctl) (k : Nat) : (txOne c k).img = c.img := by
  unfold txOne; dsimp only; (repeat' split) <;> simp
@[simp] theorem txOne_dimm (c : Ctl) (k : Nat) : (txOne c k).dimm = c.dimm := by
  unfold txOne; dsimp only; (repeat' split) <;> simp
@[simp] theorem txOne_fcu (c : Ctl) (k : Nat) : (txOne c k).fcu = c.fcu := by
  unfold txOne; dsimp only; (repeat' split) <;> simp
@[simp] theorem txOne_rtc (c : Ctl) (k : Nat) : (txOne c k).rtc = c.rtc := by
  unfold txOne; dsimp only; (repeat' split) <;> simp
@[simp] theorem txOne_alc (c : Ctl) (k : Nat) : (txOne c k).alc = c.alc := by
  unfold txOne; dsimp only; (repeat' split) <;> simp
@[simp] theorem txOne_clk (c : Ctl) (k : Nat) : (txOne c k).clk = c.clk := by
  unfold txOne; dsimp only; (repeat' split) <;> simp
@[simp] theorem txOne_rst (c : Ctl) (k : Nat) : (txOne c k).rst = c.rst := by
  unfold txOne; dsimp only; (repeat' split) <;> simp
@[simp] theorem txOne_boot (c : Ctl) (k : Nat) : (txOne c k).boot = c.boot := by
  unfold txOne; dsimp only; (repeat' split) <;> simp
@[simp] theorem txOne_seq (c : Ctl) (k : Nat) : (txOne c k).seq = c.seq := by
  unfold txOne; dsimp only; (repeat' split) <;> simp
@[simp] theorem txOne_pwrImg (c : Ctl) (k : Nat) : (txOne c k).pwrImg = c.pwrImg := by
  unfold txOne; dsimp only; (repeat' split) <;> simp
@[simp] theorem txOne_pf (c : Ctl) (k : Nat) : (txOne c k).pf = c.pf := by
  unfold txOne; dsimp only; (repeat' split) <;> simp
@[simp] theorem txOne_hold (c : Ctl) (k : Nat) : (txOne c k).hold = c.hold := by
  unfold txOne; dsimp only; (repeat' split) <;> simp
@[simp] theorem txOne_sns (c : Ctl) (k : Nat) : (txOne c k).sns = c.sns := by
  unfold txOne; dsimp only; (repeat' split) <;> simp
@[simp] theorem txOne_budget (c : Ctl) (k : Nat) : (txOne c k).budget = c.budget := by
  unfold txOne; dsimp only; (repeat' split) <;> simp
@[simp] theorem txOne_mgmt (c : Ctl) (k : Nat) : (txOne c k).mgmt = c.mgmt := by
  unfold txOne; dsimp only; (repeat' split) <;> simp
@[simp] theorem txOne_heads (c : Ctl) (k : Nat) : (txOne c k).heads = c.heads := by
  unfold txOne; dsimp only; (repeat' split) <;> simp
@[simp] theorem txOne_lds (c : Ctl) (k : Nat) : (txOne c k).lds = c.lds := by
  unfold txOne; dsimp only; (repeat' split) <;> simp
@[simp] theorem txOne_halls (c : Ctl) (k : Nat) : (txOne c k).halls = c.halls := by
  unfold txOne; dsimp only; (repeat' split) <;> simp
@[simp] theorem txOne_snoops (c : Ctl) (k : Nat) : (txOne c k).snoops = c.snoops := by
  unfold txOne; dsimp only; (repeat' split) <;> simp
@[simp] theorem txOne_releases (c : Ctl) (k : Nat) : (txOne c k).releases = c.releases := by
  unfold txOne; dsimp only; (repeat' split) <;> simp
@[simp] theorem txOne_tenants (c : Ctl) (k : Nat) : (txOne c k).tenants = c.tenants := by
  unfold txOne; dsimp only; (repeat' split) <;> simp
@[simp] theorem txOne_gals (c : Ctl) (k : Nat) : (txOne c k).gals = c.gals := by
  unfold txOne; dsimp only; (repeat' split) <;> simp
@[simp] theorem txOne_dchs (c : Ctl) (k : Nat) : (txOne c k).dchs = c.dchs := by
  unfold txOne; dsimp only; (repeat' split) <;> simp
@[simp] theorem txOne_reqs (c : Ctl) (k : Nat) : (txOne c k).reqs = c.reqs := by
  unfold txOne; dsimp only; (repeat' split) <;> simp
@[simp] theorem txOne_nextReq (c : Ctl) (k : Nat) : (txOne c k).nextReq = c.nextReq := by
  unfold txOne; dsimp only; (repeat' split) <;> simp
@[simp] theorem txOne_pair (c : Ctl) (k : Nat) : (txOne c k).pair = c.pair := by
  unfold txOne; dsimp only; (repeat' split) <;> simp
@[simp] theorem txOne_svr (c : Ctl) (k : Nat) : (txOne c k).svr = c.svr := by
  unfold txOne; dsimp only; (repeat' split) <;> simp
@[simp] theorem txOne_vlt (c : Ctl) (k : Nat) : (txOne c k).vlt = c.vlt := by
  unfold txOne; dsimp only; (repeat' split) <;> simp
@[simp] theorem txOne_rings (c : Ctl) (k : Nat) : (txOne c k).rings = c.rings := by
  unfold txOne; dsimp only; (repeat' split) <;> simp
@[simp] theorem txOne_flights (c : Ctl) (k : Nat) : (txOne c k).flights = c.flights := by
  unfold txOne; dsimp only; (repeat' split) <;> simp
@[simp] theorem txOne_fgen (c : Ctl) (k : Nat) : (txOne c k).fgen = c.fgen := by
  unfold txOne; dsimp only; (repeat' split) <;> simp
@[simp] theorem txOne_commitSeq (c : Ctl) (k : Nat) : (txOne c k).commitSeq = c.commitSeq := by
  unfold txOne; dsimp only; (repeat' split) <;> simp
@[simp] theorem txOne_flightCount (c : Ctl) (k : Nat) : (txOne c k).flightCount = c.flightCount := by
  unfold txOne; dsimp only; (repeat' split) <;> simp
@[simp] theorem txOne_flightAbandoned (c : Ctl) (k : Nat) : (txOne c k).flightAbandoned = c.flightAbandoned := by
  unfold txOne; dsimp only; (repeat' split) <;> simp
@[simp] theorem txOne_partnerApplied (c : Ctl) (k : Nat) : (txOne c k).partnerApplied = c.partnerApplied := by
  unfold txOne; dsimp only; (repeat' split) <;> simp
@[simp] theorem txOne_poisonOver (c : Ctl) (k : Nat) : (txOne c k).poisonOver = c.poisonOver := by
  unfold txOne; dsimp only; (repeat' split) <;> simp
@[simp] theorem txOne_throttling (c : Ctl) (k : Nat) : (txOne c k).throttling = c.throttling := by
  unfold txOne; dsimp only; (repeat' split) <;> simp
@[simp] theorem txOne_free (c : Ctl) (k : Nat) : (txOne c k).free = c.free := by
  unfold txOne; dsimp only; (repeat' split) <;> simp

/-! ## Queues of the twin links -/

theorem foldl_same {α β : Type} (p : Ctl → α) (f : Ctl → β → Ctl) (h : ∀ c b, p (f c b) = p c) : ∀ (l : List β) (c : Ctl), p (l.foldl f c) = p c
  | [], _ => rfl
  | b :: l, c => (foldl_same p f h l (f c b)).trans (h c b)

@[simp] theorem txPump_glb (c : Ctl) (k : Nat) : (txPump c k).glb = c.glb := foldl_same (fun c => c.glb) _ (fun c _ => txOne_glb c k) _ c
@[simp] theorem txPut_glb (c : Ctl) (k : Nat) (m : Msg) : (txPut c k m).glb = c.glb := by simp [txPut]
@[simp] theorem sendOn_glb (c : Ctl) (k : Nat) (s : Space) (x : Cont) (m : Tag → Msg) : (sendOn c k s x m).glb = c.glb := by simp [sendOn]
@[simp] theorem sendAck_glb (c : Ctl) (k : Nat) (s : Space) (t : Tag) : (sendAck c k s t).glb = c.glb := by simp [sendAck]
@[simp] theorem ackNews_glb (c : Ctl) : (ackNews c).glb = c.glb := by
  unfold ackNews; split
  · split
    · exact sendAck_glb _ _ _ _
    · rfl
  · rfl
@[simp] theorem txPump_img (c : Ctl) (k : Nat) : (txPump c k).img = c.img := foldl_same (fun c => c.img) _ (fun c _ => txOne_img c k) _ c
@[simp] theorem txPut_img (c : Ctl) (k : Nat) (m : Msg) : (txPut c k m).img = c.img := by simp [txPut]
@[simp] theorem sendOn_img (c : Ctl) (k : Nat) (s : Space) (x : Cont) (m : Tag → Msg) : (sendOn c k s x m).img = c.img := by simp [sendOn]
@[simp] theorem sendAck_img (c : Ctl) (k : Nat) (s : Space) (t : Tag) : (sendAck c k s t).img = c.img := by simp [sendAck]
@[simp] theorem ackNews_img (c : Ctl) : (ackNews c).img = c.img := by
  unfold ackNews; split
  · split
    · exact sendAck_img _ _ _ _
    · rfl
  · rfl
@[simp] theorem txPump_dimm (c : Ctl) (k : Nat) : (txPump c k).dimm = c.dimm := foldl_same (fun c => c.dimm) _ (fun c _ => txOne_dimm c k) _ c
@[simp] theorem txPut_dimm (c : Ctl) (k : Nat) (m : Msg) : (txPut c k m).dimm = c.dimm := by simp [txPut]
@[simp] theorem sendOn_dimm (c : Ctl) (k : Nat) (s : Space) (x : Cont) (m : Tag → Msg) : (sendOn c k s x m).dimm = c.dimm := by simp [sendOn]
@[simp] theorem sendAck_dimm (c : Ctl) (k : Nat) (s : Space) (t : Tag) : (sendAck c k s t).dimm = c.dimm := by simp [sendAck]
@[simp] theorem ackNews_dimm (c : Ctl) : (ackNews c).dimm = c.dimm := by
  unfold ackNews; split
  · split
    · exact sendAck_dimm _ _ _ _
    · rfl
  · rfl
@[simp] theorem txPump_fcu (c : Ctl) (k : Nat) : (txPump c k).fcu = c.fcu := foldl_same (fun c => c.fcu) _ (fun c _ => txOne_fcu c k) _ c
@[simp] theorem txPut_fcu (c : Ctl) (k : Nat) (m : Msg) : (txPut c k m).fcu = c.fcu := by simp [txPut]
@[simp] theorem sendOn_fcu (c : Ctl) (k : Nat) (s : Space) (x : Cont) (m : Tag → Msg) : (sendOn c k s x m).fcu = c.fcu := by simp [sendOn]
@[simp] theorem sendAck_fcu (c : Ctl) (k : Nat) (s : Space) (t : Tag) : (sendAck c k s t).fcu = c.fcu := by simp [sendAck]
@[simp] theorem ackNews_fcu (c : Ctl) : (ackNews c).fcu = c.fcu := by
  unfold ackNews; split
  · split
    · exact sendAck_fcu _ _ _ _
    · rfl
  · rfl
@[simp] theorem txPump_rtc (c : Ctl) (k : Nat) : (txPump c k).rtc = c.rtc := foldl_same (fun c => c.rtc) _ (fun c _ => txOne_rtc c k) _ c
@[simp] theorem txPut_rtc (c : Ctl) (k : Nat) (m : Msg) : (txPut c k m).rtc = c.rtc := by simp [txPut]
@[simp] theorem sendOn_rtc (c : Ctl) (k : Nat) (s : Space) (x : Cont) (m : Tag → Msg) : (sendOn c k s x m).rtc = c.rtc := by simp [sendOn]
@[simp] theorem sendAck_rtc (c : Ctl) (k : Nat) (s : Space) (t : Tag) : (sendAck c k s t).rtc = c.rtc := by simp [sendAck]
@[simp] theorem ackNews_rtc (c : Ctl) : (ackNews c).rtc = c.rtc := by
  unfold ackNews; split
  · split
    · exact sendAck_rtc _ _ _ _
    · rfl
  · rfl
@[simp] theorem txPump_alc (c : Ctl) (k : Nat) : (txPump c k).alc = c.alc := foldl_same (fun c => c.alc) _ (fun c _ => txOne_alc c k) _ c
@[simp] theorem txPut_alc (c : Ctl) (k : Nat) (m : Msg) : (txPut c k m).alc = c.alc := by simp [txPut]
@[simp] theorem sendOn_alc (c : Ctl) (k : Nat) (s : Space) (x : Cont) (m : Tag → Msg) : (sendOn c k s x m).alc = c.alc := by simp [sendOn]
@[simp] theorem sendAck_alc (c : Ctl) (k : Nat) (s : Space) (t : Tag) : (sendAck c k s t).alc = c.alc := by simp [sendAck]
@[simp] theorem ackNews_alc (c : Ctl) : (ackNews c).alc = c.alc := by
  unfold ackNews; split
  · split
    · exact sendAck_alc _ _ _ _
    · rfl
  · rfl
@[simp] theorem txPump_clk (c : Ctl) (k : Nat) : (txPump c k).clk = c.clk := foldl_same (fun c => c.clk) _ (fun c _ => txOne_clk c k) _ c
@[simp] theorem txPut_clk (c : Ctl) (k : Nat) (m : Msg) : (txPut c k m).clk = c.clk := by simp [txPut]
@[simp] theorem sendOn_clk (c : Ctl) (k : Nat) (s : Space) (x : Cont) (m : Tag → Msg) : (sendOn c k s x m).clk = c.clk := by simp [sendOn]
@[simp] theorem sendAck_clk (c : Ctl) (k : Nat) (s : Space) (t : Tag) : (sendAck c k s t).clk = c.clk := by simp [sendAck]
@[simp] theorem ackNews_clk (c : Ctl) : (ackNews c).clk = c.clk := by
  unfold ackNews; split
  · split
    · exact sendAck_clk _ _ _ _
    · rfl
  · rfl
@[simp] theorem txPump_rst (c : Ctl) (k : Nat) : (txPump c k).rst = c.rst := foldl_same (fun c => c.rst) _ (fun c _ => txOne_rst c k) _ c
@[simp] theorem txPut_rst (c : Ctl) (k : Nat) (m : Msg) : (txPut c k m).rst = c.rst := by simp [txPut]
@[simp] theorem sendOn_rst (c : Ctl) (k : Nat) (s : Space) (x : Cont) (m : Tag → Msg) : (sendOn c k s x m).rst = c.rst := by simp [sendOn]
@[simp] theorem sendAck_rst (c : Ctl) (k : Nat) (s : Space) (t : Tag) : (sendAck c k s t).rst = c.rst := by simp [sendAck]
@[simp] theorem ackNews_rst (c : Ctl) : (ackNews c).rst = c.rst := by
  unfold ackNews; split
  · split
    · exact sendAck_rst _ _ _ _
    · rfl
  · rfl
@[simp] theorem txPump_boot (c : Ctl) (k : Nat) : (txPump c k).boot = c.boot := foldl_same (fun c => c.boot) _ (fun c _ => txOne_boot c k) _ c
@[simp] theorem txPut_boot (c : Ctl) (k : Nat) (m : Msg) : (txPut c k m).boot = c.boot := by simp [txPut]
@[simp] theorem sendOn_boot (c : Ctl) (k : Nat) (s : Space) (x : Cont) (m : Tag → Msg) : (sendOn c k s x m).boot = c.boot := by simp [sendOn]
@[simp] theorem sendAck_boot (c : Ctl) (k : Nat) (s : Space) (t : Tag) : (sendAck c k s t).boot = c.boot := by simp [sendAck]
@[simp] theorem ackNews_boot (c : Ctl) : (ackNews c).boot = c.boot := by
  unfold ackNews; split
  · split
    · exact sendAck_boot _ _ _ _
    · rfl
  · rfl
@[simp] theorem txPump_seq (c : Ctl) (k : Nat) : (txPump c k).seq = c.seq := foldl_same (fun c => c.seq) _ (fun c _ => txOne_seq c k) _ c
@[simp] theorem txPut_seq (c : Ctl) (k : Nat) (m : Msg) : (txPut c k m).seq = c.seq := by simp [txPut]
@[simp] theorem sendOn_seq (c : Ctl) (k : Nat) (s : Space) (x : Cont) (m : Tag → Msg) : (sendOn c k s x m).seq = c.seq := by simp [sendOn]
@[simp] theorem sendAck_seq (c : Ctl) (k : Nat) (s : Space) (t : Tag) : (sendAck c k s t).seq = c.seq := by simp [sendAck]
@[simp] theorem ackNews_seq (c : Ctl) : (ackNews c).seq = c.seq := by
  unfold ackNews; split
  · split
    · exact sendAck_seq _ _ _ _
    · rfl
  · rfl
@[simp] theorem txPump_pwrImg (c : Ctl) (k : Nat) : (txPump c k).pwrImg = c.pwrImg := foldl_same (fun c => c.pwrImg) _ (fun c _ => txOne_pwrImg c k) _ c
@[simp] theorem txPut_pwrImg (c : Ctl) (k : Nat) (m : Msg) : (txPut c k m).pwrImg = c.pwrImg := by simp [txPut]
@[simp] theorem sendOn_pwrImg (c : Ctl) (k : Nat) (s : Space) (x : Cont) (m : Tag → Msg) : (sendOn c k s x m).pwrImg = c.pwrImg := by simp [sendOn]
@[simp] theorem sendAck_pwrImg (c : Ctl) (k : Nat) (s : Space) (t : Tag) : (sendAck c k s t).pwrImg = c.pwrImg := by simp [sendAck]
@[simp] theorem ackNews_pwrImg (c : Ctl) : (ackNews c).pwrImg = c.pwrImg := by
  unfold ackNews; split
  · split
    · exact sendAck_pwrImg _ _ _ _
    · rfl
  · rfl
@[simp] theorem txPump_pf (c : Ctl) (k : Nat) : (txPump c k).pf = c.pf := foldl_same (fun c => c.pf) _ (fun c _ => txOne_pf c k) _ c
@[simp] theorem txPut_pf (c : Ctl) (k : Nat) (m : Msg) : (txPut c k m).pf = c.pf := by simp [txPut]
@[simp] theorem sendOn_pf (c : Ctl) (k : Nat) (s : Space) (x : Cont) (m : Tag → Msg) : (sendOn c k s x m).pf = c.pf := by simp [sendOn]
@[simp] theorem sendAck_pf (c : Ctl) (k : Nat) (s : Space) (t : Tag) : (sendAck c k s t).pf = c.pf := by simp [sendAck]
@[simp] theorem ackNews_pf (c : Ctl) : (ackNews c).pf = c.pf := by
  unfold ackNews; split
  · split
    · exact sendAck_pf _ _ _ _
    · rfl
  · rfl
@[simp] theorem txPump_hold (c : Ctl) (k : Nat) : (txPump c k).hold = c.hold := foldl_same (fun c => c.hold) _ (fun c _ => txOne_hold c k) _ c
@[simp] theorem txPut_hold (c : Ctl) (k : Nat) (m : Msg) : (txPut c k m).hold = c.hold := by simp [txPut]
@[simp] theorem sendOn_hold (c : Ctl) (k : Nat) (s : Space) (x : Cont) (m : Tag → Msg) : (sendOn c k s x m).hold = c.hold := by simp [sendOn]
@[simp] theorem sendAck_hold (c : Ctl) (k : Nat) (s : Space) (t : Tag) : (sendAck c k s t).hold = c.hold := by simp [sendAck]
@[simp] theorem ackNews_hold (c : Ctl) : (ackNews c).hold = c.hold := by
  unfold ackNews; split
  · split
    · exact sendAck_hold _ _ _ _
    · rfl
  · rfl
@[simp] theorem txPump_sns (c : Ctl) (k : Nat) : (txPump c k).sns = c.sns := foldl_same (fun c => c.sns) _ (fun c _ => txOne_sns c k) _ c
@[simp] theorem txPut_sns (c : Ctl) (k : Nat) (m : Msg) : (txPut c k m).sns = c.sns := by simp [txPut]
@[simp] theorem sendOn_sns (c : Ctl) (k : Nat) (s : Space) (x : Cont) (m : Tag → Msg) : (sendOn c k s x m).sns = c.sns := by simp [sendOn]
@[simp] theorem sendAck_sns (c : Ctl) (k : Nat) (s : Space) (t : Tag) : (sendAck c k s t).sns = c.sns := by simp [sendAck]
@[simp] theorem ackNews_sns (c : Ctl) : (ackNews c).sns = c.sns := by
  unfold ackNews; split
  · split
    · exact sendAck_sns _ _ _ _
    · rfl
  · rfl
@[simp] theorem txPump_budget (c : Ctl) (k : Nat) : (txPump c k).budget = c.budget := foldl_same (fun c => c.budget) _ (fun c _ => txOne_budget c k) _ c
@[simp] theorem txPut_budget (c : Ctl) (k : Nat) (m : Msg) : (txPut c k m).budget = c.budget := by simp [txPut]
@[simp] theorem sendOn_budget (c : Ctl) (k : Nat) (s : Space) (x : Cont) (m : Tag → Msg) : (sendOn c k s x m).budget = c.budget := by simp [sendOn]
@[simp] theorem sendAck_budget (c : Ctl) (k : Nat) (s : Space) (t : Tag) : (sendAck c k s t).budget = c.budget := by simp [sendAck]
@[simp] theorem ackNews_budget (c : Ctl) : (ackNews c).budget = c.budget := by
  unfold ackNews; split
  · split
    · exact sendAck_budget _ _ _ _
    · rfl
  · rfl
@[simp] theorem txPump_mgmt (c : Ctl) (k : Nat) : (txPump c k).mgmt = c.mgmt := foldl_same (fun c => c.mgmt) _ (fun c _ => txOne_mgmt c k) _ c
@[simp] theorem txPut_mgmt (c : Ctl) (k : Nat) (m : Msg) : (txPut c k m).mgmt = c.mgmt := by simp [txPut]
@[simp] theorem sendOn_mgmt (c : Ctl) (k : Nat) (s : Space) (x : Cont) (m : Tag → Msg) : (sendOn c k s x m).mgmt = c.mgmt := by simp [sendOn]
@[simp] theorem sendAck_mgmt (c : Ctl) (k : Nat) (s : Space) (t : Tag) : (sendAck c k s t).mgmt = c.mgmt := by simp [sendAck]
@[simp] theorem ackNews_mgmt (c : Ctl) : (ackNews c).mgmt = c.mgmt := by
  unfold ackNews; split
  · split
    · exact sendAck_mgmt _ _ _ _
    · rfl
  · rfl
@[simp] theorem txPump_heads (c : Ctl) (k : Nat) : (txPump c k).heads = c.heads := foldl_same (fun c => c.heads) _ (fun c _ => txOne_heads c k) _ c
@[simp] theorem txPut_heads (c : Ctl) (k : Nat) (m : Msg) : (txPut c k m).heads = c.heads := by simp [txPut]
@[simp] theorem sendOn_heads (c : Ctl) (k : Nat) (s : Space) (x : Cont) (m : Tag → Msg) : (sendOn c k s x m).heads = c.heads := by simp [sendOn]
@[simp] theorem sendAck_heads (c : Ctl) (k : Nat) (s : Space) (t : Tag) : (sendAck c k s t).heads = c.heads := by simp [sendAck]
@[simp] theorem ackNews_heads (c : Ctl) : (ackNews c).heads = c.heads := by
  unfold ackNews; split
  · split
    · exact sendAck_heads _ _ _ _
    · rfl
  · rfl
@[simp] theorem txPump_lds (c : Ctl) (k : Nat) : (txPump c k).lds = c.lds := foldl_same (fun c => c.lds) _ (fun c _ => txOne_lds c k) _ c
@[simp] theorem txPut_lds (c : Ctl) (k : Nat) (m : Msg) : (txPut c k m).lds = c.lds := by simp [txPut]
@[simp] theorem sendOn_lds (c : Ctl) (k : Nat) (s : Space) (x : Cont) (m : Tag → Msg) : (sendOn c k s x m).lds = c.lds := by simp [sendOn]
@[simp] theorem sendAck_lds (c : Ctl) (k : Nat) (s : Space) (t : Tag) : (sendAck c k s t).lds = c.lds := by simp [sendAck]
@[simp] theorem ackNews_lds (c : Ctl) : (ackNews c).lds = c.lds := by
  unfold ackNews; split
  · split
    · exact sendAck_lds _ _ _ _
    · rfl
  · rfl
@[simp] theorem txPump_halls (c : Ctl) (k : Nat) : (txPump c k).halls = c.halls := foldl_same (fun c => c.halls) _ (fun c _ => txOne_halls c k) _ c
@[simp] theorem txPut_halls (c : Ctl) (k : Nat) (m : Msg) : (txPut c k m).halls = c.halls := by simp [txPut]
@[simp] theorem sendOn_halls (c : Ctl) (k : Nat) (s : Space) (x : Cont) (m : Tag → Msg) : (sendOn c k s x m).halls = c.halls := by simp [sendOn]
@[simp] theorem sendAck_halls (c : Ctl) (k : Nat) (s : Space) (t : Tag) : (sendAck c k s t).halls = c.halls := by simp [sendAck]
@[simp] theorem ackNews_halls (c : Ctl) : (ackNews c).halls = c.halls := by
  unfold ackNews; split
  · split
    · exact sendAck_halls _ _ _ _
    · rfl
  · rfl
@[simp] theorem txPump_snoops (c : Ctl) (k : Nat) : (txPump c k).snoops = c.snoops := foldl_same (fun c => c.snoops) _ (fun c _ => txOne_snoops c k) _ c
@[simp] theorem txPut_snoops (c : Ctl) (k : Nat) (m : Msg) : (txPut c k m).snoops = c.snoops := by simp [txPut]
@[simp] theorem sendOn_snoops (c : Ctl) (k : Nat) (s : Space) (x : Cont) (m : Tag → Msg) : (sendOn c k s x m).snoops = c.snoops := by simp [sendOn]
@[simp] theorem sendAck_snoops (c : Ctl) (k : Nat) (s : Space) (t : Tag) : (sendAck c k s t).snoops = c.snoops := by simp [sendAck]
@[simp] theorem ackNews_snoops (c : Ctl) : (ackNews c).snoops = c.snoops := by
  unfold ackNews; split
  · split
    · exact sendAck_snoops _ _ _ _
    · rfl
  · rfl
@[simp] theorem txPump_releases (c : Ctl) (k : Nat) : (txPump c k).releases = c.releases := foldl_same (fun c => c.releases) _ (fun c _ => txOne_releases c k) _ c
@[simp] theorem txPut_releases (c : Ctl) (k : Nat) (m : Msg) : (txPut c k m).releases = c.releases := by simp [txPut]
@[simp] theorem sendOn_releases (c : Ctl) (k : Nat) (s : Space) (x : Cont) (m : Tag → Msg) : (sendOn c k s x m).releases = c.releases := by simp [sendOn]
@[simp] theorem sendAck_releases (c : Ctl) (k : Nat) (s : Space) (t : Tag) : (sendAck c k s t).releases = c.releases := by simp [sendAck]
@[simp] theorem ackNews_releases (c : Ctl) : (ackNews c).releases = c.releases := by
  unfold ackNews; split
  · split
    · exact sendAck_releases _ _ _ _
    · rfl
  · rfl
@[simp] theorem txPump_tenants (c : Ctl) (k : Nat) : (txPump c k).tenants = c.tenants := foldl_same (fun c => c.tenants) _ (fun c _ => txOne_tenants c k) _ c
@[simp] theorem txPut_tenants (c : Ctl) (k : Nat) (m : Msg) : (txPut c k m).tenants = c.tenants := by simp [txPut]
@[simp] theorem sendOn_tenants (c : Ctl) (k : Nat) (s : Space) (x : Cont) (m : Tag → Msg) : (sendOn c k s x m).tenants = c.tenants := by simp [sendOn]
@[simp] theorem sendAck_tenants (c : Ctl) (k : Nat) (s : Space) (t : Tag) : (sendAck c k s t).tenants = c.tenants := by simp [sendAck]
@[simp] theorem ackNews_tenants (c : Ctl) : (ackNews c).tenants = c.tenants := by
  unfold ackNews; split
  · split
    · exact sendAck_tenants _ _ _ _
    · rfl
  · rfl
@[simp] theorem txPump_gals (c : Ctl) (k : Nat) : (txPump c k).gals = c.gals := foldl_same (fun c => c.gals) _ (fun c _ => txOne_gals c k) _ c
@[simp] theorem txPut_gals (c : Ctl) (k : Nat) (m : Msg) : (txPut c k m).gals = c.gals := by simp [txPut]
@[simp] theorem sendOn_gals (c : Ctl) (k : Nat) (s : Space) (x : Cont) (m : Tag → Msg) : (sendOn c k s x m).gals = c.gals := by simp [sendOn]
@[simp] theorem sendAck_gals (c : Ctl) (k : Nat) (s : Space) (t : Tag) : (sendAck c k s t).gals = c.gals := by simp [sendAck]
@[simp] theorem ackNews_gals (c : Ctl) : (ackNews c).gals = c.gals := by
  unfold ackNews; split
  · split
    · exact sendAck_gals _ _ _ _
    · rfl
  · rfl
@[simp] theorem txPump_dchs (c : Ctl) (k : Nat) : (txPump c k).dchs = c.dchs := foldl_same (fun c => c.dchs) _ (fun c _ => txOne_dchs c k) _ c
@[simp] theorem txPut_dchs (c : Ctl) (k : Nat) (m : Msg) : (txPut c k m).dchs = c.dchs := by simp [txPut]
@[simp] theorem sendOn_dchs (c : Ctl) (k : Nat) (s : Space) (x : Cont) (m : Tag → Msg) : (sendOn c k s x m).dchs = c.dchs := by simp [sendOn]
@[simp] theorem sendAck_dchs (c : Ctl) (k : Nat) (s : Space) (t : Tag) : (sendAck c k s t).dchs = c.dchs := by simp [sendAck]
@[simp] theorem ackNews_dchs (c : Ctl) : (ackNews c).dchs = c.dchs := by
  unfold ackNews; split
  · split
    · exact sendAck_dchs _ _ _ _
    · rfl
  · rfl
@[simp] theorem txPump_reqs (c : Ctl) (k : Nat) : (txPump c k).reqs = c.reqs := foldl_same (fun c => c.reqs) _ (fun c _ => txOne_reqs c k) _ c
@[simp] theorem txPut_reqs (c : Ctl) (k : Nat) (m : Msg) : (txPut c k m).reqs = c.reqs := by simp [txPut]
@[simp] theorem sendOn_reqs (c : Ctl) (k : Nat) (s : Space) (x : Cont) (m : Tag → Msg) : (sendOn c k s x m).reqs = c.reqs := by simp [sendOn]
@[simp] theorem sendAck_reqs (c : Ctl) (k : Nat) (s : Space) (t : Tag) : (sendAck c k s t).reqs = c.reqs := by simp [sendAck]
@[simp] theorem ackNews_reqs (c : Ctl) : (ackNews c).reqs = c.reqs := by
  unfold ackNews; split
  · split
    · exact sendAck_reqs _ _ _ _
    · rfl
  · rfl
@[simp] theorem txPump_nextReq (c : Ctl) (k : Nat) : (txPump c k).nextReq = c.nextReq := foldl_same (fun c => c.nextReq) _ (fun c _ => txOne_nextReq c k) _ c
@[simp] theorem txPut_nextReq (c : Ctl) (k : Nat) (m : Msg) : (txPut c k m).nextReq = c.nextReq := by simp [txPut]
@[simp] theorem sendOn_nextReq (c : Ctl) (k : Nat) (s : Space) (x : Cont) (m : Tag → Msg) : (sendOn c k s x m).nextReq = c.nextReq := by simp [sendOn]
@[simp] theorem sendAck_nextReq (c : Ctl) (k : Nat) (s : Space) (t : Tag) : (sendAck c k s t).nextReq = c.nextReq := by simp [sendAck]
@[simp] theorem ackNews_nextReq (c : Ctl) : (ackNews c).nextReq = c.nextReq := by
  unfold ackNews; split
  · split
    · exact sendAck_nextReq _ _ _ _
    · rfl
  · rfl
@[simp] theorem txPump_pair (c : Ctl) (k : Nat) : (txPump c k).pair = c.pair := foldl_same (fun c => c.pair) _ (fun c _ => txOne_pair c k) _ c
@[simp] theorem txPut_pair (c : Ctl) (k : Nat) (m : Msg) : (txPut c k m).pair = c.pair := by simp [txPut]
@[simp] theorem sendOn_pair (c : Ctl) (k : Nat) (s : Space) (x : Cont) (m : Tag → Msg) : (sendOn c k s x m).pair = c.pair := by simp [sendOn]
@[simp] theorem sendAck_pair (c : Ctl) (k : Nat) (s : Space) (t : Tag) : (sendAck c k s t).pair = c.pair := by simp [sendAck]
@[simp] theorem ackNews_pair (c : Ctl) : (ackNews c).pair = c.pair := by
  unfold ackNews; split
  · split
    · exact sendAck_pair _ _ _ _
    · rfl
  · rfl
@[simp] theorem txPump_svr (c : Ctl) (k : Nat) : (txPump c k).svr = c.svr := foldl_same (fun c => c.svr) _ (fun c _ => txOne_svr c k) _ c
@[simp] theorem txPut_svr (c : Ctl) (k : Nat) (m : Msg) : (txPut c k m).svr = c.svr := by simp [txPut]
@[simp] theorem sendOn_svr (c : Ctl) (k : Nat) (s : Space) (x : Cont) (m : Tag → Msg) : (sendOn c k s x m).svr = c.svr := by simp [sendOn]
@[simp] theorem sendAck_svr (c : Ctl) (k : Nat) (s : Space) (t : Tag) : (sendAck c k s t).svr = c.svr := by simp [sendAck]
@[simp] theorem ackNews_svr (c : Ctl) : (ackNews c).svr = c.svr := by
  unfold ackNews; split
  · split
    · exact sendAck_svr _ _ _ _
    · rfl
  · rfl
@[simp] theorem txPump_vlt (c : Ctl) (k : Nat) : (txPump c k).vlt = c.vlt := foldl_same (fun c => c.vlt) _ (fun c _ => txOne_vlt c k) _ c
@[simp] theorem txPut_vlt (c : Ctl) (k : Nat) (m : Msg) : (txPut c k m).vlt = c.vlt := by simp [txPut]
@[simp] theorem sendOn_vlt (c : Ctl) (k : Nat) (s : Space) (x : Cont) (m : Tag → Msg) : (sendOn c k s x m).vlt = c.vlt := by simp [sendOn]
@[simp] theorem sendAck_vlt (c : Ctl) (k : Nat) (s : Space) (t : Tag) : (sendAck c k s t).vlt = c.vlt := by simp [sendAck]
@[simp] theorem ackNews_vlt (c : Ctl) : (ackNews c).vlt = c.vlt := by
  unfold ackNews; split
  · split
    · exact sendAck_vlt _ _ _ _
    · rfl
  · rfl
@[simp] theorem txPump_rings (c : Ctl) (k : Nat) : (txPump c k).rings = c.rings := foldl_same (fun c => c.rings) _ (fun c _ => txOne_rings c k) _ c
@[simp] theorem txPut_rings (c : Ctl) (k : Nat) (m : Msg) : (txPut c k m).rings = c.rings := by simp [txPut]
@[simp] theorem sendOn_rings (c : Ctl) (k : Nat) (s : Space) (x : Cont) (m : Tag → Msg) : (sendOn c k s x m).rings = c.rings := by simp [sendOn]
@[simp] theorem sendAck_rings (c : Ctl) (k : Nat) (s : Space) (t : Tag) : (sendAck c k s t).rings = c.rings := by simp [sendAck]
@[simp] theorem ackNews_rings (c : Ctl) : (ackNews c).rings = c.rings := by
  unfold ackNews; split
  · split
    · exact sendAck_rings _ _ _ _
    · rfl
  · rfl
@[simp] theorem txPump_flights (c : Ctl) (k : Nat) : (txPump c k).flights = c.flights := foldl_same (fun c => c.flights) _ (fun c _ => txOne_flights c k) _ c
@[simp] theorem txPut_flights (c : Ctl) (k : Nat) (m : Msg) : (txPut c k m).flights = c.flights := by simp [txPut]
@[simp] theorem sendOn_flights (c : Ctl) (k : Nat) (s : Space) (x : Cont) (m : Tag → Msg) : (sendOn c k s x m).flights = c.flights := by simp [sendOn]
@[simp] theorem sendAck_flights (c : Ctl) (k : Nat) (s : Space) (t : Tag) : (sendAck c k s t).flights = c.flights := by simp [sendAck]
@[simp] theorem ackNews_flights (c : Ctl) : (ackNews c).flights = c.flights := by
  unfold ackNews; split
  · split
    · exact sendAck_flights _ _ _ _
    · rfl
  · rfl
@[simp] theorem txPump_fgen (c : Ctl) (k : Nat) : (txPump c k).fgen = c.fgen := foldl_same (fun c => c.fgen) _ (fun c _ => txOne_fgen c k) _ c
@[simp] theorem txPut_fgen (c : Ctl) (k : Nat) (m : Msg) : (txPut c k m).fgen = c.fgen := by simp [txPut]
@[simp] theorem sendOn_fgen (c : Ctl) (k : Nat) (s : Space) (x : Cont) (m : Tag → Msg) : (sendOn c k s x m).fgen = c.fgen := by simp [sendOn]
@[simp] theorem sendAck_fgen (c : Ctl) (k : Nat) (s : Space) (t : Tag) : (sendAck c k s t).fgen = c.fgen := by simp [sendAck]
@[simp] theorem ackNews_fgen (c : Ctl) : (ackNews c).fgen = c.fgen := by
  unfold ackNews; split
  · split
    · exact sendAck_fgen _ _ _ _
    · rfl
  · rfl
@[simp] theorem txPump_commitSeq (c : Ctl) (k : Nat) : (txPump c k).commitSeq = c.commitSeq := foldl_same (fun c => c.commitSeq) _ (fun c _ => txOne_commitSeq c k) _ c
@[simp] theorem txPut_commitSeq (c : Ctl) (k : Nat) (m : Msg) : (txPut c k m).commitSeq = c.commitSeq := by simp [txPut]
@[simp] theorem sendOn_commitSeq (c : Ctl) (k : Nat) (s : Space) (x : Cont) (m : Tag → Msg) : (sendOn c k s x m).commitSeq = c.commitSeq := by simp [sendOn]
@[simp] theorem sendAck_commitSeq (c : Ctl) (k : Nat) (s : Space) (t : Tag) : (sendAck c k s t).commitSeq = c.commitSeq := by simp [sendAck]
@[simp] theorem ackNews_commitSeq (c : Ctl) : (ackNews c).commitSeq = c.commitSeq := by
  unfold ackNews; split
  · split
    · exact sendAck_commitSeq _ _ _ _
    · rfl
  · rfl
@[simp] theorem txPump_flightCount (c : Ctl) (k : Nat) : (txPump c k).flightCount = c.flightCount := foldl_same (fun c => c.flightCount) _ (fun c _ => txOne_flightCount c k) _ c
@[simp] theorem txPut_flightCount (c : Ctl) (k : Nat) (m : Msg) : (txPut c k m).flightCount = c.flightCount := by simp [txPut]
@[simp] theorem sendOn_flightCount (c : Ctl) (k : Nat) (s : Space) (x : Cont) (m : Tag → Msg) : (sendOn c k s x m).flightCount = c.flightCount := by simp [sendOn]
@[simp] theorem sendAck_flightCount (c : Ctl) (k : Nat) (s : Space) (t : Tag) : (sendAck c k s t).flightCount = c.flightCount := by simp [sendAck]
@[simp] theorem ackNews_flightCount (c : Ctl) : (ackNews c).flightCount = c.flightCount := by
  unfold ackNews; split
  · split
    · exact sendAck_flightCount _ _ _ _
    · rfl
  · rfl
@[simp] theorem txPump_flightAbandoned (c : Ctl) (k : Nat) : (txPump c k).flightAbandoned = c.flightAbandoned := foldl_same (fun c => c.flightAbandoned) _ (fun c _ => txOne_flightAbandoned c k) _ c
@[simp] theorem txPut_flightAbandoned (c : Ctl) (k : Nat) (m : Msg) : (txPut c k m).flightAbandoned = c.flightAbandoned := by simp [txPut]
@[simp] theorem sendOn_flightAbandoned (c : Ctl) (k : Nat) (s : Space) (x : Cont) (m : Tag → Msg) : (sendOn c k s x m).flightAbandoned = c.flightAbandoned := by simp [sendOn]
@[simp] theorem sendAck_flightAbandoned (c : Ctl) (k : Nat) (s : Space) (t : Tag) : (sendAck c k s t).flightAbandoned = c.flightAbandoned := by simp [sendAck]
@[simp] theorem ackNews_flightAbandoned (c : Ctl) : (ackNews c).flightAbandoned = c.flightAbandoned := by
  unfold ackNews; split
  · split
    · exact sendAck_flightAbandoned _ _ _ _
    · rfl
  · rfl
@[simp] theorem txPump_partnerApplied (c : Ctl) (k : Nat) : (txPump c k).partnerApplied = c.partnerApplied := foldl_same (fun c => c.partnerApplied) _ (fun c _ => txOne_partnerApplied c k) _ c
@[simp] theorem txPut_partnerApplied (c : Ctl) (k : Nat) (m : Msg) : (txPut c k m).partnerApplied = c.partnerApplied := by simp [txPut]
@[simp] theorem sendOn_partnerApplied (c : Ctl) (k : Nat) (s : Space) (x : Cont) (m : Tag → Msg) : (sendOn c k s x m).partnerApplied = c.partnerApplied := by simp [sendOn]
@[simp] theorem sendAck_partnerApplied (c : Ctl) (k : Nat) (s : Space) (t : Tag) : (sendAck c k s t).partnerApplied = c.partnerApplied := by simp [sendAck]
@[simp] theorem ackNews_partnerApplied (c : Ctl) : (ackNews c).partnerApplied = c.partnerApplied := by
  unfold ackNews; split
  · split
    · exact sendAck_partnerApplied _ _ _ _
    · rfl
  · rfl
@[simp] theorem txPump_poisonOver (c : Ctl) (k : Nat) : (txPump c k).poisonOver = c.poisonOver := foldl_same (fun c => c.poisonOver) _ (fun c _ => txOne_poisonOver c k) _ c
@[simp] theorem txPut_poisonOver (c : Ctl) (k : Nat) (m : Msg) : (txPut c k m).poisonOver = c.poisonOver := by simp [txPut]
@[simp] theorem sendOn_poisonOver (c : Ctl) (k : Nat) (s : Space) (x : Cont) (m : Tag → Msg) : (sendOn c k s x m).poisonOver = c.poisonOver := by simp [sendOn]
@[simp] theorem sendAck_poisonOver (c : Ctl) (k : Nat) (s : Space) (t : Tag) : (sendAck c k s t).poisonOver = c.poisonOver := by simp [sendAck]
@[simp] theorem ackNews_poisonOver (c : Ctl) : (ackNews c).poisonOver = c.poisonOver := by
  unfold ackNews; split
  · split
    · exact sendAck_poisonOver _ _ _ _
    · rfl
  · rfl
@[simp] theorem txPump_throttling (c : Ctl) (k : Nat) : (txPump c k).throttling = c.throttling := foldl_same (fun c => c.throttling) _ (fun c _ => txOne_throttling c k) _ c
@[simp] theorem txPut_throttling (c : Ctl) (k : Nat) (m : Msg) : (txPut c k m).throttling = c.throttling := by simp [txPut]
@[simp] theorem sendOn_throttling (c : Ctl) (k : Nat) (s : Space) (x : Cont) (m : Tag → Msg) : (sendOn c k s x m).throttling = c.throttling := by simp [sendOn]
@[simp] theorem sendAck_throttling (c : Ctl) (k : Nat) (s : Space) (t : Tag) : (sendAck c k s t).throttling = c.throttling := by simp [sendAck]
@[simp] theorem ackNews_throttling (c : Ctl) : (ackNews c).throttling = c.throttling := by
  unfold ackNews; split
  · split
    · exact sendAck_throttling _ _ _ _
    · rfl
  · rfl
@[simp] theorem txPump_free (c : Ctl) (k : Nat) : (txPump c k).free = c.free := foldl_same (fun c => c.free) _ (fun c _ => txOne_free c k) _ c
@[simp] theorem txPut_free (c : Ctl) (k : Nat) (m : Msg) : (txPut c k m).free = c.free := by simp [txPut]
@[simp] theorem sendOn_free (c : Ctl) (k : Nat) (s : Space) (x : Cont) (m : Tag → Msg) : (sendOn c k s x m).free = c.free := by simp [sendOn]
@[simp] theorem sendAck_free (c : Ctl) (k : Nat) (s : Space) (t : Tag) : (sendAck c k s t).free = c.free := by simp [sendAck]
@[simp] theorem ackNews_free (c : Ctl) : (ackNews c).free = c.free := by
  unfold ackNews; split
  · split
    · exact sendAck_free _ _ _ _
    · rfl
  · rfl

/-- Alone, or in a mode without a partner, no ACK is due (R189). -/
theorem ackNews_alone {c : Ctl} (h : pairedNow c = false) : ackNews c = c := by
  unfold ackNews; split
  · simp [h]
  · rfl

/-- What the partner already knows is not said again (R189). -/
theorem ackNews_said {c : Ctl} (h : c.twin.ackSaid = (ackDelay c, atCeiling c)) : ackNews c = c := by
  unfold ackNews; split
  · simp [h]
  · rfl

/-! ## What a raised source leaves behind (R385, R393) -/

theorem mem_enqueueMsg (w : List FMsg) (m : FMsg) : ∃ x ∈ enqueueMsg w m, x.source = m.source := by
  unfold enqueueMsg
  split
  · rename_i h
    induction w with
    | nil => simp at h
    | cons a l ih =>
      by_cases e : (a.source == m.source) = true
      · exact ⟨_, by simp [modFirst, e]; exact Or.inl rfl, by simpa using e⟩
      · obtain ⟨x, hx, hs⟩ := ih (by simpa [e] using h)
        exact ⟨x, by simp [modFirst, e, hx], hs⟩
  · exact ⟨m, by simp, rfl⟩

/-- A source that exists has its message at the root once it is raised, in every state but OFF and RESET_N low. -/
theorem raised_raiseAt {c : Ctl} (on : aonOn c = true) {s : Nat} (d : srcDefined s = true) (k a i x : Nat) : Raised (raiseAt c s k a i x) s := by
  unfold raiseAt raiseMsg Raised
  simp only [on, d, Bool.and_self, if_true]
  refine ⟨?_, mem_enqueueMsg _ _⟩
  simp [srcAt, onSrc, tgetD_tmod_same]

theorem raised_raiseF {c : Ctl} (on : aonOn c = true) {s : Nat} (d : srcDefined s = true) (k : Nat) : Raised (raiseF c s k) s := raised_raiseAt on d _ _ _ _

/-! ## Register writes (R11, R468, R503) -/

/-- A write that passes its checks has its effect; any other leaves what its failed check leaves. -/
theorem regWrite_ok {c : Ctl} {ini off size : Nat} {f : Ctl → Ctl} (h : gateOf c ini off size true = .ok) : regWrite c ini off size f = f c := by
  unfold regWrite; rw [h]

theorem regWrite_fail {c : Ctl} {ini off size : Nat} {f : Ctl → Ctl} (h : gateOf c ini off size true ≠ .ok) :
    regWrite c ini off size f = gateFail c (gateOf c ini off size true) ini off true := by
  unfold regWrite; split
  · rename_i e; exact absurd e h
  · rfl

/-- The checks of a register write pass for an aligned access of 8 B by an initiator that reaches the device, has the right, and whose register's
domain runs. -/
theorem gateOf_ok {c : Ctl} {ini off : Nat} {wr : Bool} (reach : canReach c ini = true) (al : off % 8 = 0)
    (right : accessRight c (blkOf off) ini wr = true) (runs : blkAnswers c (blkOf off) off = true) : gateOf c ini off 8 wr = .ok := by
  simp [gateOf, reach, al, right, runs]

/-- What a failed check may change. -/
theorem gateFail_same (c : Ctl) (g : GateRes) (ini off : Nat) (wr : Bool) :
    (gateFail c g ini off wr).glb = c.glb ∧ (gateFail c g ini off wr).rtc = c.rtc ∧ (gateFail c g ini off wr).boot = c.boot
      ∧ (gateFail c g ini off wr).rings = c.rings ∧ (gateFail c g ini off wr).seq = c.seq := by
  have v : ∀ k l, (violate c ini off 6 k l).glb = c.glb ∧ (violate c ini off 6 k l).rtc = c.rtc ∧ (violate c ini off 6 k l).boot = c.boot
      ∧ (violate c ini off 6 k l).rings = c.rings ∧ (violate c ini off 6 k l).seq = c.seq := by
    intro k l; unfold violate; dsimp only; (repeat' split) <;> simp
  cases g with
  | ok => exact ⟨rfl, rfl, rfl, rfl, rfl⟩
  | silent => exact ⟨rfl, rfl, rfl, rfl, rfl⟩
  | badSize => simpa [gateFail] using v 8 0xFFFFFFFF
  | noRight => simpa [gateFail] using v (rightKind off) 0xFFFFFFFF
  | stopped => unfold gateFail; dsimp only; split <;> simp

end Sys2Proof.Machine
end

