-- ==== Sys2Proof/Machine/Media.lean ====
section
/-! DEFINITION. Machine/Media.lean: the bytes that the vault's pages hold: tags, headers, slabs and the streams of a save (R253 to R259, R295 to R297,
R303, R305, R317), made from what the state holds of them. -/
namespace Sys2Proof.Machine

/-! ## Locations and tags -/

/-- VADDR of a codeword (R297); bit 63 is VALID. -/
def vaddrFull (t key page cw : Nat) : Nat := 2 ^ 63 + vaddrOf t (key / 65536) (key % 65536) + page * 2 ^ 2 + cw

/-- The wordline of a data page: of a block in SLC mode (R293), of one in TLC mode (R297). -/
def slcWordline (page : Nat) : Nat := page + 1
def tlcWordline (page : Nat) : Nat := page / 3 + 1

/-- The 32 B landing tag of a codeword (R253). -/
def landTag (seq kind gal cw index : Nat) (poison : Word) (data : List Byte) : List Byte :=
  let l := bytesOf 8 seq ++ bytesOf 1 kind ++ bytesOf 1 (gal + 64 * cw) ++ bytesOf 2 0 ++ bytesOf 4 index ++ bytesOf 8 poison.toNat ++ bytesOf 4 0
  l ++ bytesOf 4 (crc32c (data ++ l))

/-- The 32 B archive tag of a codeword (R296). -/
def archTag (seq kind gal cw count index : Nat) (poison vaultId : Word) (data : List Byte) : List Byte :=
  let l := bytesOf 8 seq ++ bytesOf 1 kind ++ bytesOf 1 (gal + 64 * cw) ++ bytesOf 2 count ++ bytesOf 4 index ++ bytesOf 8 poison.toNat
    ++ bytesOf 4 (vaultId.toNat % 2 ^ 32)
  l ++ bytesOf 4 (crc32c (data ++ l))

/-- Bytes filled up with zeros to a length. -/
def padTo (n : Nat) (l : List Byte) : List Byte := l ++ List.replicate (n - l.length) 0

/-- The four codewords of a page's 16 KiB (R295). -/
def pageCws (l : List Byte) : List (List Byte) := (List.range 4).map (fun c => padTo 4096 ((l.drop (4096 * c)).take 4096))

/-! ## Blocks (R317) -/

def magicBlock : Nat := 0x4B4F4C424E4C564E
def magicSave : Nat := 0x455641534E4C564E

/-- The header that every codeword of wordline 0 carries (R317). -/
def blockHeader (v : Vlt) (k : Nat) : List Byte :=
  let b := blockAt v k
  padTo 4096 (bytesOf 8 magicBlock ++ bytesOf 8 v.vaultId.toNat ++ bytesOf 8 b.esn ++ bytesOf 8 (vaddrFull v.targets k 0 0)
    ++ bytesOf 1 b.use ++ bytesOf 3 0 ++ bytesOf 4 b.pe ++ bytesOf 8 b.erased.toNat)

/-- The header's tag (R296). -/
def blockHeaderTag (v : Vlt) (k cw : Nat) : List Byte := archTag (blockAt v k).esn 0x18 0 cw 0 0 0 v.vaultId (blockHeader v k)

/-! ## The archive (R303, R305) -/

/-- A riser's number within its gallery (R143); `perGal` is the halls of a gallery. -/
def galRiser (perGal r : Nat) : Nat := if perGal == 0 then r else r % (perGal * risersPerGib)

/-- An entry of a slab's descriptor (R303). -/
def slabEntry (perGal : Nat) (x : RiserCopy) : List Byte := bytesOf 8 (galRiser perGal x.riser + x.poison.toNat * 2 ^ 33)

/-- The descriptor of a log slab (R303). -/
def slabDesc (perGal : Nat) (s : Slab) : List Byte :=
  padTo 512 (bytesOf 8 s.firstAsn ++ bytesOf 2 s.risers.length ++ bytesOf 6 0 ++ s.risers.flatMap (slabEntry perGal))

/-- A log slab's page (R303): the descriptor, then up to 62 risers. -/
def slabPage (perGal : Nat) (s : Slab) : List Byte := padTo 16384 (slabDesc perGal s ++ s.risers.flatMap (fun x => riserBytes x.data))

/-- The tag of a slab's codeword (R296). -/
def slabTag (v : Vlt) (perGal : Nat) (s : Slab) (cw : Nat) : List Byte :=
  archTag s.firstAsn 0x10 s.gal cw s.risers.length 0 0 v.vaultId ((pageCws (slabPage perGal s)).getD cw [])

/-- Line poison of copies in address order, one bit a line. -/
def poisonBits (l : List RiserCopy) : Nat := l.foldr (fun x n => x.poison.toNat + 16 * n) 0

/-- The codeword of a base (R305): the tread's 16 risers, and its tag, with the tread's number within the gallery. -/
def baseBytes (b : Base) : List Byte := padTo 4096 (b.risers.flatMap (fun x => riserBytes x.data))
def baseTag (v : Vlt) (perGal gal tread : Nat) (b : Base) (cw : Nat) : List Byte :=
  archTag b.asn 0x11 gal cw 0 (galRiser perGal (16 * tread) / 16) (BitVec.ofNat 64 (poisonBits b.risers)) v.vaultId (baseBytes b)

/-- A tread-map entry (R305): the VADDR of the base, whose VALID is 0 where none exists, and BASE_ASN. -/
def treadEntry (vaddr asn : Nat) : List Byte := bytesOf 8 vaddr ++ bytesOf 8 asn

/-! ## The streams of a save (R254 to R258) -/

/-- Halls of a gallery as a save record implies them (R19, R259). -/
def SaveRec.perGal (s : SaveRec) : Nat := s.halls / 8

/-- The gallery of a saved riser. -/
def SaveRec.galOf (s : SaveRec) (r : Nat) : Nat := if s.perGal == 0 then 0 else r / (s.perGal * risersPerGib)

/-- The DATA stream of a gallery: its risers in ascending address. -/
def dataOf (s : SaveRec) (g : Nat) : List RiserCopy := s.data.filter (fun x => s.galOf x.riser == g)

/-- The 64 KiB blocks of a gallery with a saved riser, ascending (R255). -/
def extractBlocks (s : SaveRec) (g : Nat) : List Nat := ((dataOf s g).map (fun x => galRiser s.perGal x.riser / 256)).eraseDups

/-- The mask of a tread in an EXTRACT entry (R255). -/
def treadMask (s : SaveRec) (g tread : Nat) : Nat :=
  ((dataOf s g).filter (fun x => galRiser s.perGal x.riser / 16 == tread)).foldl (fun n x => n + 2 ^ (x.riser % 16)) 0

/-- An EXTRACT entry (R255). -/
def extractEntry (s : SaveRec) (g blk : Nat) : List Byte :=
  bytesOf 4 blk ++ (List.range 16).flatMap (fun i => bytesOf 2 (treadMask s g (16 * blk + i)))

/-- Pieces of n of a list. -/
def piecesOf {α : Type} (n : Nat) : Nat → List α → List (List α)
  | 0, _ => []
  | k + 1, l => if l.isEmpty then [] else l.take n :: piecesOf n k (l.drop n)

/-- The codewords of an EXTRACT stream: up to 113 entries of 36 B in each (R254). -/
def extractCws (s : SaveRec) (g : Nat) : List (List Byte) :=
  let es := (extractBlocks s g).map (extractEntry s g)
  (piecesOf 113 es.length es).map (fun l => padTo 4096 l.flatten)

/-- The header codeword of a flight record (R256). -/
def flightHeader (f : FlightRec) : List Byte :=
  let j := journalBytes f.segs
  padTo 4096 (bytesOf 8 f.commitSeq ++ bytesOf 1 f.origin ++ bytesOf 1 f.slot ++ bytesOf 2 f.segs.length ++ bytesOf 4 (j.length / 16)
    ++ bytesOf 1 f.ld ++ bytesOf 1 0 ++ bytesOf 2 f.ring ++ bytesOf 4 (crc32c j))

/-- Bytes as whole units of 16 KiB. -/
def toUnits (l : List Byte) : List (List Byte) := (piecesOf 16384 l.length l).map (padTo 16384)

/-- The units of a flight record: the header, then the journal from codeword 1; each starts a new unit (R254, R256). -/
def flightUnitBytes (f : FlightRec) : List (List Byte) := toUnits (flightHeader f ++ journalBytes f.segs)

/-- A MAP entry (R257). -/
def mapWordOf (e : MapEnt) : Nat :=
  e.gen % 2 ^ 16 + (e.homeSide % 2) * 2 ^ 16 + (match e.mode with | .unassigned => 0 | .priv => 1 | .shared => 2) * 2 ^ 17 + b2n e.cold * 2 ^ 19
    + (e.sharers % 128) * 2 ^ 20 + (e.owner % 256) * 2 ^ 27 + (e.ownerSide % 2) * 2 ^ 35 + b2n e.sanitize * 2 ^ 36

def mapUnits (s : SaveRec) : List (List Byte) := toUnits (s.map.flatMap (fun e => bytesOf 8 (mapWordOf e)))

/-- The UNSETTLED stream (R254, R258): one 4 B tread number an entry. -/
def unsettledUnits (s : SaveRec) : List (List Byte) := toUnits (s.unsettled.flatMap (bytesOf 4))

/-- One bit per tread, bit 0 of byte 0 first (R254). -/
def treadBits (treads : Nat) (t : TreadSet) : List Byte :=
  (List.range ((treads + 7) / 8)).map (fun i => BitVec.ofNat 8 ((List.range 8).foldl (fun n k => if t.has (8 * i + k) then n + 2 ^ k else n) 0))

/-- The CHANGED stream (R258): the changed-since-separation bitmap, or the stale marks. -/
def changedUnits (s : SaveRec) : List (List Byte) :=
  match s.changed, s.staleMap with
  | some t, _ => toUnits (treadBits (s.halls * 262144) t)
  | none, some t => toUnits (treadBits (s.halls * 262144) t)
  | none, none => []

/-- The unit numbers of the streams of a KIND, and of a gallery for DATA and EXTRACT, in the order written. -/
def unitsOf (s : SaveRec) (kind : Nat) (gal : Option Nat) : List Nat :=
  ((s.units.zip s.kinds).filter (fun x => x.2.1 == kind && (match gal with | some g => x.2.2 == g | none => true))).map (fun x => x.1)

/-- The unit map in stream order (R254): DATA and EXTRACT by gallery, FLIGHT, MAP, UNSETTLED, CHANGED. -/
def unitMap (s : SaveRec) : List Nat :=
  (List.range 8).flatMap (fun g => unitsOf s 1 (some g)) ++ (List.range 8).flatMap (fun g => unitsOf s 2 (some g))
    ++ unitsOf s 3 none ++ unitsOf s 4 none ++ unitsOf s 5 none ++ unitsOf s 6 none

def unitMapUnits (s : SaveRec) : List (List Byte) := toUnits ((unitMap s).flatMap (bytesOf 4))

/-! ## The save record (R259) -/

def saveFlags (s : SaveRec) : Nat :=
  b2n s.pairedSave + 2 * b2n s.unsettledOvf + 4 * b2n s.changed.isSome + 8 * b2n s.staleMap.isSome + 16 * b2n s.warm + 32 * b2n s.restoring

/-- Codeword 0 of the save record up to its CRC (R259). -/
def recordHead (s : SaveRec) : List Byte :=
  padTo 0xFF8 (bytesOf 8 magicSave ++ bytesOf 2 1 ++ bytesOf 1 s.cause ++ bytesOf 1 s.fromSt ++ bytesOf 4 (saveFlags s)
    ++ bytesOf 8 s.seq ++ bytesOf 8 s.pred ++ bytesOf 8 s.asnCut ++ bytesOf 8 s.tTrigger.toNat ++ bytesOf 8 s.tCutoff.toNat ++ bytesOf 8 s.tRecord.toNat
    ++ bytesOf 2 s.pairEpoch ++ bytesOf 1 (s.incomplete.foldl (fun n g => n + 2 ^ g) 0) ++ bytesOf 1 s.dbEff ++ bytesOf 4 s.halls
    ++ bytesOf 2 s.dimmGib ++ bytesOf 2 s.holdV ++ bytesOf 4 s.unsettled.length ++ bytesOf 4 s.flights.length
    ++ bytesOf 4 (unitsOf s 3 none).length ++ bytesOf 4 (unitsOf s 4 none).length ++ bytesOf 4 (unitsOf s 5 none).length
    ++ bytesOf 4 (unitsOf s 6 none).length ++ bytesOf 4 (unitsOf s 7 none).length ++ bytesOf 8 0
    ++ (List.range 8).flatMap (fun g => bytesOf 4 (dataOf s g).length) ++ (List.range 8).flatMap (fun g => bytesOf 4 (extractBlocks s g).length))

/-- The unit of a save record (R259): codeword 0, then the unit numbers of the UNITMAP stream. Its CRC covers all but itself. -/
def recordUnit (s : SaveRec) : List Byte :=
  let tail := padTo 12288 ((unitsOf s 7 none).flatMap (bytesOf 4))
  recordHead s ++ bytesOf 8 (crc64 (recordHead s ++ tail)) ++ tail

/-- The tag of a record codeword (R253). -/
def recordTag (s : SaveRec) (cw : Nat) : List Byte := landTag s.seq 0x08 0 cw 0 0 ((pageCws (recordUnit s)).getD cw [])

/-- The poison word of a DATA codeword: bit i is line i of its 64 lines (R253). -/
def dataTag (s : SaveRec) (g unit cw : Nat) : List Byte :=
  let l := ((dataOf s g).drop (64 * unit + 16 * cw)).take 16
  landTag s.seq 0x01 g cw unit (BitVec.ofNat 64 (poisonBits l)) (padTo 4096 (l.flatMap (fun x => riserBytes x.data)))

end Sys2Proof.Machine
end

