-- ==== Sys2Proof/Tests/Slice0.lean ====
section
/-! SUPPORT. Tests/Slice0.lean: the tests of the model: ill-formed commands that WellFormed refuses, worked values of the spec, and for each
statement of Certificates/Slice0/Obligations.lean states and operands that meet the hypotheses of its clauses. -/
namespace Sys2Proof.Tests
open Sys2Proof Sys2Proof.Machine

/-! ## Small states -/

def bare (m : Mode) : Ctl := { Ctl.reset with glb := { Glb.reset with mode := m } }
def st (c : Ctl) : State := { pending := [], dev := { ctl := c, mem := Store.reset } }

/-- SERVICE.SOLO in the reference configuration: head 0 is up with two LDs, LD 0 of them with management rights; hall 3 is private to LD 0,
hall 4 is shared by LD 0 and LD 1 and homed here. -/
def soloC : Ctl := { bare .solo with
  dimm := { capGib := 256, rb := 3, perGal := 992, rate := 2 }
  heads := vmod Ctl.reset.heads 0 (fun h => { h with linkUp := true, ldCount := 2, mgmtLd := 1, memActive := 3 })
  halls := [(3, { Hall.fresh with mode := .priv, home := true, sharers := [{ slot := 0, here := true, ld := 0 }] }),
            (4, { Hall.fresh with mode := .shared, home := true, sharers := [{ slot := 0, here := true, ld := 0 }, { slot := 1, here := true, ld := 1 }] })] }


/-! ## The block as a whole -/

/-- States with an empty queue and with canonical memories: the one after reset and one that runs. -/
theorem witness_StepTakesTheFront : State.reset.pending = [] ∧ (st soloC).pending = [] ∧ State.reset.dev.mem.wf = true ∧ (st soloC).dev.mem.wf = true := by decide
/-- Every step answers here: reset's own, and one that takes a command. -/
theorem witness_EveryStepKeepsMemoryCanonical :
    ∃ s : State, s.dev.mem.wf = true ∧ s.pending = [.getBudget 0x60, .getEndpointId] := ⟨{ st soloC with pending := [.getBudget 0x60, .getEndpointId] }, by decide, rfl⟩
/-! ## Heads (chapter 3) -/

/-- Each kind of R90, with the first hall beyond the device's halls for kind 2, and Memory_Active 0 for kind 4. -/
theorem witness_MemoryViolations :
    aonOn soloC = true ∧ memArrives soloC 0 0 = true ∧ bitOf (headAt soloC 0).memActive 0 = true ∧ serving soloC = true
      ∧ decodeKind soloC 0 (7936 * 2 ^ 30) = 2 ∧ decodeKind soloC 0 (5 * 2 ^ 30) = 3 ∧ decodeKind soloC 0 (0x100000000000 + 3 * 2 ^ 30) = 3
      ∧ decodeKind soloC 1 (3 * 2 ^ 30) = 1 ∧ bitOf (headAt { soloC with heads := Ctl.reset.heads } 0).memActive 0 = false := by decide

/-- A dirty set within 2 GiB of its ceiling throttles writes to clean risers. -/
def throttledC : Ctl := { soloC with budget := { soloC.budget with throttleMax := 50 } }
/-- A burst with errors of one device, and of two. -/
def oneDev : EccRes := { errs := [(3, 7)] }
def twoDevs : EccRes := { errs := [(3, 0), (9, 1)] }

/-- The first and the last line of hall 3, with and without a throttle delay; bursts that can and that cannot be corrected. -/
theorem witness_PrivateHallAccess :
    aonOn soloC = true ∧ Idle soloC ∧ LdServed soloC 0 0 (3 * 2 ^ 30) ∧ LdServed soloC 0 0 (4 * 2 ^ 30 - 1)
      ∧ (hallAt soloC (hallOf (dpaOff (3 * 2 ^ 30)))).mode = .priv ∧ (hallAt soloC (hallOf (dpaOff (4 * 2 ^ 30 - 1)))).mode = .priv
      ∧ Store.reset.wf = true ∧ isDirty soloC (3 * 2 ^ 30) = false ∧ throttleNs soloC = 0
      ∧ Idle throttledC ∧ LdServed throttledC 0 0 (3 * 2 ^ 30) ∧ isDirty throttledC (3 * 2 ^ 30) = false ∧ 0 < throttleNs throttledC
      ∧ eccDecode (failedAt soloC (3 * 2 ^ 30)) oneDev = .corrected [3] ∧ eccDecode (failedAt soloC (3 * 2 ^ 30)) twoDevs = .uncorrectable := by
  simp only [Idle, LdServed, Plain]; decide

def hostWr (w : Wait) : Req := { Req.fresh (.host 0 0 7) 0 .write (3 * 2 ^ 30) (3 * 2 ^ 30) with id := 1, placed := true, wait := w }

def ackHeldC : Ctl := { soloC with twin := { soloC.twin with ackHeld := [(3, { orig := 0, seq := 9 }, true)] } }

/-- A throttled write, a mirror acknowledgement held, no write, and one write in progress. -/
theorem witness_DelayedCompletions :
    soloC.snoops = [] ∧ soloC.releases = [] ∧ soloC.tenants = [] ∧ (∀ k < 16, (headAt soloC k).gpf = []) ∧ (hostWr .throttle).src = .host 0 0 7
      ∧ (hostWr .throttle).wait = .throttle ∧ (headAt soloC 0).linkUp = true ∧ serving soloC = true ∧ soloC.reqs = [] ∧ (hostWr .ack).isWrite = true
      ∧ ackHeldC.twin.ackHeld = [((3 : Fin 4).val, { orig := 0, seq := 9 }, true)] := by decide

def ld0 : Holder := { here := true, ld := 0 }
/-- LD 0 holds the first line of hall 4. -/
def heldC (st : DirState) : Ctl := { soloC with gals := vmod Ctl.reset.gals 0 (fun g => { g with dir := [{ line := 4 * 2 ^ 24, state := st, holders := [ld0] }] }) }
def snoopedC : Ctl := { heldC .busy with snoops := [{ kind := .inv, holder := ld0, line := 4 * 2 ^ 24, req := 0, fwd := none, sent := true, sweep := false }] }
def coldC : Ctl := { soloC with halls := [(4, { Hall.fresh with mode := .shared, home := true, cold := true, sharers := [{ slot := 0, here := true, ld := 0 }] })] }

/-- The first line of the shared hall: untracked, held by the reader, being snooped, and in a hall that is swept from its first block. -/
theorem witness_CoherenceDirectory :
    aonOn soloC = true ∧ Idle { soloC with snoops := [] } ∧ LdServed soloC 0 0 (0x100000000000 + 4 * 2 ^ 30)
      ∧ (hallAt soloC (hallOf (dpaOff (0x100000000000 + 4 * 2 ^ 30)))).mode = .shared ∧ (hallAt soloC 4).home = true ∧ (hallAt soloC 4).cold = false
      ∧ dirAt soloC (4 * 2 ^ 24) = none ∧ (dirSetOf soloC (4 * 2 ^ 24)).length < 12 ∧ linePoison Store.reset (4 * 2 ^ 30) = false
      ∧ (galAt (heldC .shared) (galOf (heldC .shared) (4 * 2 ^ 30))).dir = [{ line := 4 * 2 ^ 24, state := .shared, holders := [ld0] }]
      ∧ Idle { snoopedC with snoops := [] } ∧ memReach snoopedC 0 0 = true ∧ Plain snoopedC (4 * 2 ^ 30) ∧ (ldAt snoopedC 0).biFenced = false
      ∧ dirAt snoopedC (4 * 2 ^ 24) = some { line := 4 * 2 ^ 24, state := .busy, holders := [ld0] }
      ∧ (∃ h, coldHall coldC 0 = some (4, h) ∧ h.sharers ≠ [] ∧ h.sharers.length ≤ 64 ∧ h.warm = [] ∧ ∀ y ∈ h.sharers, biReach coldC { here := y.here, ld := y.ld } = true ∧ y.here = true) := by
  simp only [Idle, LdServed, Plain]
  refine ⟨?_, ?_, ?_, ?_, ?_, ?_, ?_, ?_, ?_, ?_, ?_, ?_, ?_, ?_, ?_, _, rfl, ?_, ?_, ?_, ?_⟩ <;> decide

def secureC : Ctl := { soloC with heads := vmod soloC.heads 0 (fun h => { h with ideMem := { st := .secure, next := true }, ideIo := { st := .secure, next := true } }) }
def refC (m : Mode) : Ctl := { bare m with clk := { Clk.reset with ref100 := true } }

/-- A head that is up, one that is down and may train at its highest rate, and one with secure streams that have keys to take into use. -/
theorem witness_HeadLinks :
    aonOn soloC = true ∧ Idle soloC ∧ soloC.rings = [] ∧ (headAt soloC 0).linkUp = true ∧ headsLive soloC = true ∧ ldReach soloC 0 = true
      ∧ headsLive (refC .start) = true ∧ (refC .start).clk.ref100 = true ∧ (headAt (refC .start) 15).perst = false ∧ (headAt (refC .start) 15).linkUp = false
      ∧ headFenced (refC .start) 15 = false ∧ (4 : BitVec 4).toNat ≤ (headAt (refC .start) 15).maxRate
      ∧ Idle secureC ∧ (headAt secureC 0).linkUp = true
      ∧ (∀ w ∈ [IdeStream.cachemem, .io], (ideAt secureC 0 w).st = .secure ∧ (ideAt secureC 0 w).next = true) := by
  simp only [Idle]; decide

def loggedC : Ctl := { soloC with lds := vmod soloC.lds 0 (fun d => { d with dcd := { EvQ.reset with recs := [(1, .capacity true 3)] } }) }

/-- Every command of an LD: its second decoder, the last byte of the label area, one that is too long or lies beyond, the record it handles. -/
theorem witness_LdCommands :
    ioReach soloC (4 * 0 + 0) = true ∧ 1 < (ldAt soloC 0).decoders.length
      ∧ soloC.glb.mode = .solo ∧ serving soloC = true ∧ 131071 + [(5 : Byte)].length ≤ 131072 ∧ Store.reset.wf = true
      ∧ Plain soloC (lsaAddr soloC.twin.side 0 + 131071 + 0) ∧ (hallAt soloC (hallOf (lsaAddr soloC.twin.side 0 + 131071))).mode ≠ .shared
      ∧ Room soloC (lsaAddr soloC.twin.side 0 + 131071) ∧ throttleNs soloC = 0
      ∧ 131072 < 131072 + [(5 : Byte)].length
      ∧ ((evqOf (ldAt loggedC 0) .dcd).recs.map (fun r => r.1)).take [(1 : BitVec 16)].length = [(1 : BitVec 16)].map BitVec.toNat
      ∧ MayWrite (st soloC) 0 ∧ blkAnswers soloC (.hst 15) 0 = true ∧ Idle soloC ∧ LdServed soloC 0 0 (3 * 2 ^ 30) := by
  simp only [Idle, LdServed, Plain, MayWrite]; decide

/-- Bytes that no payload of 4 KiB holds beside its header. -/
theorem witness_LdCommands_long : ∃ l : List Byte, 4088 < l.length := ⟨List.replicate 4089 0, by rw [List.length_replicate]; omega⟩
/-! ## Galleries (chapter 4) -/

def probe : TrainProbe := { detected := true, spdOk := true, cap := 256, ranks := 2, stack := 2, die := 3, serial := 1, pass := some 2, failStep := 0, rdMargin := 20, wrMargin := 15, params := 0 }
/-- Training with channel 31 to report, in a vault that has a record of its DIMMs, or none, and with the rate in force. -/
def trainC (rate : Nat) (rec : Bool) : Ctl := { bare .start with
  boot := { Boot.reset with phase := .training }
  dimm := { Dimm.reset with rate := rate }
  dchs := vmod Ctl.reset.dchs 31 (fun d => { d with result := 1 })
  alc := if rec then { Alc.reset with ready := true, recs := [(0x01, { a := .valid 1 (.vault { id := 1, geom := [], recArea := [], dimms := [256, 3, 2, 2] }), b := .blank })] } else Alc.reset }

/-- Each RESULT of R135; 14 % is a low margin, 15 % is none. -/
theorem witness_DramTraining :
    aonOn (trainC 2 true) = true ∧ (trainC 2 true).glb.mode = .start ∧ (trainC 2 true).boot.phase = .training ∧ (dchAt (trainC 2 true) 31).result = 1
      ∧ { probe with detected := false }.detected = false ∧ orgRb 256 3 2 3 = none ∧ (orgRb 256 3 2 2).isSome = true
      ∧ dimmRecord (trainC 2 true) = some (probeOrg probe) ∧ [512, 3, 2, 4] ≠ probeOrg probe ∧ dimmRecord (trainC 2 false) = none
      ∧ (trainC 2 true).dimm.rate ≤ (2 : Fin 3).val ∧ (trainC 2 true).dimm.rate = rateCode (trainC 2 true).img.dramRate
      ∧ (trainC 1 true).dimm.rate ≤ (1 : Fin 3).val ∧ (trainC 1 true).dimm.rate < rateCode (trainC 1 true).img.dramRate
      ∧ (1 : Fin 3).val < (trainC 2 true).dimm.rate ∧ (trainC 2 true).dimm.rate ≤ rateCode (trainC 2 true).img.dramRate
      ∧ { probe with rdMargin := 14 }.rdMargin.toNat < 15 ∧ ¬ (probe.rdMargin.toNat < 15 ∨ probe.wrMargin.toNat < 15) := by decide

def galC (f r : Bool) : Ctl := { soloC with gals := vmod Ctl.reset.gals 7 (fun g => { g with fenced := f, resetting := r }) }

/-- A fenced gallery, one in service, and one that is resetting. -/
theorem witness_GalleryReset :
    aonOn (galC true false) = true ∧ (galC true false).glb.mode = .solo ∧ Idle (galC true false) ∧ (galC true false).rings = [] ∧ MayWrite (st (galC true false)) 0
      ∧ (galAt (galC true false) 7).fenced = true ∧ (galAt (galC true false) 7).resetting = false ∧ MayWrite (st soloC) 0 ∧ (galAt soloC 7).fenced = false
      ∧ (galAt (galC true true) 7).resetting = true ∧ dimmRecord (galC true true) = none ∧ (galC true true).dimm.rate = rateCode (galC true true).img.dramRate
      ∧ probe.detected = true ∧ probe.spdOk = true ∧ (orgRb probe.cap probe.die probe.ranks probe.stack).isSome = true ∧ 15 ≤ probe.rdMargin.toNat ∧ 15 ≤ probe.wrMargin.toNat
      ∧ probe.pass = some 2 ∧ (galC true true).dimm.rate ≤ 2 ∧ (galC true true).dimm.perGal ≤ 2048 ∧ (galC true true).twin.held = []
      ∧ { probe with detected := false }.detected = false := by
  simp only [Idle, MayWrite]; decide

def wipedC (all : Bool) : Ctl := { soloC with
  svr := { Svr.reset with unrestored := { all := all, xs := [] } }
  gals := vmod Ctl.reset.gals 0 (fun g => { g with scrubPos := if all then 992 * 2 ^ 24 - 1 else 1024 * 2 ^ 24 - 1 }) }
def scrubbed (all : Bool) : Nat := lineAddr (wipedC all) 0 (galAt (wipedC all) 0).scrubPos

/-- The last line of gallery 0's halls, not restored, the last one of its DRAM, and every gallery awake and idle. -/
theorem witness_ScrubDozeAndSensors :
    aonOn soloC = true ∧ soloC.glb.mode.service = true ∧ (galAt soloC 0).fenced = false ∧ (galAt soloC 0).doze = false ∧ 0 < galLines soloC
      ∧ unrestored (wipedC true) (treadNo (scrubbed true)) = true
      ∧ Idle (wipedC false) ∧ unrestored (wipedC false) (treadNo (scrubbed false)) = false
      ∧ stale (wipedC false) (treadNo (scrubbed false)) = false ∧ (wipedC false).glb.mode = .solo
      ∧ eccDecode (failedAt (wipedC false) (scrubbed false)) twoDevs = .uncorrectable ∧ (galAt (wipedC false) 0).scrubPos < galLines (wipedC false)
      ∧ galIdle soloC 0 = true := by
  simp only [Idle]; decide


/-! ## Twin links (chapter 5) -/

/-- SERVICE.PAIRED with this link 3 and another link 0 as given. -/
def linksC (m : Mode) (l3 l0 : TLink) : Ctl := { bare m with
  dimm := { capGib := 256, rb := 3, perGal := 992, rate := 2 }
  clk := { Clk.reset with ref156 := true }
  pair := { Pair.reset with paired := true, epoch := 5, helloSent := true }
  twin := { Twin.reset with links := vmod (vmod Twin.reset.links 3 (fun _ => l3)) 0 (fun _ => l0), serLimit := 100 } }
def lk (st : LinkSt) : TLink := { TLink.reset with enabled := true, state := st, credit := [64, 64, 64, 64], nextExp := 4095, laneMap := 0x3210 }
def linkC (st : LinkSt) : Ctl := linksC .paired (lk st) (lk .disabled)

def fencedC : Ctl := onUnit (linkC .lost) 0x23 (fun u => { u with fenced := true })

/-- The logical lanes that are left of a link's when some have lost lock. -/
def leftOf (c : Ctl) (lost : BitVec 4) : Nat :=
  ((List.range 4).filter (fun i => let p := (0x3210 : BitVec 16).toNat / 16 ^ i % 4; !(laneBad (linkAt c 3) p || lost.getLsbD i))).length

/-- Link 3 in each state: the lanes of `0b0011` are two, those of `0b0001` one; in a retrain two or three lanes lose lock. -/
theorem witness_LinkTraining :
    (∀ st ∈ [LinkSt.pmdTrain, .align, .init, .lost, .active, .retrain], aonOn (linkC st) = true ∧ (linkAt (linkC st) 3).initSent = false
        ∧ (linkAt (linkC st) 3).lanes.length = 4 ∧ (linkAt (linkC st) 3).state = st ∧ (linkC st).clk.ref156 = true
        ∧ (linkAt (linkC st) 3).enabled = true ∧ twinPowered (linkC st) = true ∧ (linkC st).pair.paired = true ∧ (linkC st).twin.holding = false
        ∧ MayWrite (st |> linkC |> Tests.st) 0x40 ∧ blkAnswers (linkC st) (.twn 3) 0 = true)
      ∧ ((List.range 4).filter (fun i => BitVec.getLsbD (0b0011 : BitVec 4) i)).length = 2
      ∧ ((List.range 4).filter (fun i => BitVec.getLsbD (0b0001 : BitVec 4) i)).length = 1
      ∧ leftOf (linkC .retrain) 0b1100 = 2 ∧ leftOf (linkC .retrain) 0b1110 = 1
      ∧ unitFenced (linkC .lost) 0x23 = false ∧ unitFenced fencedC 0x23 = true ∧ (linkAt fencedC 3).state = .lost ∧ (linkAt fencedC 3).enabled = true
      ∧ { (linkC .pmdTrain).clk with ref156 := false }.ref156 = false := by
  simp only [MayWrite]; decide

def ini (v : Byte) (lanes : BitVec 4) : InitFields :=
  { version := v, fast := false, tl := 3, pairId := 0, side := 1, txLanes := 15, rxLanes := lanes, nextExp := 0, nextSend := 0, credits := [64, 64, 64, 64], epoch := 5, fack := 0 }
def lanes (ok : Nat) : List Lane := (List.range 4).map (fun i => { Lane.reset with failed := ok ≤ i })
def initC (ok : Nat) (st : LinkSt) (rcvd : Bool) : Ctl := linksC .paired { lk st with fast := st == .retrain, initSent := true, initRcvd := rcvd, lanes := lanes ok } (lk .disabled)

/-- An INIT of another version, one that fits, and links in full training and in a fast retrain on which four, two and one lane are good. -/
theorem witness_LinkInit :
    (∀ ok ∈ [1, 2, 4], ∀ z ∈ [LinkSt.init, .retrain], ∀ r, aonOn (initC ok z r) = true ∧ Calm (initC ok z r) ∧ (linkAt (initC ok z r) 3).state = z
        ∧ (linkAt (initC ok z r) 3).initSent = true ∧ (linkAt (initC ok z r) 3).initAcked = false ∧ (linkAt (initC ok z r) 3).initRcvd = r
        ∧ (initC ok z r).twin.sent = [] ∧ winSum (winAdd (linkAt (initC ok z r) 3).replayWin (now (initC ok z r)) (linkAt (initC ok z r) 3).replayBuf.length 65) ≤ 1000
        ∧ (goodLanes (linkAt (initC ok z r) 3)).length = ok
        ∧ (initC ok z r).twin.pairId = (ini 1 3).pairId ∧ (ini 1 3).side.toNat ≠ (initC ok z r).twin.side)
      ∧ (ini 0 3).version ≠ 1 ∧ (ini 1 3).version = 1 ∧ (ini 1 3).tl.toNat = 3
      ∧ ((List.range 4).filter (fun i => (ini 1 3).rxLanes.getLsbD i)).length = 2 ∧ ((List.range 4).filter (fun i => (ini 1 1).rxLanes.getLsbD i)).length = 1 := by
  simp only [Calm]; decide

/-- An ACTIVE link 3 with link 0 beside it; a lane whose two windows lay over the limit, on links with two, three and four good lanes; a link that
holds for its departure; a message that waits for credit. -/
def overC (ok n : Nat) : Ctl := linksC .paired { lk .active with lanes := lmod (lanes ok) 0 (fun x => { x with overRow := n }) } (lk .active)
def holdC : Ctl := let c := linkC .active; { c with twin := { c.twin with holding := true } }
def starveC : Ctl := linksC .paired { lk .active with credit := [0, 64, 64, 64], txq := [.mirWr64 false 0 { orig := 3, seq := 0 } 0 0 0] } (lk .active)

theorem witness_LinkLossAndRecovery :
    (∀ c ∈ [overC 4 2, overC 3 2, holdC, starveC, linkC .retrain], aonOn c = true ∧ Calm c)
      ∧ (linkAt (overC 3 2) 3).state = .active ∧ (overC 3 2).twin.holding = false ∧ (overC 3 2).pair.helloSent = true ∧ (linkAt (linkC .retrain) 3).state = .retrain
      ∧ MayWrite (st (overC 3 2)) 0x40 ∧ blkAnswers (overC 3 2) (.twn 3) 0 = true ∧ twinPowered (overC 3 2) = true ∧ (linkAt (overC 3 2) 3).enabled = true
      ∧ (overC 3 2).pair.paired = true ∧ (100 : BitVec 32).toNat ≤ (overC 3 2).twin.serLimit ∧ (overC 3 2).twin.serLimit < (101 : BitVec 32).toNat
      ∧ (linkAt (overC 3 2) 3).lanes[0]? = some { Lane.reset with overRow := 2 } ∧ (linkAt (overC 3 2) 3).lanes.length = 4
      ∧ (∀ x ∈ [(4, 3), (3, 2), (2, 1)], ((List.range 4).filter (fun i => physLane (linkAt (overC x.1 2) 3) i ≠ 0
          ∧ laneBad (linkAt (overC x.1 2) 3) (physLane (linkAt (overC x.1 2) 3) i) = false)).length = x.2)
      ∧ lossOpen (overC 3 2) = true ∧ { lk .active with enabled := false }.enabled = false
      ∧ (∃ k < 4, k ≠ 3 ∧ (linkAt (overC 3 2) k).state = .active ∧ (linkAt (overC 3 2) k).departed = false)
      ∧ (5 : BitVec 16).toNat = (overC 3 2).pair.epoch ∧ holdC.twin.holding = true ∧ (srcAt holdC 0x21F).condition = false
      ∧ (linkAt starveC 3).state = .active ∧ (∃ m ∈ (linkAt starveC 3).txq, msgVc m = (0 : Fin 4).val ∧ hasCredit (linkAt starveC 3) m = false) := by
  simp only [MayWrite, Calm]; decide

/-! DATA flits: the header has TYPE 0, FSEQ 4095 (the next expected), FACK 7. -/
def hdr : Word := BitVec.ofNat 64 (4095 * 2 ^ 48 + 7 * 2 ^ 36)
def hdrOut : Word := BitVec.ofNat 64 (4094 * 2 ^ 48 + 7 * 2 ^ 36)
def crcOf (h : Word) (slots : List Slot) : Word := BitVec.ofNat 64 (flitCrc h slots)
/-- A MIR_WR64 of the last line of hall 3, of initiator 4 and hall generation 0. -/
def mirSlot : Slot := BitVec.ofNat 128 (0x10 + 4 * 2 ^ 8 + 3 * 2 ^ 70 + (4 * 2 ^ 30 - 64) * 2 ^ 72 + 4 * 2 ^ 118)
def nopMsg (n : Nat) : TxFlit := { fseq := n, fack := 0, credits := [], msg := .nop }
def replayC (aw : Bool) (n : Nat) : Ctl := { linksC .paired { lk .active with replayBuf := [nopMsg 8, nopMsg 9, nopMsg 10], awaiting := aw, retryReqs := n } (lk .active) with
  halls := [(3, { Hall.fresh with mode := .priv, home := true, sharers := [{ slot := 0, here := true, ld := 0 }] })] }

theorem crcBit_lt {k : Nat} (p r : Nat) (hp : p < 2 ^ k) (hr : r < 2 ^ k) : crcBit p r < 2 ^ k := by
  have h : r / 2 < 2 ^ k := by omega
  unfold crcBit; split
  · exact Nat.xor_lt_two_pow h hp
  · exact h

theorem crcByte_lt {k : Nat} (p r : Nat) (b : Byte) (h8 : 2 ^ 8 ≤ 2 ^ k) (hp : p < 2 ^ k) (hr : r < 2 ^ k) : crcByte p r b < 2 ^ k := by
  have h : r ^^^ b.toNat < 2 ^ k := Nat.xor_lt_two_pow hr (by omega)
  exact crcBit_lt _ _ hp (crcBit_lt _ _ hp (crcBit_lt _ _ hp (crcBit_lt _ _ hp (crcBit_lt _ _ hp (crcBit_lt _ _ hp (crcBit_lt _ _ hp (crcBit_lt _ _ hp h)))))))

theorem crcFold_lt {k : Nat} (p : Nat) (h8 : 2 ^ 8 ≤ 2 ^ k) (hp : p < 2 ^ k) (l : List Byte) : ∀ r < 2 ^ k, l.foldl (crcByte p) r < 2 ^ k := by
  induction l with
  | nil => exact fun r h => h
  | cons b l ih => exact fun r h => ih _ (crcByte_lt p r b h8 hp h)

/-- Every flit has a CRC: the value of `flitCrc` fits its field. -/
theorem crc_fits (h : Word) (slots : List Slot) : flitCrc h slots = (crcOf h slots).toNat := by
  have k : flitCrc h slots < 2 ^ 64 :=
    Nat.xor_lt_two_pow (crcFold_lt _ (by omega) (by omega) _ _ (by omega)) (by omega)
  exact ((BitVec.toNat_ofNat _ _).trans (Nat.mod_eq_of_lt k)).symm

/-- The flit that is due and one that is not, an empty flit and one with a write, the oldest and the newest flit of the replay buffer, and the
eighth RETRY_REQ and the one after it. -/
theorem witness_FlitsAndReplay :
    (∀ aw, ∀ n ∈ [0, 7, 8], aonOn (replayC aw n) = true ∧ (linkAt (replayC aw n) 3).state = .active ∧ (linkAt (replayC aw n) 3).awaiting = aw
        ∧ (linkAt (replayC aw n) 3).retryReqs = n ∧ (linkAt (replayC aw n) 3).txq = [] ∧ (linkAt (replayC aw n) 3).contSlots = 0
        ∧ (linkAt (replayC aw n) 3).rxCont = [] ∧ (linkAt (replayC aw n) 3).nextExp = 4095 ∧ (replayC aw n).twin.holding = false
        ∧ winSum (winAdd (linkAt (replayC aw n) 3).replayWin (now (replayC aw n)) (2 + 1) 65) ≤ 1000
        ∧ (linkAt (replayC aw n) 3).replayBuf = [] ++ nopMsg 8 :: [nopMsg 9, nopMsg 10] ∧ (linkAt (replayC aw n) 3).replayBuf = [nopMsg 8, nopMsg 9] ++ nopMsg 10 :: []
        ∧ (∀ x ∈ (linkAt (replayC aw n) 3).replayBuf, x.fseq ≠ 7) ∧ LinkTakes (replayC aw n) 3 .nop
        ∧ LinkTakes (replayC aw n) 3 (.mirWr64 false 0 { orig := 3, seq := 0 } (4 * 2 ^ 30 - 64) 4 0) ∧ NextIn (replayC aw n) .mir { orig := 3, seq := 0 }
        ∧ galOf (replayC aw n) (4 * 2 ^ 30 - 64) < 8 ∧ galFenced (replayC aw n) (galOf (replayC aw n) (4 * 2 ^ 30 - 64)) = false
        ∧ placeWaits (replayC aw n) (4 * 2 ^ 30 - 64) 4 (replayC aw n).nextReq = false ∧ (hallAt (replayC aw n) (hallOf (4 * 2 ^ 30 - 64))).gen = 0)
      ∧ (0 < (1 : Nat)) ∧ (hdr.extractLsb' 60 4).toNat = 0 ∧ (hdr.extractLsb' 48 12).toNat = 4095 ∧ (hdr.extractLsb' 31 5).toNat = 0
      ∧ (hdr.extractLsb' 36 12).toNat = 7 ∧ (hdrOut.extractLsb' 60 4).toNat = 0 ∧ (hdrOut.extractLsb' 48 12).toNat ≠ 4095
      ∧ mirSlot.extractLsb' 0 8 = 0x10#8 ∧ mirSlot.extractLsb' 8 5 = 4#5 ∧ mirSlot.getLsbD 16 = false ∧ (mirSlot.extractLsb' 70 2).toNat = 3
      ∧ (mirSlot.extractLsb' 40 30).toNat = 0 ∧ (mirSlot.extractLsb' 72 46).toNat = 4 * 2 ^ 30 - 64 ∧ (mirSlot.extractLsb' 118 8).toNat = 4
      ∧ (mirSlot.extractLsb' 24 16).toNat = 0 ∧ Store.reset.wf = true := by
  simp only [LinkTakes, NextIn, Calm]; decide

def tag3 (n : Nat) : Tag := { orig := 3, seq := n }
/-- A link in use, with the SEQ that is due next, and what the device has sent and waits for. -/
def streamC (due : Nat) (sent : List Sent) (reqs : List Req) : Ctl :=
  let c := replayC false 0
  { c with reqs := reqs, twin := { c.twin with expSeq := tset [] (streamKey 3 .mir) due, sent := sent } }
def sentOf (k : Cont) : Sent := { space := .mir, tag := tag3 5, link := 3, msg := .mirWr64 false 0 (tag3 5) (3 * 2 ^ 30) 0 0, cont := k, refused := 0 }

/-- SEQ 5 when 5 is due, when the newest and the oldest older one is, and when a later one is; an ACK of a host's write and of nothing;
a refused message that nothing waits for; a barrier over links 0 and 3. -/
theorem witness_StreamsAndBarriers :
    (streamC 5 [sentOf (.write 1)] [hostWr .ack]).reqs = [hostWr .ack]
      ∧ (∀ due ∈ [5, 6, 4, 2 ^ 29 + 4, 2 ^ 29 + 5], aonOn (streamC due [] []) = true
        ∧ LinkTakes (streamC due [] []) 3 (.mirWr64 false 0 (tag3 5) (4 * 2 ^ 30 - 64) 4 0) ∧ tgetD (streamC due [] []).twin.expSeq (streamKey 3 .mir) 0 = due)
      ∧ (6 + 2 ^ 30 - 5) % 2 ^ 30 < 2 ^ 29 ∧ (2 ^ 29 + 4 + 2 ^ 30 - 5) % 2 ^ 30 < 2 ^ 29 ∧ ¬(2 ^ 29 + 5 + 2 ^ 30 - 5) % 2 ^ 30 < 2 ^ 29 ∧ ¬(4 + 2 ^ 30 - 5) % 2 ^ 30 < 2 ^ 29
      ∧ (1 : BitVec 16).toNat ≠ (hallAt (streamC 5 [] []) 3).gen
      ∧ Idle { streamC 5 [sentOf (.write 1)] [hostWr .ack] with reqs := [] } ∧ (hostWr .ack).id = 1
      ∧ (hostWr .ack).placed = true ∧ (hostWr .ack).delay = false ∧ (streamC 5 [] []).pair.rejoin = .none ∧ (streamC 5 [] []).pair.xfers = [] ∧ (∀ g < 8, galIncomplete (streamC 5 [] []) g = false) ∧ (streamC 5 [] []).twin.prxWait = [] ∧ (streamC 5 [] []).twin.ackHeld = []
      ∧ Idle (streamC 5 [] []) ∧ Idle (streamC 5 [sentOf .none] []) ∧ (sentOf .none).tag = tag3 5
      ∧ maskList 4 (0b1001 : BitVec 4).toNat = (List.range 4).filter (fun k => k = 3 ∨ k = 0) ∧ (linkAt (streamC 5 [] []) 0).state = .active
      ∧ (∀ vc ∈ [0, 1, 3], (linkAt (streamC 5 [] []) 3).rxDue.getD vc 0 + 1 ≤ rxSize vc) := by
  refine ⟨rfl, ?_⟩; simp only [LinkTakes, Idle, Calm]; decide

/-! ## The pair (chapter 6) -/

def tag0 (n : Nat) : Tag := { orig := 0, seq := n }
def partnerP : Partner := { hello := none, fenced := [], delayNs := 0, stall := false, state := 8, dbEff := 100, restoring := false }
/-- SERVICE.PAIRED on links 0 and 3, both in steering; LD 0 holds hall 3, whose home is here, and hall 5, whose home is the partner. -/
def pairC : Ctl := { soloC with
  glb := { Glb.reset with mode := .paired }
  pair := { Pair.reset with paired := true, homeReturn := true, epoch := 5, partner := some partnerP, role := 2, prefMap := some (List.replicate 992 0xFF) }
  twin := { Twin.reset with links := vmod (vmod Twin.reset.links 3 (fun _ => lk .active)) 0 (fun _ => lk .active), steered := [0, 3] }
  halls := [(3, { Hall.fresh with mode := .priv, home := true, sharers := [{ slot := 0, here := true, ld := 0 }] }),
            (5, { Hall.fresh with mode := .priv, home := false, sharers := [{ slot := 0, here := true, ld := 0 }] })] }
def partnerFlight : Flight := { own := false, slot := 255, fgen := 7, ring := 0, desc := 0, ld := 0, st := .journal, commitSeq := 0, segs := [], journal := List.replicate 16 0 }
def flightC : Ctl := { pairC with flights := [partnerFlight] }

/-- The last line of hall 3: placed, placed under a throttle delay, waiting for its tread's fetch, and in a fenced gallery; the journal of a flight that begins, ends and is done. -/
theorem witness_MirrorWritesAndJournals :
    let a := 4 * 2 ^ 30 - 64
    let waiting : Ctl := { pairC with svr := { Svr.reset with unrestored := TreadSet.full } }
    let fenced : Ctl := { pairC with gals := vmod Ctl.reset.gals 0 (fun g => { g with fenced := true }) }
    let slow : Ctl := { pairC with budget := { pairC.budget with throttleMax := 50 } }
    (∀ c ∈ [pairC, waiting, fenced, flightC, slow], aonOn c = true ∧ c.twin.ackHeld = [] ∧ LinkTakes c 3 (.mirWr256 0 0 (tag3 0) a 4 0) ∧ NextIn c .mir (tag3 0)
        ∧ (hallAt c (hallOf a)).gen = 0)
      ∧ galFenced pairC (galOf pairC a) = false ∧ galOf pairC a < 8 ∧ placeWaits pairC a 4 pairC.nextReq = false ∧ throttleNs pairC = 0 ∧ Store.reset.wf = true
      ∧ galFenced waiting (galOf waiting a) = false ∧ placeWaits waiting a 4 waiting.nextReq = true ∧ isDirty slow a = false ∧ 0 < throttleNs slow ∧ placeWaits slow a 4 slow.nextReq = false ∧ galFenced fenced (galOf fenced a) = true
      ∧ flightAt pairC false 255 = none ∧ (List.replicate 16 (0 : Byte)).length % 16 = 0 ∧ (List.replicate 16 (0 : Byte)).length ≤ 256
      ∧ partnerFlight.own = false ∧ partnerFlight.slot = (255 : Byte).toNat ∧ partnerFlight.held = false ∧ partnerFlight.fgen < 65536
      ∧ Idle { flightC with flights := [] } := by
  simp only [LinkTakes, NextIn, Idle, Calm]; and_intros <;> first | decide | rfl

def proxied (op : ReqOp) : Req := { hostWr .partner with op := op, placed := false }
def proxyMsg (k : Cont) : Sent := { space := .req, tag := tag3 0, link := 3, msg := .prxRd .none false 0 (tag3 0) (5 * 2 ^ 30) 0, cont := k, refused := 0 }
def askedC (op : ReqOp) : Ctl := { pairC with reqs := [proxied op], twin := { pairC.twin with sent := [proxyMsg (.proxy 1)] } }
def fwdC : Ctl := { pairC with snoops := [{ kind := .inv, holder := { here := false, ld := 63 }, line := 3 * 2 ^ 24, req := 0, fwd := none, sent := true, sweep := false }]
                               twin := { pairC.twin with sent := [proxyMsg (.snoop 0 63 (3 * 2 ^ 24))] } }

/-- The first line of hall 3 at its home, of hall 5 away from it, the partner's accesses to hall 3, what waits for the answer to each, a
forwarded snoop of an LD of a head that is up and of one that is not. -/
theorem witness_PairedAccess :
    let a := 3 * 2 ^ 30; let b := 5 * 2 ^ 30
    (∀ x ∈ [a, b], Idle pairC ∧ PairPlain pairC x ∧ (hallAt pairC (hallOf x)).mode = .priv ∧ memArrives pairC 0 0 = true
        ∧ bitOf (headAt pairC 0).memActive 0 = true ∧ decodeKind pairC (4 * 0 + 0) x = 0 ∧ isMeta x = false ∧ dpaOff x / 64 * 64 = x ∧ linePoison Store.reset x = false)
      ∧ (hallAt pairC (hallOf a)).home = true ∧ (hallAt pairC (hallOf b)).home = false ∧ aonOn pairC = true ∧ Store.reset.wf = true
      ∧ LinkTakes pairC 3 (.prxWrPtl false 0 (tag3 0) a 4 1 0) ∧ NextIn pairC .req (tag3 0) ∧ 3 ∈ pairC.twin.steered ∧ (hallAt pairC (hallOf a)).gen = 0
      ∧ (∀ op ∈ [ReqOp.read .none, .write], aonOn (askedC op) = true ∧ Idle { askedC op with reqs := [] } ∧ (proxied op).src = .host 0 0 7 ∧ (proxied op).op = op
        ∧ (askedC op).twin.prxWait = [] ∧ (proxyMsg (.proxy 1)).space = .req ∧ (proxyMsg (.proxy 1)).tag = tag3 0 ∧ (proxied op).id = 1
        ∧ LinkTakes (askedC op) 3 (.prxRdData 0 0 (tag3 0) 0))
      ∧ LinkTakes pairC 3 (.biFwd 2 0 (tag3 0) a 0) ∧ biReach pairC { here := true, ld := 1 } = true ∧ biReach pairC { here := true, ld := 63 } = false
      ∧ Idle { fwdC with snoops := [] } ∧ LinkTakes fwdC 3 (.biRsp 2 (tag3 0) a none false) ∧ fwdC.twin.prxWait = [] := by
  simp only [LinkTakes, NextIn, Idle, PairPlain, Calm]; and_intros <;> first | decide | rfl

def releasedC : Ctl := { pairC with halls := [(991, { Hall.fresh with mode := .priv, sharers := [{ slot := 63, here := false, ld := 63 }], sanitize := false })] }

/-- An add of hall 991 that this device has sent, which one of the partner crosses. -/
def crossedC : Ctl := { pairC with twin := { pairC.twin with sent := [proxyMsg (.hallOp true 0x60 991 0)] } }

/-- The last hall of the device: held, marked for a fill, and free; a device that waits for a rejoin, one that does not, and one in SOLO. -/
theorem witness_RoleRequests :
    (∀ c ∈ [pairC, releasedC, crossedC, { pairC with glb := { Glb.reset with mode := .solo } }, { pairC with pair := { pairC.pair with rejoin := .awaiting } },
          { pairC with halls := [(991, { Hall.fresh with sanitize := true })] }],
        aonOn c = true ∧ Idle c ∧ c.rings = [] ∧ 3 ∈ c.twin.steered ∧ LinkTakes c 3 (.role (tag3 0) (.mapChunk 0 [])) ∧ NextIn c .req (tag3 0))
      ∧ (hallAt releasedC 991).sharers = [{ slot := (63 : Fin 64).val, here := (1 : Nat) == releasedC.twin.side, ld := (63 : Fin 64).val }] ∧ (hallAt releasedC 991).mode = .priv
      ∧ 991 < hallCount pairC ∧ 0xFFFF ≥ hallCount pairC ∧ pairC.glb.mode = .paired ∧ tget pairC.halls 5 = some (hallAt pairC 5) ∧ pairC.pair.partner = some partnerP
      ∧ pairC.pair.rejoin = .none ∧ pairC.pair.diverged = false
      ∧ crossedC.twin.side = 0 ∧ (∃ y ∈ crossedC.twin.sent, y.cont = .hallOp true 0x60 991 0) ∧ ldPresented pairC 0 = true ∧ pairedNow pairC = true := by
  simp only [LinkTakes, NextIn, Idle, Calm]; and_intros <;> first | decide | rfl

def helloH (halls : Nat) : Hello :=
  { pairId := 0, side := 1, pending := false, fencedGals := 0, saveSeq := 0, halls := halls, dimmGib := 256, proposed := 0, saveTime := 0, prefCrc := 0 }
/-- START with training done and the vault mounted, waiting for its partner; and ready, with the roles given. -/
def pairingC (ph : StartPhase) (role : Nat) : Ctl := { pairC with
  glb := { Glb.reset with mode := .start }
  boot := { Boot.reset with phase := ph }
  pair := { Pair.reset with paired := true, role := role } }
def chargedC (c : Ctl) : Ctl := { c with hold := { Hold.reset with inForce := some { cMf := 1, esr := 1, v0 := 1, time := 0, iTest := 1, scale := 1 } } }
def divergingC : Ctl := { soloC with twin := pairC.twin, pair := { Pair.reset with paired := true, role := 5, partner := some { partnerP with state := 9 } } }

/-- A HELLO that fits and one of another number of halls, to a device that pairs and to one that serves alone. -/
theorem witness_PairingOutcome :
    (∀ c ∈ [pairingC .pairing 1, divergingC], aonOn c = true ∧ Idle c ∧ c.pair.stale = TreadSet.empty ∧ c.svr.saves = [] ∧ c.pair.paired = true ∧ c.pair.refused = false
        ∧ (∀ n ∈ [7936, 7935], LinkTakes c 3 (.role (tag3 0) (.hello (helloH n)))) ∧ NextIn c .req (tag3 0) ∧ 3 ∈ c.twin.steered
        ∧ (helloH 7936).halls = hallCount c ∧ (helloH 7935).halls ≠ hallCount c ∧ (helloH 7936).dimmGib = c.dimm.capGib ∧ (helloH 7936).side ≠ c.twin.side
        ∧ (helloH 7936).pairId = c.twin.pairId ∧ (helloH 7936).prefCrc = c.pair.prefCrc ∧ (helloH 7936).saveSeq = 0)
      ∧ (pairingC .pairing 1).glb.mode = .start ∧ (pairingC .pairing 1).boot.phase = .pairing ∧ (pairingC .pairing 1).pair.partner = none
      ∧ (∀ g < 8, galFenced (pairingC .pairing 1) g = false) ∧ (∀ ch < 32, (dchAt (pairingC .pairing 1) ch).result < 8)
      ∧ divergingC.glb.mode = .solo ∧ divergingC.pair.partner = some { partnerP with state := 9 } ∧ partnerP.hello = none
      ∧ (pairingC .pairing 1).boot.pairWaitOver = false ∧ (pairingC .pairing 1).pair.role ≤ 1
      ∧ (∀ r ∈ [2, 5], (pairingC .ready r).glb.mode = .start ∧ (pairingC .ready r).boot.phase = .ready ∧ (pairingC .ready r).pair.rejoin = .none
        ∧ chargeOk (pairingC .ready r) = false ∧ chargeOk (chargedC (pairingC .ready r)) = true) := by
  simp only [LinkTakes, NextIn, Idle, Calm]; and_intros <;> first | decide | rfl

def departC : Ctl := { pairC with twin := { pairC.twin with departing := true } }

/-- A device that hears no more of its partner, and one whose partner has said that it leaves. -/
theorem witness_Promotion :
    (∀ c ∈ [pairC, departC], aonOn c = true ∧ c.glb.mode = .paired ∧ Idle c ∧ c.twin.sent = [] ∧ c.hold.phase = .idle ∧ c.pair.stale = TreadSet.empty
        ∧ c.svr.pulls = [] ∧ LinkTakes c 3 (.role (tag3 0) .promoted))
      ∧ departC.twin.departing = true ∧ departC.twin.held = [] ∧ pairC.twin.departing = false
      ∧ tget pairC.halls 3 = some (hallAt pairC 3) ∧ (hallAt pairC 3).home = true ∧ (hallAt pairC 5).home = false := by
  simp only [LinkTakes, Idle, Calm]; and_intros <;> first | decide | rfl

/-- The receiver of a resync at the last riser of a tread; the sender with the last tread to send; a hall to go home. -/
def rsyncC (got : List Nat) : Ctl := { pairC with pair := { pairC.pair with rejoin := .receiving, stale := { all := false, xs := [3 * 2 ^ 18] }, staleGot := got } }
def sendC (k : Nat) : Ctl := { pairC with pair := { pairC.pair with rejoin := .sending, changed := some { all := false, xs := [k] } } }
def homeC (retry : Bool) : Ctl := { pairC with pair := { pairC.pair with xferRetry := if retry then [3] else [] } }
def wentC : Ctl := { pairC with pair := { pairC.pair with xfers := [3] }, twin := { pairC.twin with sent := [proxyMsg (.xfer 3)] } }
def divergedC (r : Nat) : Ctl := { soloC with pair := { Pair.reset with role := r, paired := true } }

theorem witness_ResyncAndHomes :
    let a := 3 * 2 ^ 30 + 15 * 256; let got := (List.range 15).map (fun i => 3 * 2 ^ 22 + i)
    let k := treadCount pairC - 1
    (∀ c ∈ [rsyncC got, sendC k, homeC false, homeC true, wentC, divergedC 6, divergedC 5], aonOn c = true ∧ Idle c)
      ∧ LinkTakes (rsyncC got) 3 (.rsyData 0 false 0 (tag3 0) a 0) ∧ NextIn (rsyncC got) .blk (tag3 0) ∧ (hallAt (rsyncC got) (hallOf a)).gen = 0
      ∧ galOf (rsyncC got) a < 8 ∧ galFenced (rsyncC got) (galOf (rsyncC got) a) = false ∧ atCeiling (rsyncC got) = false ∧ Store.reset.wf = true
      ∧ (∀ i < 16, 16 * treadNo a + i = riserNo a ∨ (rsyncC got).pair.staleGot.contains (16 * treadNo a + i) = true)
      ∧ LinkTakes (rsyncC got) 3 (.rsyDone false (tag3 0) 0)
      ∧ (sendC k).pair.rejoin = .sending ∧ (sendC k).glb.mode = .paired ∧ (sendC k).pair.rsyOut = [] ∧ k < treadCount (sendC k)
      ∧ galFenced (sendC k) (galOfTread (sendC k) k) = false ∧ unrestored (sendC k) k = false ∧ (((sendC k).pair.partner.map (fun q => q.stall)).getD false = false)
      ∧ (sendC k).twin.steered ≠ [] ∧ partnerFenced (sendC k) (galOfTread (sendC k) k) = false
      ∧ (homeC false).glb.mode = .paired ∧ (hallAt (homeC false) 3).home = true ∧ (homeC false).pair.homeReturn = true ∧ (homeC false).glb.restoring = false
      ∧ (homeC false).pair.partner = some partnerP ∧ partnerP.restoring = false ∧ partnerP.state = 8 ∧ xferPaused (homeC false) = false ∧ xferPaused (homeC true) = false ∧ 3 < hallCount (homeC false) ∧ prefSide (homeC false) 3 ≠ (homeC false).twin.side
      ∧ galFenced (homeC false) (galOfHall (homeC false) 3) = false ∧ partnerFenced (homeC false) (galOfHall (homeC false) 3) = false
      ∧ (galAt (homeC false) (galOfHall (homeC false) 3)).resetting = false ∧ (homeC false).pair.xfers = [] ∧ (homeC false).pair.xferRetry = [] ∧ (homeC false).twin.sent = []
      ∧ (∀ x ∈ (homeC false).halls, x.1 < 3 → galOfHall (homeC false) x.1 = galOfHall (homeC false) 3 → x.2.home = true → prefSide (homeC false) x.1 = (homeC false).twin.side)
      ∧ (homeC true).pair.xferRetry = [3] ∧ (hallAt (homeC true) 3).home = true
      ∧ LinkTakes wentC 3 (.roleRsp 4 0 (tag3 0) none) ∧ wentC.twin.prxWait = [] ∧ (proxyMsg (.xfer 3)).cont = .xfer 3 ∧ wentC.pair.xfers = [3] ∧ (∀ g < 8, galIncomplete wentC g = false)
      ∧ MayWrite (st (divergedC 6)) 0x40 ∧ blkAnswers (divergedC 6) .twnCommon 0 = true ∧ (divergedC 6).glb.mode = .solo ∧ (divergedC 6).pair.role = 6
      ∧ (divergedC 5).pair.role ≠ 6 := by
  simp only [LinkTakes, NextIn, Idle, MayWrite, Calm]; and_intros <;> first | decide | rfl

/-! ## Save, restore and the vault (chapters 7 and 8) -/

def vaultV : Vlt := { Vlt.reset with
  mount := 2, targets := 1, lunsPer := 1, planes := 2, blocksPer := 1024, wordlines := 1025, lunGb := 512, nPe := 3000, tSlc := 250000, tTlc := 1500
  retrySteps := 7, refreshSteps := 4, logMax := 16, nextAsn := 100 }
def savedRec (cause : Nat) (inc : List Nat) : SaveRec :=
  { seq := 9, pred := 0, cause := cause, fromSt := 9, pairedSave := false, unsettledOvf := false, warm := false, restoring := false, asnCut := 100, tTrigger := 0,
    tCutoff := 0, tRecord := 0, pairEpoch := 0, incomplete := inc, dbEff := 0, halls := 7936, dimmGib := 256, holdV := 0, data := [], flights := [], map := [],
    unsettled := [], changed := none, staleMap := none, units := [], kinds := [], placed := [], copyA := false, copyB := false, blkA := 0, blkB := 0, soloOps := [] }
def saveRun (cause : Nat) (inc : List Nat) (cut down : Bool) (jobs : List SaveJob) : SaveRun :=
  { saved := savedRec cause inc, jobs := jobs, cut := cut, source := 0, kind := 0, downAfter := down, ini := 0xFF }
def emptyProg : SeqProg := { up := 0, down := 0, shed := 0, trip := 0, rails := [], words := [], data := [] }
/-- SAVE with a mounted vault, an ACTIVE twin link and one dirty riser. -/
def saveC (r : SaveRun) : Ctl := { pairC with
  glb := { Glb.reset with mode := .save }
  gals := vmod Ctl.reset.gals 0 (fun g => { g with dirty := [3 * 2 ^ 22] })
  seq := { Seq.reset with prog := some emptyProg }
  vlt := vaultV
  svr := { Svr.reset with run := some r, nextUnit := 2 ^ 25 - 1 } }
def job : SaveJob := { kind := 1, gal := 0, risers := [3 * 2 ^ 22] }

/-- No LUN is fenced in a vault that records none and whose channels are in service. -/
theorem lunsOpen (c : Ctl) (h : c.vlt.luns = []) (k : ∀ ch < 16, (vget c.vlt.chans ch Vch.reset).fenced = false) (l : Nat) : lunFenced c l = false := by
  have e : (lunAt c.vlt l).fenced = false := by rw [lunAt, h]; rfl
  rw [lunFenced, e, k _ (Nat.mod_lt _ (by omega))]; rfl

theorem witness_SaveToRecord_luns (r : SaveRun) (l : Nat) : lunFenced (saveC r) l = false :=
  lunsOpen _ rfl (by show ∀ ch < 16, (vget vaultV.chans ch Vch.reset).fenced = false; decide) l

/-- A save at its cut-off and after it, with its last unit to program at the wrap of the unit numbers, and with its record to write, for each way
that a save ends. -/
theorem witness_SaveToRecord :
    (∀ r ∈ [saveRun 0x20 [] false false [], saveRun 0x20 [] true false [job], saveRun 0x21 [] true false [], saveRun 0x20 [] true false [], saveRun 0x10 [7] true false [],
          saveRun 0x20 [7] true true []],
        aonOn (saveC r) = true ∧ (saveC r).glb.mode = .save ∧ (saveC r).seq.prog.isSome = true ∧ (saveC r).seq.offPending = false ∧ (saveC r).vlt.mount = 2)
      ∧ (saveRun 0x20 [] false false []).cut = false ∧ (saveRun 0x20 [] false false []).saved.cause ≠ 0x10 ∧ (linkAt (saveC (saveRun 0x20 [] false false [])) 3).state = .active
      ∧ (saveRun 0x20 [] true false [job]).cut = true ∧ unitNext (saveC (saveRun 0x20 [] true false [job])) = some (2 ^ 25 - 1)
      ∧ landUnits vaultV = 2 ^ 25 ∧ (saveRun 0x20 [7] true true []).downAfter = true ∧ (saveRun 0x21 [] true false []).downAfter = false := by
  and_intros <;> first | decide | rfl

def mProbe : MountProbe := { uniform := true, targets := 1, lunsPer := 1, planes := 2, blocksPer := 1024, wordlines := 1025, lunGb := 512, nPe := 3000, tSlcNs := 250000,
                             tTlcUs := 1500, badLuns := [], rates := List.replicate 16 36, factoryBad := [], foreign := false, ckptOk := true,
                             olderCkpt := false, newId := 1, badRecords := [], badHeaders := [] }
/-- A start that mounts the vault that the VAULT record names, with one valid save record. -/
def mountC : Ctl := { bare .start with
  boot := { Boot.reset with stage := .stage2, phase := .mounting }
  dimm := { capGib := 256, rb := 3, perGal := 992, rate := 2 }
  alc := { Alc.reset with ready := true, recs := [(0x01, { a := .valid 1 (.vault { id := 1, geom := geomOf mProbe, recArea := [], dimms := [] }), b := .blank })] }
  svr := { Svr.reset with saves := [{ savedRec 0x20 [] with copyA := true }] } }
/-- SERVICE.SOLO that restores the tread of hall 3's first riser: not asked for, and fetched on demand. -/
def restoreC (fetch : Bool) : Ctl := { soloC with
  glb := { Glb.reset with mode := .solo, restoring := true }
  svr := { Svr.reset with unrestored := { all := false, xs := [3 * 2 ^ 18] }, fetches := if fetch then [3 * 2 ^ 18] else [] } }

theorem witness_MountAndRestore_luns (l : Nat) : lunFenced mountC l = false := lunsOpen _ rfl (by decide) l

theorem witness_MountAndRestore :
    aonOn mountC = true ∧ mountC.glb.mode = .start ∧ mountC.boot.stage = .stage2 ∧ mountC.boot.phase = .mounting ∧ mountPlan mountC mProbe = .known
      ∧ mProbe.badLuns = [] ∧ (∀ ch < 16, mProbe.rates.getD ch 0 ≠ 0) ∧ mProbe.ckptOk = true ∧ (newestValid mountC).map SaveRec.seq = some 9
      ∧ (∀ f, aonOn (restoreC f) = true ∧ Idle (restoreC f) ∧ lostIn (restoreC f) (3 * 2 ^ 18) = [] ∧ unrestored (restoreC f) (3 * 2 ^ 18) = true
          ∧ (restoreC f).twin.held = [] ∧ serving (restoreC f) = true ∧ (restoreC f).svr.pulls.contains (3 * 2 ^ 18) = false)
      ∧ Store.reset.wf = true ∧ restoreNext (restoreC false) (3 * 2 ^ 18) = true ∧ (restoreC true).svr.fetches.contains (3 * 2 ^ 18) = true
      ∧ partnerSupplies (restoreC false) (3 * 2 ^ 18) = false ∧ soloC.glb.restoring = false ∧ soloC.svr.live = []
      ∧ soloC.glb.mode.service = true := by
  simp only [Idle]; and_intros <;> first | decide | rfl

/-- R257 and R297 by hand: a shared hall homed on side 1, cold, 3 sharers, generation 0x1234; VCH5, target 0, LUN 1, block 9, page 6, codeword 2. -/
theorem test_mapWord :
    mapWordOf { mode := .shared, homeSide := 1, cold := true, sanitize := false, gen := 0x1234, sharers := 3, owner := 0xFF, ownerSide := 0 }
      = 0x7F83D1234 := by decide
theorem test_vaddr : vaddrFull 2 (blockKey (5 + 32) 9) 6 2 = 2 ^ 63 + 5 * 2 ^ 36 + 2 ^ 31 + 9 * 2 ^ 15 + 6 * 4 + 2 := by decide
/-- R317: the header begins with ASCII "NVLNBLOK". -/
theorem test_blockMagic : bytesOf 8 magicBlock = [0x4E, 0x56, 0x4C, 0x4E, 0x42, 0x4C, 0x4F, 0x4B] := by decide

def r0 : Nat := 3 * 2 ^ 22
def copy0 : RiserCopy := { riser := r0, data := 5, poison := 0 }
def slabOf (n : Nat) : Slab := { id := 7, gal := 0, firstAsn := 50, risers := List.replicate n copy0 }
/-- SERVICE.SOLO over a mounted vault, the first riser of hall 3 dirty. -/
def archC (v : Vlt) : Ctl := { soloC with vlt := v, gals := vmod Ctl.reset.gals 0 (fun g => { g with dirty := [r0] }) }
def flyC (redirty : Bool) : Ctl := { archC { vaultV with luns := [(0, { Lun.reset with openBlock := some 200, op := some (.wordline 200 [slabOf 1]) })] } with
  gals := vmod Ctl.reset.gals 0 (fun g => { g with dirty := [r0], inFlight := [{ riser := r0, data := 5, redirty := redirty, slab := 7 }] }) }
/-- The last riser fills the open slab. -/
def fullV : Vlt := { vaultV with openSlab := [(0, slabOf 61)] }
def openV : Vlt := { vaultV with luns := [(0, { Lun.reset with openBlock := some 200 })], openSlab := [(0, slabOf 60)] }

/-- A slab with room for two risers, one that the next riser fills, one to close, one and two slabs that wait for a wordline, and a program that ends with its riser untouched and
written again. -/
theorem witness_ArchiveAppends :
    aonOn (archC openV) = true ∧ cleanerRuns (archC openV) = true ∧ overlayFull (archC openV) 0 = false ∧ galOf (archC openV) (r0 * 256) = 0 ∧ (galAt (archC openV) 0).fenced = false
      ∧ r0 ∈ (galAt (archC openV) 0).dirty ∧ ((tget openV.openSlab 0).map (fun x => x.risers.length)) = some 60
      ∧ (galAt (archC openV) 0).inFlight.any (fun f => f.riser == r0) = false ∧ unrestored (archC openV) (r0 / 16) = false ∧ stale (archC openV) (r0 / 16) = false
      ∧ tget openV.openSlab 0 = some (slabOf 60) ∧ openV.closed.length < 2 ∧ dirtyFrozen (archC openV) = false
      ∧ (tget fullV.openSlab 0).map (fun x => x.risers.length) = some 61 ∧ fullV.closed.length < 2 ∧ cleanerRuns (archC fullV) = true ∧ overlayFull (archC fullV) 0 = false
      ∧ (∀ n ∈ [1, 2], aonOn (archC { openV with closed := List.replicate n (slabOf 1) }) = true ∧ ({ openV with closed := List.replicate n (slabOf 1) }).closed.length = n
          ∧ lunNext (archC { openV with closed := List.replicate n (slabOf 1) }) = some 0)
      ∧ (lunAt openV 0).openBlock = some 200 ∧ (lunAt openV 0).op = none
      ∧ (∀ b, aonOn (flyC b) = true ∧ (lunAt (flyC b).vlt 0).op = some (.wordline 200 [slabOf 1]) ∧ (galAt (flyC b) 0).inFlight = [{ riser := r0, data := 5, redirty := b, slab := 7 }]
          ∧ galOf (flyC b) (copy0.riser * 256) = 0 ∧ Idle (flyC b) ∧ (flyC b).twin.held = [] ∧ tget (flyC b).vlt.log r0 = none ∧ serving (flyC b) = true)
      ∧ (slabOf 1).risers = [copy0] ∧ (slabOf 1).id = 7 ∧ vaultV.mount = 2 ∧ (archC vaultV).glb.mode.service = true := by
  simp only [Idle]
  refine ⟨by decide, by decide, by decide, by decide, by decide, by decide, by decide, by decide, by decide, by decide, rfl, by decide, by decide, by decide, by decide, by decide, by decide, by decide, by decide, by decide, ?_, rfl, by decide, by decide, by decide⟩
  intro b; cases b <;> (refine ⟨by decide, rfl, rfl, by decide, by decide, rfl, by decide⟩)

/-- A landing whose next stripe is due, and one whose stripe has one block left to erase. -/
def landC (e : Bool) : Ctl := { archC { vaultV with batch := if e then [blockKey 0 300] else [] } with
  budget := { Budget.reset with dbCfg := 1 }, svr := { Svr.reset with landStripe := if e then some 0 else none } }
def eraseV : Vlt := { vaultV with batch := [blockKey 0 300, blockKey 0 301] }
def queueV : Vlt := { vaultV with eraseQ := [blockKey 0 300] }
def compactV : Vlt := { openV with log := [(r0, { asn := 99, data := 5, poison := 0, lun := 0, block := 100 })], blocks := [(blockKey 0 100, { use := 1, pe := 1, esn := 0, bad := false, refresh := true, level := false, closed := true, headerOk := true, time := 0, erased := 0 })] }

/-- Block 100 of LUN 0 read with no retry, below, at and above the refresh limit; a LUN with an erase; an empty and a full batch; a tread whose
block is due for refresh. -/
theorem witness_VaultReadsAndErases :
    aonOn (archC vaultV) = true ∧ vaultV.mount = 2 ∧ lunFenced (archC vaultV) 0 = false ∧ 0 < lunCount vaultV ∧ (archC vaultV).glb.mode.service = true
      ∧ 3 ≤ vaultV.retrySteps ∧ 3 < vaultV.refreshSteps ∧ 7 ≤ vaultV.retrySteps ∧ vaultV.refreshSteps ≤ 4 ∧ (blockAt vaultV (blockKey 0 100)).refresh = false
      ∧ (eraseNext (archC eraseV) 0).isSome = true ∧ (lunAt (flyC true).vlt 0).op.isSome = true ∧ queueV.batch = [] ∧ queueV.eraseQ ≠ [] ∧ eraseV.batch ≠ []
      ∧ eraseNext (archC eraseV) 0 = some (blockKey 0 300)
      ∧ aonOn (landC false) = true ∧ (landC false).vlt.mount = 2 ∧ (landC false).glb.mode.service = true ∧ (landC false).svr.reserve < reserveTarget (landC false)
      ∧ stripeFree (landC false) = true ∧ (landC true).svr.landStripe = some 0 ∧ (landC true).vlt.batch = [blockKey 0 300] ∧ (landC true).vlt.eraseQ = []
      ∧ inVictim (archC compactV) (r0 / 16) = true ∧ inLiveSave (archC compactV) (r0 / 16) = false ∧ compactDue (archC compactV) = true
      ∧ (archC compactV).gals.any (fun g => g.inFlight.any (fun f => f.riser / 16 == r0 / 16)) = false ∧ lunNext (archC compactV) = some 0
      ∧ (lunAt compactV 0).openBlock = some 200 := by
  and_intros <;> first | decide | rfl | (rw [Vector.any_eq_false]; decide)

/-- R306: of two closed blocks with valid content the one with fewer codewords is the victim, and a marked block goes before it. -/
theorem test_victim_fewest_then_marked :
    let blk (r : Bool) : Block := { use := 1, pe := 1, esn := 0, bad := false, refresh := r, level := false, closed := true, headerOk := true, time := 0, erased := 0 }
    let copy (b : Nat) : LogCopy := { asn := 1, data := 0, poison := 0, lun := 0, block := b }
    let v (m : Bool) : Vlt := { vaultV with log := [(0, copy 100), (1, copy 100), (16, copy 101)], blocks := [(100, blk m), (101, blk false)] }
    victim (archC (v false)) = some 101 ∧ victim (archC (v true)) = some 100 ∧ inVictim (archC (v true)) 0 = true ∧ inVictim (archC (v true)) 1 = false := by decide

/-- R291, R315: a factory mark in the landing zone costs a LUN one spare, which has the block's role; the next spare is the one after it. -/
theorem test_factory_mark_takes_a_spare :
    let r : Vlt := { vaultV with targets := 4, lunsPer := 8, wordlines := 513, blocksPer := 5480, lunGb := 1024 }
    let v : Vlt := { r with badFactory := [blockKey 20 5] }
    spareCount r 20 = 18 ∧ spareCount v 20 = 17 ∧ factoryRoles v 20 = [(blockKey 20 5, blockKey 20 5462)] ∧ spareKey v 20 = blockKey 20 5463 := by decide

/-! ## Work rings and flights (chapter 9) -/

def ring0 : Ring := { Ring.reset with owner := some 0, sqBase := BitVec.ofNat 64 (3 * 2 ^ 30), cqBase := BitVec.ofNat 64 (3 * 2 ^ 30 + 65536) }
/-- Ring 127, of LD 0, in hall 3 of gallery 0, as given; LD 0 holds hall 992 of gallery 1, too. -/
def ringC (x : Ring) (off : Bool) : Ctl := { soloC with
  rings := [(127, x)]
  halls := soloC.halls ++ [(992, { Hall.fresh with mode := .priv, home := true, sharers := [{ slot := 0, here := true, ld := 0 }] })]
  gals := if off then vmod (vmod Ctl.reset.gals 1 (fun g => { g with fenced := true })) 0 (fun g => { g with fenced := false }) else Ctl.reset.gals }
def running : Ring := { ring0 with st := .running, enable := true, sqHead := 63, sqTail := 0 }
def descOf (i : Nat) (st : DescSt) (status : Nat) (irq : Bool) : Desc :=
  { id := 1, index := i, opcode := 1, irq := irq, tag := 0xA1B2C3D4, status := status, poisonCopied := true, result := 5, st := st, halls := [] }
def badLog : Ring := { ring0 with logSize := 5 }
def fullCq : Ring := { running with sqHead := 0, sqTail := 0, cqTail := 62, cqHead := 0 }
def engineC : Ctl := let c := ringC ring0 false; { c with fcu := { c.fcu with unit := [(0x18, { fenced := true, rgen := 0, fences := 1, fenceSrc := 0, recent := false, held := 0 })] } }

/-- A ring that may start, one whose LOG_SIZE is too small, and one that runs; tails and heads at and past the last that fits; a stranger; a fenced
ring engine with its rings disabled and with one running. -/
theorem witness_RingControl :
    (∀ x ∈ [ring0, badLog, running, fullCq], ∀ off ∈ [0x18, 0x20, 0x28], gateOf (ringC x false) 0 (0x1000000 + 127 * 0x1000 + off) 8 true = .ok)
      ∧ (∀ x ∈ [ring0, badLog], x.st = .disabled ∧ x.descs = []) ∧ 6 ≤ ring0.logSize ∧ ring0.logSize ≤ 16 ∧ 2 ≤ ring0.vector ∧ ring0.vector ≤ 31
      ∧ ringPlaced (ringC ring0 false) ring0 = true ∧ ¬ 6 ≤ badLog.logSize ∧ running.st ≠ .disabled
      ∧ ({ running with descs := [descOf 62 .writing 0 false] }).descs ≠ []
      ∧ gateOf (ringC { running with descs := [descOf 62 .writing 0 false] } false) 0 (0x1000000 + 127 * 0x1000 + 0x18) 8 true = .ok
      ∧ fullCq.st = .running ∧ 1 < 2 ^ fullCq.logSize
      ∧ (1 + 2 ^ fullCq.logSize - fullCq.sqHead) % 2 ^ fullCq.logSize + fullCq.descs.length + (fullCq.cqTail + 2 ^ fullCq.logSize - fullCq.cqHead) % 2 ^ fullCq.logSize ≤ 2 ^ fullCq.logSize - 1
      ∧ ¬ (2 + 2 ^ fullCq.logSize - fullCq.sqHead) % 2 ^ fullCq.logSize + fullCq.descs.length + (fullCq.cqTail + 2 ^ fullCq.logSize - fullCq.cqHead) % 2 ^ fullCq.logSize ≤ 2 ^ fullCq.logSize - 1
      ∧ (62 + 2 ^ fullCq.logSize - fullCq.cqHead) % 2 ^ fullCq.logSize ≤ (fullCq.cqTail + 2 ^ fullCq.logSize - fullCq.cqHead) % 2 ^ fullCq.logSize
      ∧ ¬ (63 + 2 ^ fullCq.logSize - fullCq.cqHead) % 2 ^ fullCq.logSize ≤ (fullCq.cqTail + 2 ^ fullCq.logSize - fullCq.cqHead) % 2 ^ fullCq.logSize
      ∧ canReach (ringC running false) 1 = true ∧ ringOwnedBy (ringC running false) 127 1 = false
      ∧ ({ running with delayRun := true }).delayRun = true ∧ running.owner = some 0
      ∧ gateOf engineC 0 (0x200000 + 0 * 0x20000 + 0x2000) 8 true = .ok ∧ unitFenced engineC 0x18 = true
      ∧ engineC.rings.any (fun y => y.1 / 128 == 0 && y.2.st != .disabled) = false
      ∧ gateOf (ringC running false) 0 (0x200000 + 0 * 0x20000 + 0x2000) 8 true = .ok ∧ unitFenced (ringC running false) 0x18 = false
      ∧ (ringC running false).rings.any (fun y => y.1 / 128 == 0 && y.2.st != .disabled) = true := by
  and_intros <;> first | decide | rfl

/-! A descriptor in entry 63 of the ring, with a first line, the rest 0; a flight's list of two segments in hall 3. -/
def dAt : Nat := 3 * 2 ^ 30 + 64 * 63
def src0 : Nat := 3 * 2 ^ 30 + 2 ^ 20
def memOf (l : List Byte) : Store := { Store.reset with dram := cwrite 0 [] dAt l }
def dst (op : Nat) (rest : List Byte) : Store := memOf ([BitVec.ofNat 8 op, 1, 0, 0] ++ bytesOf 4 0xA1B2C3D4 ++ rest)
def three (op s d n : Nat) (tail : List Byte) : Store := dst op (bytesOf 8 s ++ bytesOf 8 d ++ bytesOf 4 n ++ tail)
def fld (m : Store) (o n : Nat) : Nat := ofBytes (cread 0 m.dram (dAt + o) n)
def zeroFrom (m : Store) (lo : Nat) : Prop := ∀ i < 64, lo ≤ i → cget 0 m.dram (dAt + i) = 0
def headerOf (m : Store) (op : Nat) : Prop := fld m 0 1 = op ∧ fld m 1 1 < 4 ∧ fld m 2 2 = 0 ∧ bitOf (fld m 1 1) 1 = false
def runC : Ctl := ringC running false

theorem witness_RingDescriptors_state :
    (∀ c ∈ [runC, ringC running true], aonOn c = true ∧ Idle c ∧ ringMay c 127 = true ∧ ringPlaced c running = true)
      ∧ running.owner = some 0 ∧ running.sqBase.toNat % 4096 = 0 ∧ running.got = [] ∧ running.released = [] ∧ dpaOff running.sqBase.toNat + 64 * running.sqHead = dAt
      ∧ ringMay (ringC { running with sqBase := BitVec.ofNat 64 (4 * 2 ^ 30) } false) 127 = true
      ∧ ringPlaced (ringC { running with sqBase := BitVec.ofNat 64 (4 * 2 ^ 30) } false) { running with sqBase := BitVec.ofNat 64 (4 * 2 ^ 30) } = false := by
  simp only [Idle]; and_intros <;> first | decide | rfl

theorem witness_RingDescriptors_served : ∀ c ∈ [runC, ringC running true], RangeServed c 0 (running.sqBase.toNat + 64 * running.sqHead) 64 := by
  simp only [RangeServed, Plain]; decide

/-- One byte at each end, next to each other, and a byte in a hall of a gallery that is out of service. -/
theorem witness_RingDescriptors_ranges :
    RangeServed runC 0 src0 1 ∧ RangeServed runC 0 (src0 + 1) 1 ∧ RangeServed runC 0 src0 64 ∧ RangeRoom runC src0 1 ∧ RangeRoom runC (src0 + 1) 1
      ∧ RangeSound Store.reset src0 64 ∧ rangeFail runC 0 (5 * 2 ^ 30) 1 ≠ none ∧ rangeFail (ringC running true) 0 (992 * 2 ^ 30) 1 = none
      ∧ rangeFail (ringC running true) 0 src0 1 = none ∧ rangeOffline (ringC running true) (992 * 2 ^ 30) 1 = true
      ∧ ¬ RangeSound { Store.reset with poison := [lineNo src0] } src0 1 := by
  simp only [RangeServed, RangeRoom, RangeSound, Plain]; and_intros <;> decide

/-- A NOP with nothing behind it and with its last byte set; an operation past the last; COPY of one byte to the next; COPY of none; FILL; COMPARE of
equal bytes; CRC32C; a barrier of either kind, and of neither. -/
theorem witness_RingDescriptors_words :
    (∀ m ∈ [dst 0 [], dst 0 (List.replicate 55 0 ++ [1]), dst 7 [], three 1 src0 (src0 + 1) 1 [], three 1 src0 (src0 + 1) 0 [], three 1 (5 * 2 ^ 30) src0 1 [],
          three 1 src0 (992 * 2 ^ 30) 1 [], three 2 src0 0x1122334455667788 1 [], three 3 src0 (src0 + 1) 1 [], three 4 src0 0 1 [9], dst 5 [0], dst 5 [1], dst 5 [2]],
        m.wf = true ∧ linePoison m dAt = false ∧ headerOf m (fld m 0 1))
      ∧ zeroFrom (dst 0 []) 8 ∧ ¬ zeroFrom (dst 0 (List.replicate 55 0 ++ [1])) 8 ∧ 6 < fld (dst 7 []) 0 1
      ∧ (∀ m ∈ [three 1 src0 (src0 + 1) 1 [], three 1 (5 * 2 ^ 30) src0 1 [], three 1 src0 (992 * 2 ^ 30) 1 [], three 3 src0 (src0 + 1) 1 []],
          fld m 24 4 = 1 ∧ zeroFrom m 28 ∧ (fld m 8 8 + 1 ≤ fld m 16 8 ∨ fld m 16 8 + 1 ≤ fld m 8 8))
      ∧ fld (three 1 src0 (src0 + 1) 0 []) 24 4 = 0 ∧ zeroFrom (three 2 src0 0x1122334455667788 1 []) 28
      ∧ fld (three 4 src0 0 1 [9]) 16 8 = 0 ∧ zeroFrom (three 4 src0 0 1 [9]) 32 ∧ fld (dst 5 [1]) 8 1 ≤ 1 ∧ zeroFrom (dst 5 [1]) 9 ∧ ¬ fld (dst 5 [2]) 8 1 ≤ 1 := by
  simp only [zeroFrom, headerOf]; decide

def segAt (d s n fill : Nat) : List Byte := bytesOf 8 d ++ bytesOf 8 s ++ bytesOf 4 n ++ [BitVec.ofNat 8 fill] ++ List.replicate 11 0
def listAt : Nat := 3 * 2 ^ 30 + 2 ^ 21
def flightM : Store := { (dst 6 (bytesOf 8 listAt ++ bytesOf 2 2)) with dram := cwrite 0 (dst 6 (bytesOf 8 listAt ++ bytesOf 2 2)).dram listAt (segAt src0 (src0 + 9) 1 0 ++ segAt (src0 + 1) 7 1 1) }
def flightRing : Ctl := { runC with gals := vmod Ctl.reset.gals 0 (fun g => { g with dirty := [riserNo src0] }) }
def segF (i o n : Nat) : Nat := ofBytes (cread 0 flightM.dram (dpaOff listAt + 32 * i + o) n)

/-- A flight of two one-byte segments that lie side by side, a copy and a fill. -/
theorem witness_RingDescriptors_flight :
    flightM.wf = true ∧ linePoison flightM dAt = false ∧ headerOf flightM 6 ∧ zeroFrom flightM 18 ∧ fld flightM 8 8 = listAt ∧ listAt % 4096 = 0 ∧ fld flightM 16 2 = 2
      ∧ ringMay flightRing 127 = true ∧ Idle flightRing ∧ RangeServed flightRing 0 (running.sqBase.toNat + 64 * running.sqHead) 64
      ∧ RangeServed flightRing 0 listAt (32 * 2) ∧ RangeSound flightM listAt (32 * 2)
      ∧ (∀ i < 2, 1 ≤ segF i 16 4 ∧ segF i 16 4 ≤ 0x100000 ∧ segF i 20 1 ≤ 1 ∧ segF i 21 11 = 0 ∧ RangeServed flightRing 0 (segF i 0 8) (segF i 16 4)
          ∧ (∀ j < segF i 16 4, isDirty flightRing (dpaOff (segF i 0 8) + j) = true)
          ∧ (segF i 20 1 = 0 → RangeServed flightRing 0 (segF i 8 8) (segF i 16 4) ∧ RangeSound flightM (segF i 8 8) (segF i 16 4)))
      ∧ (∀ i < 2, ∀ j < i, segF i 0 8 + segF i 16 4 ≤ segF j 0 8 ∨ segF j 0 8 + segF j 16 4 ≤ segF i 0 8)
      ∧ ((List.range 2).map (fun i => segF i 16 4)).sum ≤ 0x100000 := by
  simp only [headerOf, zeroFrom, Idle, RangeServed, RangeSound, Plain]
  and_intros <;> first
    | decide
    | (intro i hi; have h : i = 0 ∨ i = 1 := by omega
       rcases h with rfl | rfl <;> refine ⟨by decide, by decide, by decide, by decide, by decide, by decide, by decide⟩)

/-- The descriptor of entry 5 in each state, its completion entry at the end of the queue; a barrier that waits for a request and for a descriptor;
own and partner's flights, alone and with a partner. -/
def doneC (st : DescSt) (status : Nat) (irq : Bool) (count sig : Nat) : Ring :=
  { running with cqTail := 63, descs := [descOf 5 st status irq], intCount := count, signalled := sig }
def ownFlight (own : Bool) : Flight := { own := own, slot := 64, fgen := 3, ring := 300, desc := 1, ld := 0, st := .committed, commitSeq := 0, segs := [], journal := [] }

theorem witness_CompletionsAndFlights :
    (∀ st ∈ [DescSt.finished, .barrier [1] [], .barrier [] [1], .flight 64], ∀ irq, ∀ stat ∈ [0, 4],
        aonOn (ringC (doneC st stat irq 2 0) false) = true ∧ (doneC st stat irq 2 0).owner = some 0
        ∧ (doneC st stat irq 2 0).descs.find? (fun e => e.index == (5 : BitVec 16).toNat) = some (descOf 5 st stat irq))
      ∧ Store.reset.wf = true ∧ Idle (ringC (doneC .finished 0 true 2 0) false) ∧ ringPlaced (ringC running false) running = true ∧ running.enable = true
      ∧ running.cqBase.toNat % 4096 = 0
      ∧ (doneC .finished 0 true 2 1).intCount ≤ (doneC .finished 0 true 2 1).signalled + 1 ∧ (doneC .finished 0 true 2 0).signalled + 1 < (doneC .finished 0 true 2 0).intCount
      ∧ serving (ringC running true) = true
      ∧ rangeOffline (ringC { doneC .finished 0 true 0 0 with cqBase := BitVec.ofNat 64 (992 * 2 ^ 30) } true) (992 * 2 ^ 30 + 16 * 63) 16 = true
      ∧ (∀ own, (ownFlight own).slot = (64 : Byte).toNat ∧ (ownFlight own).st = .committed ∧ (ownFlight own).own = own)
      ∧ soloC.reqs = [] ∧ Idle soloC ∧ pairedNow soloC = false ∧ pairedNow pairC = true ∧ pairC.reqs = []
      ∧ steerEntry { pairC with twin := { pairC.twin with steered := [0, 3], links := vmod (vmod Twin.reset.links 3 (fun _ => { lk .active with txWidth := 4 })) 0 (fun _ => { lk .active with txWidth := 4 }) } } (64 % 64) = some 0 := by
  simp only [Idle]; and_intros <;> first | decide | rfl

/-- The last completion entry of the ring, all of it. -/
theorem witness_CompletionsAndFlights_entry :
    RangeServed (ringC (doneC .finished 0 true 2 0) false) 0 (running.cqBase.toNat + 16 * 63) 16
      ∧ RangeRoom (ringC (doneC .finished 0 true 2 0) false) (running.cqBase.toNat + 16 * 63) 16 := by
  simp only [RangeServed, RangeRoom, Plain]; and_intros <;> decide

/-! ## Power (chapter 10) -/

/-- A rail with OV_CODE 0xC00, UV_CODE 0x400, DISCHARGE_CODE 0x100, OC_CODE 0x800 in use, and its regulator at PMBus address 0x42, page 1. -/
def railX : RailCfg := { cfg := BitVec.ofNat 64 (0xC00 * 2 ^ 52 + 0x400 * 2 ^ 40 + 0x100 * 2 ^ 28 + 0x800 * 2 ^ 16 + 2 ^ 8 + 0x1F), pmb := BitVec.ofNat 64 (2 ^ 16 + 1 * 2 ^ 8 + 0x42) }
def progX (w : BitVec 32) : SeqProg := { up := 0, down := 1, shed := 2, trip := 3, rails := List.replicate 16 railX, words := List.replicate 4 w, data := [0xBEEF] }
/-- A program runs at its last word. -/
def seqC (p : Prog) (w : BitVec 32) (wt : SeqWait) : Ctl := { bare .save with seq := { Seq.reset with prog := some (progX w), running := p, pc := 3, wait := wt } }

/-- Each instruction's word with its fields at their bounds. -/
theorem witness_SequencerInstructions :
    (∀ p ∈ [Prog.up, .shed, .trip], aonOn (seqC p 0 .none) = true) ∧ (seqC .up 0x203F01FF .none).seq.prog = some (progX 0x203F01FF)
      ∧ seqFetch (seqC .up 0x0801FFFF .none) = some (.enable true 0xFFFF) ∧ seqFetch (seqC .shed 0x08008000 .none) = some (.enable false 0x8000)
      ∧ seqFetch (seqC .trip 0x0801FFFF .none) = some (.enable true 0xFFFF) ∧ seqFetch (seqC .up 0x101FFFFF .none) = some (.wait true 0xFFFFF)
      ∧ (seqC .up 0 .wait).seq.running ≠ .none ∧ (seqC .up 0 .wait).seq.wait = .wait
      ∧ seqFetch (seqC .up 0x19E0FFFF .none) = some (.check 15 false 0xFFFF) ∧ seqFetch (seqC .up 0x19F00000 .none) = some (.check 15 true 0)
      ∧ (railAt (seqC .up 0x19F00000 .none) 15).driven = false ∧ seqFetch (seqC .up 0x203F01FF .none) = some (.jumpIf 0x3F true 0xFF)
      ∧ 0xFF ≠ (progX 0).down ∧ seqFetch (seqC .up 0x300A50FF .none) = some (.mark 0xA 5 0xFF) ∧ (0xA : BitVec 4) &&& 5 = 0
      ∧ seqFetch (seqC .shed 0x3801FFFF .none) = some (.waitev 1 0xFFFF) ∧ seqFetch (seqC .shed 0 .none) = some .fin ∧ seqFetch (seqC .trip 0 .none) = some .fin := by
  and_intros <;> first | decide | rfl

/-- A check at either end of its window and at the discharge limit, past it, a transaction at its second and its third try, an awaited event. -/
theorem witness_SequencerWaits :
    (∀ wt ∈ [SeqWait.check 15 false, .check 15 true, .pmbus 1, .pmbus 2, .event true], aonOn (seqC .shed 0x3801FFFF wt) = true ∧ (seqC .shed 0x3801FFFF wt).seq.wait = wt)
      ∧ checkGood (seqC .up 0 (.check 15 false)) 15 false 0x400 = true ∧ checkGood (seqC .up 0 (.check 15 false)) 15 false 0xC00 = true
      ∧ checkGood (seqC .up 0 (.check 15 true)) 15 true 0x100 = true
      ∧ seqFetch (seqC .up 0x2C20F800 .none) = some (.pmbus 0x42 0x0F 2 0) ∧ (progX 0x2C20F800).words[3]? = some 0x2C20F800 ∧ seqDecode 0x2C20F800 = some (.pmbus 0x42 0x0F 2 0)
      ∧ waitevDone (seqC .shed 0x3801FFFF (.event true)) = true ∧ (seqC .shed 0 .none).seq.running = .shed := by
  and_intros <;> first | decide | rfl

/-- The end of UP from STANDBY and the end of DOWN after a save. -/
theorem witness_ProgramsEnd :
    let up : Ctl := { refC .standby with seq := { Seq.reset with prog := some (progX 0), running := .up, pc := 3 } }
    let down : Ctl := { bare .save with seq := { Seq.reset with prog := some (progX 0), running := .down, pc := 3, downCode := 0x38 } }
    seqFetch up = some .fin ∧ up.seq.running = .up ∧ up.glb.mode = .standby ∧ up.clk.ref100 = true
      ∧ seqFetch down = some .fin ∧ down.seq.running = .down ∧ down.seq.downCode ≠ 0 ∧ down.seq.downCode = 0x38 := by
  and_intros <;> first | decide | rfl

def pfC (m : Mode) (filt pfN : Bool) : Ctl := { bare m with pf := { Pf.reset with filtering := filt, pfN := pfN, pfNArmed := true, senseGood := true, inputGood := true } }

theorem witness_PowerFailTriggers :
    (∀ m ∈ [Mode.solo, .paired, .standby], ∀ a b, aonOn (pfC m a b) = true ∧ (pfC m a b).pf.filtering = a ∧ (pfC m a b).pf.pfN = b ∧ (pfC m a b).pf.senseArmed = true
        ∧ (pfC m a b).pf.pfNArmed = true ∧ (pfC m a b).pwrImg.pfNEn = true ∧ (pfC m a b).glb.fatal = false ∧ MayWrite (st (pfC m a b)) 0x40
        ∧ (pfC m a b).pf.senseGood = true ∧ (pfC m a b).pf.inputGood = true ∧ (pfC m a b).seq.running = .none)
      ∧ Mode.solo.service = true ∧ Mode.paired.service = true := by
  simp only [MayWrite]; decide

def supC : Ctl := { bare .solo with seq := { Seq.reset with prog := some (progX 0), rails := Vector.replicate 16 { Rail.reset with en := true, running := true, armed := true } } }

/-- Rail 15 at the last code in its window and the first beyond each limit. -/
theorem witness_RailSupervision :
    aonOn supC = true ∧ (railAt supC 15).en = true ∧ (railAt supC 15).running = true ∧ (railAt supC 15).armed = true ∧ supC.glb.fatal = false
      ∧ railOv (railCfg supC 15) < (0xC01 : BitVec 12).toNat ∧ ¬ railOv (railCfg supC 15) < (0xC00 : BitVec 12).toNat ∧ railOcEn (railCfg supC 15) = true
      ∧ fieldOf (railCfg supC 15).cfg.toNat 27 16 < (0x801 : BitVec 12).toNat ∧ (0x3FF : BitVec 12).toNat < railUv (railCfg supC 15)
      ∧ (∃ q, railsOfReg supC (0x42 : BitVec 7).toNat (1 : Byte).toNat = (0 : Fin 16).val :: q)
      ∧ (srcAt supC 0x2C2).condition = false ∧ (srcAt supC 0x2C9).condition = false ∧ MayWrite (st supC) 0x40 := by
  simp only [MayWrite]
  refine ⟨by decide, by decide, by decide, by decide, by decide, by decide, by decide, by decide, by decide, by decide, ⟨_, rfl⟩, by decide, by decide, by decide⟩

/-- A meter in each phase, its bank settled and not; a result that is accepted and one that is not; a charge that START waits for. -/
def meterC (m : Mode) (p : HoldPhase) (settled deferred : Bool) : Ctl := { bare m with
  pf := { Pf.reset with inputGood := true }
  pwrImg := { PwrImg.reset with droop := 1000, iTest := 10000, scale := 160, vmin := 20000 }
  hold := { Hold.reset with phase := p, settled := settled, deferred := deferred, v0 := 50000, v1 := 49800, v2 := 49000, dt := 1000000 } }

theorem witness_HoldUpMeasurement :
    (∀ p ∈ [HoldPhase.idle, .settle, .load, .recover], ∀ b d, aonOn (meterC .start p b d) = true ∧ MayWrite (st (meterC .start p b d)) 0x40
        ∧ (meterC .start p b d).hold.phase = p ∧ (meterC .start p b d).hold.deferred = d)
      ∧ holdReady (meterC .start .idle true true) = true ∧ holdReady (meterC .start .idle false true) = false
      ∧ holdReady (meterC .solo .idle true true) = true ∧ (meterC .solo .idle true true).glb.mode.service = true
      ∧ 49000 + (meterC .start .load true true).pwrImg.droop ≤ (meterC .start .load true true).hold.v0
      ∧ holdResult (meterC .start .recover true false) 49200 = .inr { cMf := 12500, esr := 200, v0 := 50000, time := 1, iTest := 10000, scale := 160 } ∧ holdResult (meterC .start .recover true false) 48000 = .inl 7
      ∧ holdWaits (meterC .start .idle false true) = true ∧ (meterC .solo .idle true true).glb.mode ≠ .start := by
  simp only [MayWrite]; and_intros <;> first | decide | decide +kernel

theorem witness_ThermalReactions :
    let hot : Ctl := { soloC with throttling := true }
    aonOn soloC = true ∧ soloC.glb.mode.service = true ∧ soloC.throttling = false ∧ (srcAt soloC 0x2D5).condition = false ∧ aonOn hot = true ∧ hot.throttling = true := by decide

/-! ## Fault collection and the Alcove (chapters 11 and 12) -/

def fmsg (src rgen : Nat) : FMsg := { source := src, kind := 1, addr := 0, ini := 0xFF, access := 6, rgen := rgen, rep := 0, forced := false }
def fcuC (m : Mode) (msg : FMsg) (wins : List Win) (u : Tbl UnitSt) : Ctl := { bare m with
  seq := { Seq.reset with prog := some emptyProg }
  fcu := { Fcu.reset with waiting := [msg], windows := wins, unit := u } }
def fencedU (u : Nat) : Tbl UnitSt := [(u, { fenced := true, rgen := 0, fences := 1, fenceSrc := 0, recent := false, held := 2 })]

/-- The first source of each class; a message of another generation, one in a window, one of a fenced unit, and one with none of these. -/
theorem witness_FaultDecisionOrder :
    (∀ x ∈ [(0, FClass.s0), (3, .s1), (0x2C2, .s2), (0x2C0, .s3)], ∀ g ∈ [0, 15], let c := fcuC .solo (fmsg x.1 g) [] []
        aonOn c = true ∧ c.fcu.waiting = [fmsg x.1 g] ∧ (fmsg x.1 g).source = x.1 ∧ x.1 < 768 ∧ c.fcu.self = false ∧ c.fcu.frozen = false ∧ x.1 ≠ 0x2DF
        ∧ classOf c x.1 = x.2 ∧ loggedLately c (fmsg x.1 g) = false ∧ (srcAt c x.1).condition = false ∧ windowOf c (fmsg x.1 g) = none
        ∧ (unitAt c (unitOf c.vlt.targets x.1 0)).rgen = 0 ∧ unitFenced c (unitOf c.vlt.targets x.1 0) = false ∧ c.glb.mode.service = true
        ∧ c.seq.running ≠ .down ∧ c.glb.fatal = false)
      ∧ (windowOf (fcuC .solo (fmsg 3 0) [{ ev := .headFence 0, cause := 5 }] []) (fmsg 3 0)).map Win.cause = some 5
      ∧ unitFenced (fcuC .solo (fmsg 3 0) [] (fencedU 0)) (unitOf 0 3 0) = true ∧ (unitAt (fcuC .solo (fmsg 3 0) [] (fencedU 0)) 0).rgen = 0 := by decide

/-- Sources of class S2 and S3, the latter armed and not; the fence of head 15; unit 0 with a held advance; every self-fault. -/
theorem witness_CollectorControls :
    let armed : Ctl := { bare .solo with fcu := { Fcu.reset with armed := true } }
    let held : Ctl := { bare .solo with fcu := { Fcu.reset with unit := fencedU 15 } }
    MayWrite (st (bare .solo)) 0x40 ∧ MayWrite (st armed) 0x40 ∧ MayWrite (st held) 0x40 ∧ srcDefined 0x2C2 = true ∧ classOf armed 0x2C2 ≠ .s3 ∧ armed.fcu.waiting = []
      ∧ srcDefined 0x2FB = true ∧ classOf armed 0x2FB = .s3 ∧ armed.fcu.armed = true ∧ (bare .solo).fcu.armed = false
      ∧ headFenced held (15 : Fin 16).val = true ∧ unitDefined 15 = true ∧ 0 < (unitAt held 15).held ∧ unitDefined 575 = true
      ∧ held.fcu.self = false ∧ held.glb.mode.service = true ∧ held.seq.running ≠ .down
      ∧ 0x2C0 ≤ (0x2C0 : Fin 768).val ∧ srcDefined 0x2C0 = true ∧ isCondition 0x2C0 = false
      ∧ (0x13 : BitVec 6).toNat ≤ 0x13 ∧ 0x13 < (0x14 : BitVec 6).toNat ∧ (0x2C0 : Fin 768).val ∉ [0x2E1, 0x2E2, 0x2E3, 0x2E4, 0x2E7, 0x2E8, 0x2F6, 0x2F9] := by
  simp only [MayWrite]; and_intros <;> decide

def alcC (a : Alc) : Ctl := { bare .solo with alc := { a with ready := true } }
def bpW : List BufW := [.record 0x07 (.protect 1)]

/-- A buffer with one record, a commit that runs, and an urgent record with a second write of the same record behind it. -/
theorem witness_AlcoveCommits :
    MayWrite (st (alcC { Alc.reset with buf := bpW, busy := true })) 0x40 ∧ (alcC { Alc.reset with buf := bpW }).alc.ready = true
      ∧ (alcC { Alc.reset with buf := bpW }).alc.buf ≠ [] ∧ (alcC { Alc.reset with buf := bpW, busy := true }).alc.busy = true
      ∧ (alcC { Alc.reset with urgent := [(0x07, .protect 1)], buf := bpW }).alc.urgent = [(0x07, .protect 1)] := by
  simp only [MayWrite]; and_intros <;> first | decide | rfl

/-- A ring update at the wrap of its slots; the last page of the margin scan but one. -/
theorem witness_AlcoveRingsWearAndMargin :
    aonOn (alcC { Alc.reset with ringQ := [(0, .count 1)] }) = true ∧ (alcC { Alc.reset with ringQ := [(0, .count 1)] }).alc.ringQ = (0, .count 1) :: []
      ∧ (alcC { Alc.reset with marginPage := 126 }).alc.buf = [] ∧ (alcC { Alc.reset with marginPage := 126 }).alc.marginPage < 127 := by decide

/-! A whole page 0: magic, version and the CRC of what stands before it. -/
def page0Head : List Host.Cell := cwrite 0 [] 0 (bytesOf 8 0x544E44494E4C564E ++ bytesOf 2 1)
def page0Cells : List Host.Cell := cwrite 0 page0Head 0xFFC (bytesOf 4 (crc32c (cread 0 page0Head 0 0xFFC)))

theorem crc32c_lt (l : List Byte) : crc32c l < 2 ^ 32 :=
  Nat.xor_lt_two_pow (crcFold_lt _ (by omega) (by omega) _ _ (by omega)) (by omega)

theorem ofBytes_bytesOf (k : Nat) : ∀ n, ofBytes (bytesOf k n) = n % 256 ^ k := by
  induction k with
  | zero => intro n; simp [bytesOf, ofBytes, Nat.mod_one]
  | succ k ih => intro n; rw [Nat.pow_succ', Nat.mod_mul]; simp only [bytesOf, ofBytes, ih, BitVec.toNat_ofNat]

theorem page0_valid : page0Valid (alcC { Alc.reset with cells := page0Cells }) = true := by
  have w : cwf 0 page0Head = true := by decide
  have low : ∀ x, x < 0xFFC → cget 0 page0Cells x = cget 0 page0Head x := by
    exact fun x h => (cget_cwrite x _ _ w).trans (if_neg (by omega))
  have t : ∀ n ≤ 0xFFC, cread 0 page0Cells 0 n = cread 0 page0Head 0 n := by
    intro n h; apply List.map_congr_left; intro i hi; rw [List.mem_range] at hi; exact low _ (by omega)
  have e1 : (cread 0 page0Cells 0 4096).take 0xFFC = cread 0 page0Head 0 0xFFC := by
    rw [← t _ (Nat.le_refl _), cread, cread, ← List.map_take, List.take_range]; rfl
  have e2 : (cread 0 page0Cells 0 4096).take 8 = cread 0 page0Head 0 8 := by
    rw [← t 8 (by omega), cread, cread, ← List.map_take, List.take_range]; rfl
  have e3 : ((cread 0 page0Cells 0 4096).drop 8).take 2 = (cread 0 page0Head 0 10).drop 8 := by
    have u : (cread 0 page0Cells 0 4096).take 10 = cread 0 page0Cells 0 10 := by
      rw [cread, cread, ← List.map_take, List.take_range]; rfl
    rw [← t 10 (by omega), ← u, List.drop_take]
  have high : ∀ i < 4, cget 0 page0Cells (0xFFC + i) = (bytesOf 4 (crc32c (cread 0 page0Head 0 0xFFC))).getD i 0 := by
    intro i h
    exact (cget_cwrite _ _ _ w).trans ((if_pos ⟨by omega, by simp only [bytesOf, List.length_cons, List.length_nil]; omega⟩).trans (by rw [Nat.add_sub_cancel_left]))
  have e4 : (cread 0 page0Cells 0 4096).drop 0xFFC = bytesOf 4 (crc32c (cread 0 page0Head 0 0xFFC)) := by
    have r : (List.range 4096).drop 0xFFC = [0xFFC, 0xFFC + 1, 0xFFC + 2, 0xFFC + 3] := by
      rw [List.range_eq_range', List.drop_range']; rfl
    rw [cread, ← List.map_drop, r]
    simp only [List.map_cons, List.map_nil, Nat.zero_add]
    have h0 := high 0 (by omega); have h1 := high 1 (by omega); have h2 := high 2 (by omega); have h3 := high 3 (by omega)
    rw [Nat.add_zero] at h0
    rw [h0, h1, h2, h3]; rfl
  have e5 : page0Bytes (alcC { Alc.reset with cells := page0Cells }) = cread 0 page0Cells 0 4096 := rfl
  have k : ofBytes (bytesOf 4 (crc32c (cread 0 page0Head 0 0xFFC))) = crc32c (cread 0 page0Head 0 0xFFC) := by
    rw [ofBytes_bytesOf]; exact Nat.mod_eq_of_lt (crc32c_lt _)
  have a1 : (ofBytes (cread 0 page0Head 0 8) == 0x544E44494E4C564E) = true := by decide
  have a2 : (ofBytes ((cread 0 page0Head 0 10).drop 8) == 1) = true := by decide
  have a0 : (alcC { Alc.reset with cells := page0Cells }).alc.lost.all (fun o => decide (0x1000 ≤ o)) = true := rfl
  rw [page0Valid, a0, e5, e1, e2, e3, e4, k, a1, a2]
  simp only [beq_self_eq_true, Bool.and_self]

/-- Page 0 whole, blank and locked, and block protection is below and above what is asked. -/
theorem witness_AlcoveLockAndProtection :
    let locked := alcC { Alc.reset with locked := true }
    let three : Ctl := { alcC { Alc.reset with bp := 3 } with boot := { Boot.reset with locked := true } }
    MayWrite (st (alcC Alc.reset)) 0x40 ∧ (alcC Alc.reset).alc.locked = false ∧ MayWrite (st locked) 0x40 ∧ locked.alc.locked = true
      ∧ page0Valid (alcC { Alc.reset with cells := page0Cells }) = true ∧ (alcC Alc.reset).alc.bp < (1 : Fin 4).val ∧ (alcC Alc.reset).alc.buf = [] ∧ (alcC Alc.reset).alc.urgent = []
      ∧ MayWrite (st three) 0x40 ∧ (2 : Fin 4).val < three.alc.bp ∧ three.boot.locked = true := by
  simp only [MayWrite]
  refine ⟨by decide, by decide, by decide, by decide, page0_valid, by decide, by decide, by decide, by decide, by decide, by decide⟩

/-- The last page of the device's own and the first of the OEM area, loaded and not. -/
theorem witness_AlcoveWindow :
    let oem := alcC { Alc.reset with winPage := 64, winLoaded := true, winWord := 511 }
    let own := alcC { Alc.reset with winPage := 63, loading := true }
    MayWrite (st oem) 0x40 ∧ MayWrite (st own) 0x40 ∧ fieldOf (0x3F000 : Word).toNat 18 12 ≠ oem.alc.winPage ∧ own.alc.ready = true ∧ own.alc.loading = true
      ∧ oem.alc.winLoaded = true ∧ own.alc.winLoaded = false ∧ 64 ≤ oem.alc.winPage ∧ oem.alc.bp = 0 ∧ oem.alc.buf = [] ∧ 0 < own.alc.winPage ∧ own.alc.winPage < 64 := by
  simp only [MayWrite]; decide

/-! ## RTC, clocks, flash and boot images (chapters 13 to 15) -/

def rtcC (r : Rtc) : Ctl := { bare .solo with rtc := r }
def sh (i : Nat) : Freeze := { ini := i, lo := 1, cal := 2, hi := 3 }

/-- Each stage of the procedure, with a management station's accesses. -/
theorem witness_RtcSetTimeProcedure :
    let run := rtcC Rtc.reset
    let asked := rtcC { Rtc.reset with halt := true }
    let halted := rtcC { Rtc.reset with halt := true, halted := true }
    let written := rtcC { Rtc.reset with halt := true, halted := true, wrote := true }
    let resumed := rtcC { Rtc.reset with halted := true }
    let held := rtcC { Rtc.reset with halt := true, wrote := true, heldSec := some 5, adjusted := true }
    MayWrite (st held) 0x60 ∧ held.rtc.halted = false ∧ held.rtc.wrote = true ∧ MayWrite (st run) 0x60 ∧ MayWrite (st halted) 0x60 ∧ MayWrite (st written) 0x60 ∧ run.rtc.halt = false ∧ asked.rtc.halt = true ∧ asked.rtc.halted = false
      ∧ asked.rtc.heldSec = none ∧ asked.rtc.heldFrac = none ∧ halted.rtc.halted = true ∧ halted.rtc.armed = false ∧ halted.rtc.wrote = false
      ∧ written.rtc.wrote = true ∧ resumed.rtc.halt = false ∧ resumed.rtc.halted = true ∧ MayWrite (st asked) 0x60 ∧ MayWrite (st resumed) 0x60 := by
  simp only [MayWrite]; decide

/-- The trim at either bound, and at 0. -/
theorem witness_RtcCounterAdvances :
    (∀ n ∈ [(-8192 : Int), 0, 8192], let c := rtcC { Rtc.reset with trim := n, trimNow := n }
        c.rtc.halt = false ∧ c.rtc.halted = false ∧ c.rtc.trim.natAbs ≤ 8192 ∧ c.rtc.trimNow.natAbs ≤ 8192 ∧ aonOn c = true)
      ∧ (rtcC Rtc.reset).rtc.armed = false ∧ (rtcC Rtc.reset).rtc.trim = 0 ∧ (rtcC Rtc.reset).rtc.trimNow = 0
      ∧ (srcAt (rtcC Rtc.reset) 0x2F0).condition = false ∧ (srcAt (rtcC Rtc.reset) 0x2F1).condition = false := by decide

/-- A time one second ahead and one that is due; an armed alarm that a time write just reaches. -/
theorem witness_RtcAlarm :
    let c := rtcC { Rtc.reset with seconds := 100 }
    let d := rtcC { Rtc.reset with halt := true, halted := true, armed := true, alarm := 200 }
    let h := rtcC { Rtc.reset with halt := true, heldSec := some 200, armed := true, alarm := 200 }
    MayWrite (st h) 0x60 ∧ h.rtc.halted = false ∧ h.rtc.heldSec = some ((200 : Word).setWidth 40) ∧ c.rtc.halt = false ∧ ((0 : Word).setWidth 40 : BitVec 40).toNat ≤ d.rtc.seconds.toNat ∧ MayWrite (st c) 0x60 ∧ c.rtc.seconds.toNat < ((101 : Word).setWidth 40 : BitVec 40).toNat ∧ ((100 : Word).setWidth 40 : BitVec 40).toNat ≤ c.rtc.seconds.toNat
      ∧ c.rtc.halted = false ∧ MayWrite (st d) 0x60 ∧ d.rtc.halt = true ∧ d.rtc.halted = true ∧ d.rtc.armed = true
      ∧ d.rtc.alarm.toNat ≤ ((200 : Word).setWidth 40 : BitVec 40).toNat := by
  simp only [MayWrite]; decide

/-- Seven freezes of others, eight, and one of the reader's own. -/
theorem witness_RtcFreezes :
    let seven := rtcC { Rtc.reset with freezes := (List.range 7).map sh }
    let eight := rtcC { Rtc.reset with freezes := (List.range 8).map sh }
    let mine := rtcC { Rtc.reset with freezes := [sh 0x60] }
    MayWrite (st seven) 0x60 ∧ MayWrite (st eight) 0x60 ∧ MayWrite (st mine) 0x60 ∧ (∀ f ∈ eight.rtc.freezes, f.ini ≠ (0x60 : Byte).toNat)
      ∧ seven.rtc.freezes.length < 8 ∧ eight.rtc.freezes.length = 8 ∧ mine.rtc.freezes.find? (fun x => x.ini == (0x60 : Byte).toNat) = some (sh 0x60) := by
  simp only [MayWrite]; decide

/-- Both bounds of RTC_TRIM and the first value beyond, a measurement that runs and one that may start. -/
theorem witness_RtcTrim :
    let run := rtcC { Rtc.reset with measRes := .running, timeRef := 1, windowS := 64 }
    let may := rtcC { Rtc.reset with timeRef := 1 }
    MayWrite (st run) 0x60 ∧ MayWrite (st may) 0x60 ∧ (BitVec.ofInt 16 (-8192)).toInt.natAbs ≤ 8192 ∧ (8192 : BitVec 16).toInt.natAbs ≤ 8192
      ∧ 8192 < (8193 : BitVec 16).toInt.natAbs ∧ may.rtc.measRes ≠ .running ∧ may.rtc.timeRef ≠ 0 ∧ run.rtc.measRes = .running ∧ run.rtc.timeRef = 1
      ∧ (srcAt run 0x2F2).condition = false := by
  simp only [MayWrite]; decide

/-- The core domain at a frequency just out of tolerance, a stopped slice, and the first and the last domain that a crossing names. -/
theorem witness_ClockEvents :
    let on : Ctl := { refC .solo with clk := { Clk.reset with ref100 := true, aonCal := true, xspiOn := true }, rtc := { Rtc.reset with oscStopped := false } }
    aonOn on = true ∧ coreRuns on = true ∧ on.clk.ref100 = true ∧ (∀ h < 16, (headAt on h).linkUp = false) ∧ (srcAt on 0x2FC).condition = false
      ∧ (bare .start).clk.ref100 = false ∧ on.clk.aonCal = true ∧ on.rtc.oscStopped = false ∧ (∃ d < 54, domPll d = true ∧ domRunning on d = true)
      ∧ 1000 < (-1001 : Int).natAbs ∧ (srcAt on 0x2FD).condition = false ∧ on.clk.xspiOn = true ∧ on.boot.flashOp = none ∧ on.boot.verifying = none
      ∧ 0x40 ≤ (0x60 : Byte).toNat ∧ blkAnswers (bare .standby) (blkOf 0x200000) 0x200000 = false ∧ domListed 0 = true ∧ domListed 53 = true := by
  refine ⟨by decide, by decide, by decide, by decide, by decide, by decide, by decide, by decide, ⟨3, by decide⟩, by decide, by decide, by decide, by decide, by decide, by decide, by decide, by decide, by decide⟩

def flashC (m : Mode) (a : BitVec 32) (op : Option FlashOp) : Ctl := { bare m with boot := { Boot.reset with flashAddr := a, flashOp := op } }

/-- No command and one of each kind in progress, an aligned address and its neighbour, a free slot and a protected one, SERVICE and STANDBY. -/
theorem witness_FlashCommands :
    (∀ m ∈ [Mode.standby, .solo, .save], ∀ op ∈ [none, some FlashOp.read, some .program, some .erase4k, some .erase64k],
        MayWrite (st (flashC m 0x10000 op)) 0x40 ∧ aonOn (flashC m 0x10000 op) = true ∧ (flashC m 0x10000 op).boot.flashOp = op)
      ∧ (∀ op ∈ [FlashOp.read, .program, .erase4k, .erase64k], 0x10000 % flashSpan op = 0 ∧ 0x10001 % flashSpan op ≠ 0)
      ∧ flashProtected (flashC .solo 0x10000 none) .program = false
      ∧ flashProtected { flashC .solo 0x10000 none with boot := { (flashC .solo 0x10000 none).boot with runSlot := 1 } } .program = true
      ∧ Mode.standby.service = false ∧ Mode.solo.service = true ∧ Store.reset.wf = true := by
  simp only [MayWrite]; and_intros <;> decide

theorem witness_SlotVerification :
    let c (n : Option Nat) : Ctl := { bare .solo with boot := { Boot.reset with verifying := n } }
    (∀ n ∈ [none, some 1, some 2], MayWrite (st (c n)) 0x40 ∧ aonOn (c n) = true ∧ (c n).boot.verifying = n) := by
  simp only [MayWrite]; decide

/-! ## Resets and starts (chapters 15 and 16) -/

def inResetC : Ctl := { bare .save with glb := { Glb.reset with mode := .save, resetHeld := some .save } }

/-- OFF, a device that saves when its supply is lost or RESET_N falls, and one held in reset. -/
theorem witness_SupplyAndResetN :
    (bare .off).glb.mode = .off ∧ (bare .save).glb.mode ≠ .off ∧ (bare .save).boot.flashOp = none ∧ aonOn (bare .save) = true
      ∧ inResetC.glb.resetHeld = some .save := by decide

/-! An image whose content meets every check: sections 0x01 (one byte), 0x02 (PF_N_EN-like parameter 0x407 at 0) and 0x03 (all zero), in slot A or B. -/
def secEntry (ty off n : Nat) : List Byte := bytesOf 2 ty ++ bytesOf 2 0 ++ bytesOf 4 off ++ bytesOf 4 n
def imageHead (b : Nat) : List Host.Cell :=
  let h0 := cwrite 0xFF [] (b + 0x00A) (bytesOf 2 3 ++ bytesOf 4 16384)
  let h1 := cwrite 0xFF h0 (b + 0x100) (secEntry 1 4096 1)
  let h2 := cwrite 0xFF h1 (b + 0x140) (secEntry 2 8192 8)
  let h3 := cwrite 0xFF h2 (b + 0x180) (secEntry 3 12288 1424)
  cwrite 0xFF h3 (b + 8192) (bytesOf 2 0x407 ++ [0, 0] ++ bytesOf 4 0)
/-- The POWER section, all zero: four programs that end at once, over rails that nothing uses. -/
@[irreducible] def powerBytes : List Byte := List.replicate 1424 0
def imageFlash (sl : Nat) : List Host.Cell := cwrite 0xFF (imageHead (slotBase sl)) (slotBase sl + 12288) powerBytes
def imageM (sl : Nat) : Store := { Store.reset with flash := imageFlash sl }

theorem powerBytes_length : powerBytes.length = 1424 := by rw [powerBytes]; exact List.length_replicate

theorem powerBytes_get (i : Nat) : powerBytes.getD i 0 = 0 := by
  rw [powerBytes, List.getD_eq_getElem?_getD, List.getElem?_replicate]; split <;> rfl

theorem imageHead_wf (sl : Nat) (h : sl = 1 ∨ sl = 2) : cwf 0xFF (imageHead (slotBase sl)) = true := by
  rcases h with rfl | rfl <;> decide

theorem image_low (sl : Nat) (h : sl = 1 ∨ sl = 2) (x : Nat) (b : x < 12288) :
    cget 0xFF (imageFlash sl) (slotBase sl + x) = cget 0xFF (imageHead (slotBase sl)) (slotBase sl + x) := by
  rw [imageFlash, cget_cwrite _ _ _ (imageHead_wf sl h), powerBytes_length, if_neg (by omega)]

theorem image_power (sl : Nat) (h : sl = 1 ∨ sl = 2) (x : Nat) (b : x < 1424) : cget 0xFF (imageFlash sl) (slotBase sl + 12288 + x) = 0 := by
  rw [imageFlash, cget_cwrite _ _ _ (imageHead_wf sl h), powerBytes_length, if_pos (by omega), Nat.add_sub_cancel_left, powerBytes_get]

theorem image_num (sl : Nat) (h : sl = 1 ∨ sl = 2) (x n : Nat) (b : x + n ≤ 12288) :
    flNum (imageM sl) (slotBase sl + x) n = ofBytes (cread 0xFF (imageHead (slotBase sl)) (slotBase sl + x) n) := by
  refine congrArg ofBytes (List.map_congr_left ?_)
  intro i hi; rw [List.mem_range] at hi
  have e := image_low sl h (x + i) (by omega)
  rw [← Nat.add_assoc] at e; exact e

theorem ofBytes_zero (l : List Byte) (h : ∀ b ∈ l, b = 0) : ofBytes l = 0 := by
  induction l with
  | nil => rfl
  | cons b l ih => rw [ofBytes, h b (List.mem_cons_self ..), ih (fun x hx => h x (List.mem_cons_of_mem _ hx))]; rfl

theorem image_zero (sl : Nat) (h : sl = 1 ∨ sl = 2) (x n : Nat) (b : x + n ≤ 1424) : flNum (imageM sl) (slotBase sl + 12288 + x) n = 0 := by
  refine ofBytes_zero _ ?_
  intro y hy
  obtain ⟨i, hi, rfl⟩ := List.mem_map.1 hy
  rw [List.mem_range] at hi
  have e := image_power sl h (x + i) (by omega)
  rw [← Nat.add_assoc] at e; exact e

theorem image_secAt (sl : Nat) (h : sl = 1 ∨ sl = 2) (i : Nat) (b : i < 32) : secAt (imageM sl) sl i =
    (ofBytes (cread 0xFF (imageHead (slotBase sl)) (slotBase sl + (0x100 + 64 * i)) 2), ofBytes (cread 0xFF (imageHead (slotBase sl)) (slotBase sl + (0x104 + 64 * i)) 4),
     ofBytes (cread 0xFF (imageHead (slotBase sl)) (slotBase sl + (0x108 + 64 * i)) 4)) := by
  rw [secAt, hdrNum, hdrNum, hdrNum, image_num sl h _ _ (by omega), image_num sl h _ _ (by omega), image_num sl h _ _ (by omega)]

theorem image_sections (sl : Nat) (h : sl = 1 ∨ sl = 2) : sections (imageM sl) sl = [(1, 4096, 1), (2, 8192, 8), (3, 12288, 1424)] := by
  have n : hdrSections (imageM sl) sl = 3 := by
    rw [hdrSections, hdrNum, image_num sl h _ _ (by omega)]; rcases h with rfl | rfl <;> decide
  have r : List.range 3 = [0, 1, 2] := rfl
  rw [sections, n, r, List.map_cons, List.map_cons, List.map_cons, List.map_nil, image_secAt sl h 0 (by omega), image_secAt sl h 1 (by omega), image_secAt sl h 2 (by omega)]
  rcases h with rfl | rfl <;> decide

theorem image_len (sl : Nat) (h : sl = 1 ∨ sl = 2) : hdrLen (imageM sl) sl = 16384 := by
  rw [hdrLen, hdrNum, image_num sl h _ _ (by omega)]; rcases h with rfl | rfl <;> decide

theorem image_params (sl : Nat) (h : sl = 1 ∨ sl = 2) : paramsOf (imageM sl) sl = [(0x407, 0, 0)] := by
  have o : secOf (imageM sl) sl 2 = some (8192, 8) := by rw [secOf, image_sections sl h]; rfl
  have r : List.range (8 / 8) = [0] := rfl
  simp only [paramsOf, o, r, List.map_cons, List.map_nil, secNum]
  simp only [Nat.add_assoc]
  rw [image_num sl h _ _ (by omega), image_num sl h _ _ (by omega), image_num sl h _ _ (by omega)]
  rcases h with rfl | rfl <;> decide

def zeroProg : SeqProg :=
  { up := 0, down := 0, shed := 0, trip := 0, rails := List.replicate 16 { cfg := 0, pmb := 0 }, words := List.replicate 256 0, data := List.replicate 64 0 }

theorem image_prog (sl : Nat) (h : sl = 1 ∨ sl = 2) : powerProg (imageM sl) sl = some zeroProg := by
  have o : secOf (imageM sl) sl 3 = some (12288, 1424) := by rw [secOf, image_sections sl h]; rfl
  have z : ∀ x n, x + n ≤ 1424 → secNum (imageM sl) sl 3 x n = 0 := by
    intro x n b; simp only [secNum, o]; exact image_zero sl h x n b
  have e1 : (List.range 16).map (fun r => ({ cfg := BitVec.ofNat 64 (secNum (imageM sl) sl 3 (16 * r) 8), pmb := BitVec.ofNat 64 (secNum (imageM sl) sl 3 (16 * r + 8) 8) } : RailCfg))
      = List.replicate 16 { cfg := 0, pmb := 0 } := by
    refine (List.map_congr_left (g := fun _ => ({ cfg := 0, pmb := 0 } : RailCfg)) ?_).trans (by rw [List.map_const', List.length_range])
    intro r hr; rw [List.mem_range] at hr; rw [z _ _ (by omega), z _ _ (by omega)]; rfl
  have e2 : (List.range 256).map (fun i => BitVec.ofNat 32 (secNum (imageM sl) sl 3 (0x190 + 4 * i) 4)) = List.replicate 256 0 := by
    refine (List.map_congr_left (g := fun _ => (0 : BitVec 32)) ?_).trans (by rw [List.map_const', List.length_range])
    intro r hr; rw [List.mem_range] at hr; rw [z _ _ (by omega)]; rfl
  have e3 : (List.range 64).map (fun i => BitVec.ofNat 16 (secNum (imageM sl) sl 3 (0x110 + 2 * i) 2)) = List.replicate 64 0 := by
    refine (List.map_congr_left (g := fun _ => (0 : BitVec 16)) ?_).trans (by rw [List.map_const', List.length_range])
    intro r hr; rw [List.mem_range] at hr; rw [z _ _ (by omega)]; rfl
  simp only [powerProg, o]
  rw [e1, e2, e3, z _ _ (by omega), z _ _ (by omega), z _ _ (by omega), z _ _ (by omega)]; rfl

theorem zeroProg_ok : progOk zeroProg = true := by
  have w : zeroProg.words.all (fun w => (seqDecode w).isSome) = true :=
    List.all_eq_true.2 (fun x hx => by rw [(List.mem_replicate.1 hx).2]; rfl)
  have u : railsUsed zeroProg = [] := by
    refine List.filter_eq_nil_iff.2 (fun r _ => ?_)
    rw [Bool.not_eq_true, List.any_eq_false]
    intro x hx; rw [(List.mem_replicate.1 hx).2, show seqDecode 0 = some .fin from rfl]; exact Bool.false_ne_true
  have t : railTableOk zeroProg = true := by rw [railTableOk, u]; decide
  rw [progOk, w, t]
  simp only [zeroProg, List.length_replicate]; decide

theorem image_content (sl : Nat) (h : sl = 1 ∨ sl = 2) : contentResult (imageM sl) sl = 0 := by
  have o6 : secOf (imageM sl) sl 6 = none := by rw [secOf, image_sections sl h]; rfl
  have o8 : secOf (imageM sl) sl 8 = none := by rw [secOf, image_sections sl h]; rfl
  have t : secTableOk (imageM sl) sl = true := by rw [secTableOk, image_sections sl h, image_len sl h]; decide
  have ow : ownersOk (imageM sl) sl = true := by rw [ownersOk, o6]; rfl
  have rt : retryOk (imageM sl) sl = true := by simp only [retryOk, o8]
  have o2 : secOf (imageM sl) sl 2 = some (8192, 8) := by rw [secOf, image_sections sl h]; rfl
  have o3 : secOf (imageM sl) sl 3 = some (12288, 1424) := by rw [secOf, image_sections sl h]; rfl
  have z3 : secNum (imageM sl) sl 3 0x104 12 = 0 := by simp only [secNum, o3]; exact image_zero sl h _ _ (by omega)
  have z2 : paramZeros (imageM sl) sl = true := by
    have r : List.range (8 / 8) = [0] := rfl
    simp only [paramZeros, o2, r, List.all_cons, List.all_nil, secNum, Nat.add_assoc]
    rw [image_num sl h _ _ (by omega)]
    rcases h with rfl | rfl <;> decide
  rw [contentResult, t, ow, rt, image_prog sl h, image_params sl h, z3, z2]
  simp only [Option.any_some, zeroProg_ok]; decide

/-- START in stage 1 with the slot that stage 0 chose, over the whole page 0; STANDBY that meets every condition of an ON request, with the SEQ
record and without. -/
def bootC (m : Mode) (b : Boot) : Ctl := { bare m with
  boot := b
  alc := { Alc.reset with ready := true, cells := page0Cells } }
def onC (rec : Bool) : Ctl := { bare .standby with
  glb := { Glb.reset with mode := .standby, inputGood100 := true }
  pf := { Pf.reset with inputGood := true }
  alc := { Alc.reset with ready := true, recs := if rec then [(0x0B, { a := .valid 1 (.seq zeroProg), b := .blank })] else [] } }
def noV : SlotVerdict := { key := false, sig := false, hashes := false }

theorem onC_seq : seqRec (onC true) = some zeroProg := by
  have e : recOf (onC true) 0x0B = some (.seq zeroProg) := rfl
  rw [seqRec, e]; simp only [zeroProg_ok, if_true]

theorem seqRec_alc {c e : Ctl} (h : c.alc = e.alc) : seqRec c = seqRec e := by
  simp only [seqRec, recOf, recWaiting, slotAt, h]

theorem xspiWake_alc (c : Ctl) : (xspiWake c).alc = c.alc := rfl
theorem wake_seq (c : Ctl) : seqRec (xspiWake c) = seqRec c := seqRec_alc (xspiWake_alc c)

/-- With the flash unreadable, stage 0 runs the program of the SEQ record, or none. -/
theorem stage0_record (d : Dev) (a b : SlotVerdict) (p : SeqProg) (h : seqRec d.ctl = some p) :
    (stage0 d false a b).2 = true ∧ (stage0 d false a b).1.ctl.seq.prog = some p := by
  have z (c : Ctl) : slotChoose c [] = 0 := rfl
  have e (f g : Boot → Boot) : seqRec (raiseF (onBoot (onBoot d.ctl f) g) 0x2C5 0x0F) = some p := (seqRec_alc (raiseF_alc _ _ _)).trans h
  simp only [stage0, Bool.false_eq_true, if_false, z, beq_self_eq_true, Bool.true_or, if_true, e]
  exact ⟨trivial, rfl⟩

theorem stage0_none (d : Dev) (a b : SlotVerdict) (h : seqRec d.ctl = none) : (stage0 d false a b).2 = false := by
  have z (c : Ctl) : slotChoose c [] = 0 := rfl
  have e (f g : Boot → Boot) : seqRec (raiseF (onBoot (onBoot d.ctl f) g) 0x2C5 0x0F) = none := (seqRec_alc (raiseF_alc _ _ _)).trans h
  simp only [stage0, Bool.false_eq_true, if_false, z, beq_self_eq_true, Bool.true_or, if_true, e]

theorem bootC_page0 (m : Mode) (b : Boot) : page0Auth (bootC m b) = true := by
  have v : page0Valid (bootC m b) = true := page0_valid
  have l : (bootC m b).alc.locked = false := rfl
  simp only [page0Auth, page0Class, v, l, if_true]; rfl

def stage1B (sl : Nat) : Boot := { Boot.reset with stage := .stage1, runSlot := sl }

theorem onC_run : (stage0 { (st (onC true)).dev with ctl := xspiWake (onC true) } false noV noV).2 = true :=
  (stage0_record { (st (onC true)).dev with ctl := xspiWake (onC true) } noV noV zeroProg ((wake_seq (onC true)).trans onC_seq)).1
def warmC : Ctl := { onC true with glb := { Glb.reset with mode := .start, ltCode := 0x40 }, boot := { Boot.reset with stage := .stage0 } }
theorem warmC_seq : seqRec warmC = some zeroProg := (seqRec_alc (e := onC true) rfl).trans onC_seq
def warmD : Dev := { ctl := xspiWake warmC, mem := Store.reset }
theorem warmC_run : (stage0 warmD false noV noV).1.ctl.seq.prog = some zeroProg :=
  (stage0_record warmD noV noV zeroProg ((wake_seq warmC).trans warmC_seq)).2

/-- An ON request with a program and without; slot A and slot B whose content is whole, the counter below its limit, a slot to fall back to. -/
theorem witness_BootStages :
    onReady (onC true) = true ∧ (stage0 { (st (onC true)).dev with ctl := xspiWake (onC true) } false noV noV).2 = true
      ∧ onReady (onC false) = true ∧ (stage0 { (st (onC false)).dev with ctl := xspiWake (onC false) } false noV noV).2 = false
      ∧ (∀ sl ∈ [1, 2], (bootC .start (stage1B sl)).glb.mode = .start ∧ (bootC .start (stage1B sl)).boot.stage = .stage1 ∧ (bootC .start (stage1B sl)).seq.running = .none
          ∧ (bootC .start (stage1B sl)).boot.cause0 = 0 ∧ (bootC .start (stage1B sl)).boot.runSlot = sl)
      ∧ contentResult (imageM 1) 1 = 0 ∧ contentResult (imageM 2) 2 = 0 ∧ slotAuth (bootC .start (stage1B 1)) 2 = true
      ∧ bootCount (bootC .start (stage1B 1)) < (bootC .start (stage1B 1)).img.bootLimit ∧ { stage1B 0 with cause0 := 3 }.cause0 ≠ 0 := by
  refine ⟨by decide, onC_run, by decide, stage0_none _ _ _ rfl, by decide, image_content 1 (.inl rfl), image_content 2 (.inr rfl), ?_, by decide, by decide⟩
  rw [slotAuth, bootC_page0]; decide

/-- Stage 2 before training, after it with DIMMs that agree and with none found, and with the streams indexed. -/
def stage2C (ph : StartPhase) (d : Dch) : Ctl := { bare .start with
  boot := { Boot.reset with stage := .stage2, phase := ph }
  pair := { Pair.reset with paired := true }
  dchs := Vector.replicate 32 d }
def goodD : Dch := { Dch.reset with result := 4, cap := 256, die := 3, ranks := 2, stack := 2 }

theorem witness_BootStage2Steps :
    (∀ ph ∈ [StartPhase.none, .training, .index], (stage2C ph goodD).glb.mode = .start ∧ (stage2C ph goodD).boot.stage = .stage2 ∧ (stage2C ph goodD).seq.running = .none
        ∧ (stage2C ph goodD).boot.phase = ph ∧ (stage2C ph goodD).pair.paired = true ∧ (stage2C ph goodD).boot.pairWaitOver = false)
      ∧ trainingDone (stage2C .training goodD) = true ∧ dimmOrg (stage2C .training goodD) = some [256, 3, 2, 2] ∧ prefFits (dimmSet (stage2C .training goodD) [256, 3, 2, 2]) = true
      ∧ trainingDone (stage2C .training Dch.reset) = true ∧ dimmOrg (stage2C .training Dch.reset) = none
      ∧ bootCount (stage2C .training Dch.reset) < (stage2C .training Dch.reset).img.bootLimit := by
  refine ⟨by decide, ?_, ?_, by decide, ?_, ?_, by decide⟩
  · rw [trainingDone, Vector.all_eq_true]; decide
  · have a : (stage2C .training goodD).dchs.all (fun x => [x.cap, x.die, x.ranks, x.stack] == dimmsFound (stage2C .training goodD) && x.cap != 0) = true := by
      rw [Vector.all_eq_true]; decide
    have r : dimmRecord (stage2C .training goodD) = none := rfl
    simp only [dimmOrg, r, a, if_true]; rfl
  · rw [trainingDone, Vector.all_eq_true]; decide
  · have a : (stage2C .training Dch.reset).dchs.all (fun x => [x.cap, x.die, x.ranks, x.stack] == dimmsFound (stage2C .training Dch.reset) && x.cap != 0) = false := by
      rw [Vector.all_eq_false]; exact ⟨0, by omega, by decide⟩
    have r : dimmRecord (stage2C .training Dch.reset) = none := rfl
    simp only [dimmOrg, r, a, Bool.false_eq_true, if_false]

/-- A start below its limit and at it; each cause of a failed start; SERVICE. -/
theorem witness_FailedStarts :
    let c (n : Nat) : Ctl := { bare .start with boot := { Boot.reset with stage := .stage2, runSlot := 1 }, alc := { Alc.reset with ready := true, rings := [(0, { slots := [(1, .valid 1 (.count n))], newest := 1, torn := 0 })] } }
    (∀ n ∈ [2, 3], starting (c n) = true ∧ (c n).boot.stage = .stage2 ∧ aonOn (c n) = true) ∧ bootCount (c 2) < (c 2).img.bootLimit ∧ (c 3).img.bootLimit ≤ bootCount (c 3)
      ∧ (∀ x ∈ failCauses, x ∈ failCauses ∧ x < 256) ∧ soloC.glb.mode.service = true := by decide

/-- WARM in SERVICE, VAULT.HOLD and STANDBY, and with FATAL at 1; a warm reset over a program of the SEQ record. -/
theorem witness_WarmResets :
    let fatal : Ctl := { bare .solo with glb := { Glb.reset with mode := .solo, fatal := true } }
    let hold : Ctl := { bare .hold with clk := { Clk.reset with ref100Settled := true } }
    (stage0 warmD false noV noV).1.ctl.seq.prog = some zeroProg
      ∧ MayWrite (st fatal) 0x40 ∧ fatal.glb.fatal = true ∧ MayWrite (st soloC) 0x40 ∧ soloC.glb.fatal = false ∧ soloC.glb.mode.service = true
      ∧ MayWrite (st hold) 0x40 ∧ hold.glb.fatal = false ∧ hold.glb.mode = .hold ∧ hold.clk.ref100Settled = true ∧ hold.seq.running = .none
      ∧ MayWrite (st (bare .standby)) 0x40 ∧ (bare .standby).glb.fatal = false
      ∧ warmC.glb.mode = .start ∧ warmC.boot.stage = .stage0 ∧ warmC.seq.running = .none ∧ warmC.glb.ltCode = 0x40 ∧ warmC.svr.token = none := by
  refine ⟨warmC_run, ?_⟩; simp only [MayWrite]; and_intros <;> first | rfl | decide

/-- R351, R527, R528: the outputs after a trip, in service, and with a link lost. -/
theorem test_pins :
    tripPin { bare .standby with seq := { Seq.reset with tripN := false } } = .low ∧ tripPin (bare .standby) = .highZ
      ∧ holdChgPin (bare .standby) = .low ∧ holdChgPin { bare .standby with pf := { (bare .standby).pf with inputGood := true } } = .high
      ∧ dchResetPin (bare .hold) 31 = .high ∧ dchResetPin (bare .start) 0 = .low ∧ wpPin (onVlt soloC (fun v => { v with mount := 2 })) = .high ∧ wpPin (bare .hold) = .low
      ∧ headTx (bare .hold) 0 = .unpowered ∧ headTx (bare .start) 15 = .idle ∧ twinTx (bare .solo) 0 = .idle ∧ pwrOnPin (bare .off) = .highZ := by decide

/-! ## Registers and management (chapter 17) -/

def ownRing (x : Ring) : Ctl := { soloC with rings := [(127, x)] }
def frozenC : Ctl := let c := bare .solo; { c with fcu := { c.fcu with frozen := true } }
def lockedC : Ctl := { soloC with boot := { soloC.boot with locked := true } }

/-- Initiators with and without management rights, a domain that does not run, offsets with no register, an owned ring in two states, and the
bounds of an MCTP request. -/
theorem witness_RegisterAccess :
    (∀ n ∈ [0, 1, 0x60, 0x40], canReach soloC n = true) ∧ mgmtRight soloC 0 = true ∧ mgmtRight soloC 1 = false
      ∧ accessRight soloC (blkOf 0x200000) 1 true = false ∧ accessRight soloC (blkOf 0x1000000) 0x60 true = false
      ∧ canReach (bare .standby) 0x60 = true ∧ accessRight (bare .standby) (blkOf 0x100000) 0x60 true = true ∧ blkAnswers (bare .standby) (blkOf 0x100000) 0x100000 = false
      ∧ blkOf 0x420000 = .none ∧ blkOf 0x5EFFF8 = .none
      ∧ gateOf (ownRing ring0) 0 (0x1000000 + 127 * 0x1000) 8 true = .ok ∧ ring0.st = .disabled ∧ running.st ≠ .disabled
      ∧ gateOf (ownRing running) 0 (0x1000000 + 127 * 0x1000) 8 true = .ok
      ∧ (∀ c ∈ [soloC, lockedC], ∀ h < 16, blkAnswers c (blkOf (0x100000 + h * 0x10000)) (0x100000 + h * 0x10000) = true) ∧ soloC.boot.locked = false ∧ lockedC.boot.locked = true
      ∧ soloC.fcu.frozen = false ∧ frozenC.fcu.frozen = true ∧ canReach frozenC 0x60 = true ∧ aonOn soloC = true
      ∧ (0x3FFFF00 : BitVec 32).toNat + (32 : Byte).toNat * (8 : Byte).toNat ≤ 0x4000000 ∧ (0xFFF80 : BitVec 32).toNat + (16 : Byte).toNat * 8 ≤ 0x100000
      ∧ (6 : BitVec 32).toNat % (4 : Byte).toNat ≠ 0 := by
  refine ⟨?_, ?_, ?_, ?_, ?_, ?_, ?_, ?_, ?_, ?_, ?_, ?_, ?_, ?_, ?_, ?_⟩ <;> decide

/-- Hall 5 is unassigned and dirty as a whole. -/
def fillC : Ctl := { soloC with gals := vmod Ctl.reset.gals 0 (fun g => { g with dirty := List.range' (5 * 2 ^ 22) (2 ^ 22) }) }

theorem fill_gal (a : Nat) (h : a / 2 ^ 30 = 5) : galOf fillC a = 0 := by
  have e : hallOf a = 5 := h
  have m : isMeta a = false := by rw [isMeta, metaBase, decide_eq_false_iff_not]; omega
  rw [galOf, m, e, if_neg Bool.false_ne_true]; decide

theorem fill_dirty (a : Nat) (h : a / 2 ^ 30 = 5) : isDirty fillC a = true := by
  rw [isDirty, fill_gal a h, show (galAt fillC 0).dirty = List.range' (5 * 2 ^ 22) (2 ^ 22) from rfl, List.contains_iff_mem, List.mem_range'_1, riserNo]
  omega

theorem fill_plain (a : Nat) (h : a / 2 ^ 30 = 5) : Plain fillC a := by
  refine ⟨rfl, ?_, ?_, ?_, rfl, rfl, .inl (fill_dirty a h)⟩
  · rw [fill_gal a h]; decide
  · rw [fill_gal a h]; rfl
  · rw [unrestored, show fillC.svr.unrestored.has (treadNo a) = false from rfl, Bool.and_false]

def mgmtC (m : Mode) (ph : HoldPhase) : Ctl := { bare m with
  clk := { Clk.reset with ref100Settled := true }, hold := { Hold.reset with phase := ph } }
def readyC : Ctl := { soloC with
  pf := { Pf.reset with inputGood := true }, hold := { Hold.reset with settled := true, dbHold := 1000, vBank := 50000 } }
/-- The fill of hall 5, at its last line and with none left. -/
def fillingC (r : List Req) : Ctl := { soloC with halls := [(5, { Hall.fresh with sanitize := true, fill := some (7, 0) })], reqs := r }

/-- LD 0 and the management CCI, in each state that accepts a command and in one that does not; a clock whose setting is in progress; hall 5 whole
and being filled. -/
theorem witness_ManagementCommands :
    canReach soloC 0 = true ∧ canReach soloC 1 = true ∧ mgmtRight soloC 0 = true ∧ mgmtRight soloC 1 = false ∧ canReach soloC 0x60 = true
      ∧ soloC.glb.mode.service = true ∧ soloC.glb.fatal = false ∧ hallCount soloC = 7936
      ∧ (∀ m ∈ [Mode.hold, .vestibule, .standby, .start], canReach (mgmtC m .idle) 0x60 = true ∧ mgmtRight (mgmtC m .idle) 0x60 = true ∧ m.service = false ∧ m ≠ .save)
      ∧ (mgmtC .hold .idle).clk.ref100Settled = true ∧ (mgmtC .hold .idle).seq.running = .none ∧ (mgmtC .vestibule .idle).alc.faulted = false
      ∧ soloC.hold.phase = .idle ∧ backgroundOf soloC 0 = none ∧ (mgmtC .solo .settle).hold.phase ≠ .idle ∧ holdReady soloC = false
      ∧ canReach (bare .save) 0x60 = true ∧ soloC.rtc.halt = false ∧ soloC.rtc.armed = false ∧ canReach (mgmtC .solo .settle) 0x60 = true
      ∧ soloC.fcu.frozen = false ∧ frozenC.fcu.frozen = true ∧ (946684800000000000 : Word).toNat ≥ 946684800000000000 ∧ (255 : Word).toNat % 256 ≠ 0
      ∧ (5 : Nat) < hallCount soloC ∧ (hallAt soloC 5).mode = .unassigned ∧ (hallAt soloC 5).fill = none ∧ (hallAt soloC 4).mode ≠ .unassigned
      ∧ Store.reset.wf = true ∧ pairedNow (fillingC []) = false ∧ (hallAt (fillingC []) 5).fill = some (7, 0)
      ∧ (fillingC [Req.fresh (.sanitize 5) 0 .write (5 * 2 ^ 30) (5 * 2 ^ 30)]).reqs.any (fun r => r.src == .sanitize 5) = true := by
  refine ⟨?_, ?_, ?_, ?_, ?_, ?_, ?_, ?_, ?_, ?_, ?_, ?_, ?_, ?_, ?_, ?_, ?_⟩ <;> decide

theorem witness_HallSanitize :
    canReach fillC 0 = true ∧ mgmtRight fillC 0 = true ∧ fillC.glb.mode = .solo ∧ Idle fillC ∧ backgroundOf fillC 0 = none
      ∧ (hallAt fillC 5).mode = .unassigned ∧ (hallAt fillC 5).fill = none
      ∧ ∀ i < 2 ^ 30, Plain fillC (5 * 2 ^ 30 + i) ∧ isDirty fillC (5 * 2 ^ 30 + i) = true := by
  refine ⟨rfl, rfl, rfl, ⟨rfl, rfl, rfl, rfl, rfl, by decide⟩, rfl, rfl, rfl, fun i hi => ?_⟩
  have e : (5 * 2 ^ 30 + i) / 2 ^ 30 = 5 := by omega
  exact ⟨fill_plain _ e, fill_dirty _ e⟩

theorem witness_HoldReady : holdReady readyC = true ∧ canReach readyC 0x60 = true ∧ readyC.hold.phase = .idle ∧ backgroundOf readyC 0x60 = none := by decide

def pairAdd : Ctl := { pairC with halls := [] }
def sharedTwo : Ctl := { soloC with halls := [(4, { Hall.fresh with mode := .shared, tag := 9, sharers := [{ slot := 0, here := false, ld := 63 }] })] }
def wiping : Ctl := { soloC with halls := [(5, { Hall.fresh with sanitize := true })] }

/-- An add of a free hall, of a private one, of one that is being sanitized and of a shared one with one sharer; a release by its tenant and by an LD
that is none; an add in PAIRED; by the fabric manager and by an LD. -/
theorem witness_FabricManagement :
    aonOn soloC = true ∧ soloC.glb.mode.service = true ∧ 1 < (headAt soloC 0).ldCount ∧ ldPresented soloC 0 = true ∧ assignedCount soloC 63 = 0
      ∧ (bare .start).glb.mode.service = false ∧ (bare .hold).glb.mode.service = false ∧ aonOn (bare .start) = true
      ∧ Idle soloC ∧ soloC.rings = [] ∧ soloC.twin.sent = [] ∧ soloC.glb.mode = .solo ∧ (7935 : BitVec 16).toNat < hallCount soloC
      ∧ (hallAt soloC 7935).mode = .unassigned ∧ (hallAt soloC 7935).sharers = [] ∧ (hallAt soloC 7935).sanitize = false
      ∧ (hallAt soloC 3).mode = .priv ∧ (hallAt soloC 3).sharers = [{ slot := 0, here := true, ld := 0 }] ∧ (hallAt wiping 5).sanitize = true
      ∧ (hallAt sharedTwo 4).mode = .shared ∧ (hallAt sharedTwo 4).tag = (9 : BitVec 128).toNat ∧ (hallAt sharedTwo 4).sharers.length < 64
      ∧ (∀ y ∈ (hallAt sharedTwo 4).sharers, ¬(y.here = true ∧ y.ld = 0)) ∧ (∀ y ∈ (hallAt soloC 3).sharers, ¬(y.here = true ∧ y.ld = 1))
      ∧ Idle pairAdd ∧ pairAdd.glb.mode = .paired ∧ ldPresented pairAdd 0 = true ∧ 5 < hallCount pairAdd ∧ (hallAt pairAdd 5).mode = .unassigned
      ∧ (hallAt pairAdd 5).sanitize = false ∧ pairAdd.twin.steered ≠ [] ∧ pairAdd.twin.sent = []
      ∧ (∀ n ∈ [(0x40 : Byte), 0x60], 0x40 ≤ n.toNat) ∧ (0 : Byte).toNat < 0x40 ∧ canReach soloC 0 = true := by
  simp only [Idle]; decide

/-! ## Worked values of the spec -/

/-- The check value that R330 gives for SEED 0. -/
theorem test_crc32c : crc32cFrom 0 [0x31, 0x32, 0x33, 0x34, 0x35, 0x36, 0x37, 0x38, 0x39] = 0xE3069283 := by decide +kernel

/-- The read that R91 and R143 follow: DPA 0x120D_0001_2340 in the reference configuration. -/
theorem test_decode_example :
    let a := dpaOff 0x120D00012340
    dpaMode 0x120D00012340 = .shared ∧ hallOf a = 2100 ∧ galOf soloC a = 2 ∧ lineNo a % 2 ^ 24 = 0x48D ∧ riserNo a % 2 ^ 22 = 0x123 ∧ treadNo a % 2 ^ 18 = 0x12
      ∧ gAddr soloC a = 0x1D00012340 ∧ chanOf soloC a = 9
      ∧ placeAt soloC a = { ch := 1, sub := 1, rank := 0, bg := 7, ba := 3, row := 0x1D00, col := 1, line := 1 } := by decide

/-- R144: offsets x and x xor 0x100_4800 of one hall, and x and x xor 16 MiB of halls h and h xor 1, share a bank in different rows; addresses that differ in
one bit of the riser do not. -/
def bank (p : Place) : List Nat := [p.ch, p.sub, p.rank, p.bg, p.ba]
def clash (r s : Nat) : Bool := bank (placeOf 3 (256 * r)) == bank (placeOf 3 (256 * s)) && (placeOf 3 (256 * r)).row != (placeOf 3 (256 * s)).row
theorem test_bankConflicts :
    clash 0x123 (0x123 ^^^ 0x10048) = true ∧ clash 0x123 (0x123 ^^^ 0x10000 ^^^ 2 ^ 22) = true
      ∧ (List.range 30).all (fun k => !clash 0x1D000123 (0x1D000123 ^^^ 2 ^ k)) = true := by decide

/-- R112, R113: a head at 32 GT/s with all its lanes, and the GPF durations that the rule works out. -/
theorem test_cdat :
    (cdatOf soloC 0).length = 10 ∧ (cdatOf soloC 0).take 3 = [.dsmas 0 0 (7936 * 2 ^ 30), .readLatency 0 310, .writeLatency 0 1700]
      ∧ gpfDuration { Head.reset with biTimeout := 2000 } = 27 ∧ gpfDuration { Head.reset with biTimeout := 10000 } = 43 ∧ gpfPower = 240 := by decide

/-- The header of the worked encoding of R183: MIR_WR64, its fields, and the steering of R191. -/
theorem test_message_example :
    msgOf 0x03420D00012340800123450007000410 (List.replicate 4 0) = some (.mirWr64 false 7 { orig := 2, seq := 0x12345 } 0x20D00012340 0x0D 0)
      ∧ steerIdx (0x20D00012340 / 256) = 34 := by decide +kernel
theorem test_steering :
    let c : Ctl := { pairC with twin := { Twin.reset with steered := [0, 1, 2, 3], links := Vector.replicate 4 { lk .active with txWidth := 4 } } }
    steerEntry c 34 = some 2 ∧ steerEntry c 37 = some 1 := by decide

/-- The reading of R124's example. -/
theorem test_timestamp : nsOf { soloC with rtc := { soloC.rtc with seconds := 800000000, frac := 0x800000 } } = 1746684800500000000 := by decide

/-- The example of R508: GLB_STATE and GLB_LAST_TRANSITION after entry to SERVICE.PAIRED from VAULT.START, with all links up. -/
theorem test_state_words :
    let c : Ctl := { pairC with
      glb := { Glb.reset with mode := .paired, restoring := true, ltCount := 3, ltCode := 0x10, ltTo := 8, ltFrom := 1 }
      twin := { Twin.reset with links := Vector.replicate 4 (lk .active) } }
    regWord c 0x10 = 0x0F000018 ∧ regWord c 0x18 = 0x0003000000001081 := by decide

/-- The worked example after R74, and the worked measurement after R378: db_hold of 131 GiB and 75 GiB for 1600 J and 1000 J; 131, 117 and 128 GiB from
27.00 V, 26.00 V and 26.75 V. -/
def bankC : Ctl := { soloC with
  budget := { Ctl.reset.budget with pSave := 400, eFixed := 150, rSave := 50000 }
  pwrImg := { Ctl.reset.pwrImg with vmin := 12000 }
  hold := { Hold.reset with inForce := some { cMf := 5770, esr := 360, v0 := 2700, time := 0, iTest := 10000, scale := 25 } } }
theorem test_budget :
    dbOf bankC (1600, 1) = 131 ∧ dbOf bankC (1000, 1) = 75 ∧ dbHoldAt bankC 27000 = 131 ∧ dbHoldAt bankC 26000 = 117 ∧ dbHoldAt bankC 26760 = 128 := by decide

/-- The journal of the worked flight of R349 holds 4,035 units. -/
def flight37 : Flight := {
  own := true, slot := 37, fgen := 0x102, ring := 131, desc := 0, ld := 8, st := .journal, commitSeq := 0, journal := []
  segs := [⟨0x2EE00100000, 61440, false, []⟩, ⟨0x2EE40008000, 3000, false, []⟩, ⟨0x2EE00000020, 64, false, []⟩] }
theorem test_journal : flightBytes flight37 = 64560 := by decide +kernel

/-- The log entry of R409's example. -/
theorem test_log_entry :
    let e : LogEntry := {
      time := 0x002FAF0800120200, rgen := 1, access := 1, addr := 0x1D00012340, seq := 0x1A7, rep := 0, ini := 0x4A, kind := 4, source := 0x15E
      cause := 0x14A, reaction := 0, fromAlcove := false, forced := false, fenced := false, conseq := true, stale := false, cls := 1 }
    logWord e 0 = 0x002FAF0800120200 ∧ logWord e 1 = 0x0110001D00012340 ∧ logWord e 2 = 0x000001A7004A115E ∧ logWord e 3 = 0x0000014A00000011 := by decide

/-- Words of the program after R353. -/
theorem test_sequencer_words :
    seqDecode 0x08010108 = some (.enable true 0x108) ∧ seqDecode 0x190003E8 = some (.check 8 false 1000) ∧ seqDecode 0x08000001 = some (.enable false 1)
      ∧ seqDecode 0x18101388 = some (.check 0 true 5000) ∧ seqDecode 0x20200040 = some (.jumpIf 0x20 false 0x40) ∧ seqDecode 0 = some .fin ∧ seqDecode 1 = none := by decide

/-! ## Ill-formed commands -/

def probe0 : MountProbe := {
  uniform := true, targets := 0, lunsPer := 0, planes := 0, blocksPer := 0, wordlines := 0, lunGb := 0, nPe := 0, tSlcNs := 0, tTlcUs := 0, badLuns := []
  rates := [], factoryBad := [], foreign := false, ckptOk := true, olderCkpt := false, newId := 0, badRecords := [], badHeaders := [] }
def init0 : InitFields := { version := 1, fast := false, tl := 0, pairId := 0, side := 0, txLanes := 15, rxLanes := 15, nextExp := 0, nextSend := 0, credits := [], epoch := 0, fack := 0 }
def hello2 : Hello := { pairId := 0, side := 2, pending := false, fencedGals := 0, saveSeq := 0, halls := 0, dimmGib := 0, proposed := 0, saveTime := 0, prefCrc := 0 }

/-- An initiator that cannot access registers, one that R8 does not list, a tag past its streams and past its width, an empty and an overlong
journal message, a mount over no channels, a flit of 30 slots, no credits, a third side, an empty map chunk, 256 handles. -/
theorem test_ill_formed :
    (Instr.getBudget 0x42).wf = false ∧ (Instr.internalErrorDetected 0 0 0 0x42 0).wf = false
      ∧ (Instr.promoted 0 { orig := 4, seq := 0 }).wf = false ∧ (Instr.promoted 0 { orig := 0, seq := 2 ^ 30 }).wf = false
      ∧ jrnBytes [] = false ∧ jrnBytes (List.replicate 257 0) = false ∧ (Instr.jrnWr 0 0 (tag0 0) 0 0 0x48 []).wf = false
      ∧ (Instr.vaultMount probe0).wf = false ∧ (Instr.dataFlit 0 0 (List.replicate 30 0) 0 0 0).wf = false
      ∧ (Instr.ctrlInit 0 init0).wf = false ∧ (Instr.initAck 0 init0).wf = false ∧ (Instr.hello 0 (tag0 0) hello2).wf = false
      ∧ (Instr.mapChunk 0 (tag0 0) 0 []).wf = false ∧ (Instr.roleRsp 0 1 0 (tag0 0) (some hello2)).wf = false
      ∧ (Instr.clearEventRecords 0 0 .info false (List.replicate 256 0)).wf = false := by decide +kernel

/-- Terms at the bounds of the same checks. -/
theorem test_well_formed :
    (Instr.getBudget 0x41).wf = true ∧ (Instr.getBudget 0x60).wf = true ∧ (Instr.internalErrorDetected 0 0 0 0xFF 0).wf = true
      ∧ (Instr.promoted 3 { orig := 3, seq := 2 ^ 30 - 1 }).wf = true ∧ (Instr.jrnWr 0 0 (tag0 0) 0 0 0x48 [0]).wf = true
      ∧ (Instr.vaultMount { probe0 with rates := List.replicate 16 0 }).wf = true ∧ (Instr.ctrlInit 0 { init0 with credits := List.replicate 4 0 }).wf = true
      ∧ (Instr.hello 0 (tag0 0) { hello2 with side := 1 }).wf = true ∧ (Instr.clearEventRecords 0 0 .info false (List.replicate 255 0)).wf = true := by decide +kernel
end Sys2Proof.Tests
end

section
/-! PROOFS. The real-time clock (R441 to R447): its accesses pass their checks, what an oscillator edge, a time write, HALT, the resume and a
shadow read each do to the registers, and the obligations on setting and on reading the time. -/
namespace Sys2Proof.Machine

/-! ## Frames: the registers that stay, said as one equation -/

/-- The state with another real-time clock and another fault collector keeps every other part. -/
theorem onlyChanges_rtc_fcu (s : State) (r : Rtc) (f : Fcu) :
    OnlyChanges [.rtc, .fcu] s (s.withCtl { s.ctl with rtc := r, fcu := f }) :=
  ⟨rfl, fun p hp => by
    cases p with
    | rtc => exact absurd (by simp) hp
    | fcu => exact absurd (by simp) hp
    | _ => rfl⟩

theorem onlyChanges_rtc (s : State) (r : Rtc) : OnlyChanges [.rtc] s (s.withCtl { s.ctl with rtc := r }) :=
  ⟨rfl, fun p hp => by
    cases p with
    | rtc => exact absurd (by simp) hp
    | _ => rfl⟩

theorem onlyChanges_out (s : State) (o : List Out) : OnlyChanges [.out] s (s.withCtl { s.ctl with out := o }) :=
  ⟨rfl, fun p hp => by
    cases p with
    | out => exact absurd (by simp) hp
    | _ => rfl⟩

theorem onlyChanges_rtc_out (s : State) (r : Rtc) (o : List Out) :
    OnlyChanges [.rtc, .out] s (s.withCtl { s.ctl with rtc := r, out := o }) :=
  ⟨rfl, fun p hp => by
    cases p with
    | rtc => exact absurd (by simp) hp
    | out => exact absurd (by simp) hp
    | _ => rfl⟩

theorem onlyChanges_rtc_heads_mgmt (s : State) (r : Rtc) (h : Vector Head 16) (m : Mgmt) :
    OnlyChanges [.rtc, .heads, .mgmt] s (s.withCtl { s.ctl with rtc := r, heads := h, mgmt := m }) :=
  ⟨rfl, fun p hp => by
    cases p with
    | rtc => exact absurd (by simp) hp
    | heads => exact absurd (by simp) hp
    | mgmt => exact absurd (by simp) hp
    | _ => rfl⟩

/-- A raised fault reaches the fault collector alone (R385). -/
theorem raiseF_eq (c : Ctl) (s k : Nat) : raiseF c s k = { c with fcu := (raiseF c s k).fcu } := by
  unfold raiseF raiseAt raiseMsg; split <;> rfl

/-- An illegal sequence reaches a head's counter or the management endpoint's (R119, R513). -/
theorem illegal_eq (c : Ctl) (ini : Nat) : illegal c ini = { c with heads := (illegal c ini).heads, mgmt := (illegal c ini).mgmt } := by
  unfold illegal; (repeat' split) <;> rfl

/-- The management station's illegal sequences are counted by the endpoint (R513). -/
theorem illegal_ignored_station (c : Ctl) :
    (illegal c 0x60).mgmt.viol.ignored = satInc c.mgmt.viol.ignored 0xFFFFFFFF := rfl

/-! ## The alarm comparison: it leaves the counter and the procedure for setting the time alone (R453) -/

@[simp] theorem alarmFire_rtc (c : Ctl) (b : Bool) : (alarmFire c b).rtc = { c.rtc with
    armed := false
    fired := true
    firedByAdjust := c.rtc.firedByAdjust || b
    causeAlarm := c.rtc.causeAlarm || (c.rtc.wake && (c.glb.mode == .off || c.glb.mode == .standby)) } := by
  cases b
  · rfl
  · exact raiseF_rtc _ _ _

theorem alarmFire_eq (c : Ctl) (b : Bool) : alarmFire c b = { c with rtc := (alarmFire c b).rtc, fcu := (alarmFire c b).fcu } := by
  cases b
  · rfl
  · unfold alarmFire; dsimp only; rw [if_pos rfl, raiseF_eq]; rfl

/-- A comparison at a time write can raise ALARM_BY_ADJUST. -/
theorem alarmCheck_eq (c : Ctl) (b : Bool) : alarmCheck c b = { c with rtc := (alarmCheck c b).rtc, fcu := (alarmCheck c b).fcu } := by
  unfold alarmCheck; split
  · exact alarmFire_eq c b
  · rfl

/-- A comparison while counting raises nothing: it reaches the clock alone. -/
theorem alarmCheck_false_eq (c : Ctl) : alarmCheck c false = { c with rtc := (alarmCheck c false).rtc } := by
  unfold alarmCheck; split <;> rfl

theorem alarmCheck_unarmed {c : Ctl} (h : c.rtc.armed = false) (b : Bool) : alarmCheck c b = c := by
  simp [alarmCheck, h]

@[simp] theorem alarmCheck_seconds (c : Ctl) (b : Bool) : (alarmCheck c b).rtc.seconds = c.rtc.seconds := by
  unfold alarmCheck; split <;> simp
@[simp] theorem alarmCheck_frac (c : Ctl) (b : Bool) : (alarmCheck c b).rtc.frac = c.rtc.frac := by
  unfold alarmCheck; split <;> simp
@[simp] theorem alarmCheck_halted (c : Ctl) (b : Bool) : (alarmCheck c b).rtc.halted = c.rtc.halted := by
  unfold alarmCheck; split <;> simp
@[simp] theorem alarmCheck_wrote (c : Ctl) (b : Bool) : (alarmCheck c b).rtc.wrote = c.rtc.wrote := by
  unfold alarmCheck; split <;> simp
@[simp] theorem alarmCheck_heldSec (c : Ctl) (b : Bool) : (alarmCheck c b).rtc.heldSec = c.rtc.heldSec := by
  unfold alarmCheck; split <;> simp
@[simp] theorem alarmCheck_heldFrac (c : Ctl) (b : Bool) : (alarmCheck c b).rtc.heldFrac = c.rtc.heldFrac := by
  unfold alarmCheck; split <;> simp

/-! ## Held time writes apply (R446) -/

theorem applyHeld_none {c : Ctl} (hs : c.rtc.heldSec = none) (hf : c.rtc.heldFrac = none) : applyHeld c = c := by
  simp [applyHeld, hs, hf]

theorem applyHeld_eq (c : Ctl) : applyHeld c = { c with rtc := (applyHeld c).rtc, fcu := (applyHeld c).fcu } := by
  unfold applyHeld; split
  · exact alarmCheck_eq _ true
  · rfl

@[simp] theorem applyHeld_seconds (c : Ctl) : (applyHeld c).rtc.seconds = c.rtc.heldSec.getD c.rtc.seconds := by
  unfold applyHeld; split
  · simp
  · next h => simp_all
@[simp] theorem applyHeld_frac (c : Ctl) : (applyHeld c).rtc.frac = c.rtc.heldFrac.getD c.rtc.frac := by
  unfold applyHeld; split
  · simp
  · next h => simp_all
@[simp] theorem applyHeld_heldSec (c : Ctl) : (applyHeld c).rtc.heldSec = none := by
  unfold applyHeld; split
  · simp
  · next h => simp_all
@[simp] theorem applyHeld_heldFrac (c : Ctl) : (applyHeld c).rtc.heldFrac = none := by
  unfold applyHeld; split
  · simp
  · next h => simp_all
@[simp] theorem applyHeld_halted (c : Ctl) : (applyHeld c).rtc.halted = c.rtc.halted := by
  unfold applyHeld; split <;> simp
@[simp] theorem applyHeld_wrote (c : Ctl) : (applyHeld c).rtc.wrote = c.rtc.wrote := by
  unfold applyHeld; split <;> simp

/-! ## One oscillator edge, in each state of HALT and HALTED (R441, R445) -/

/-- The edge number and the trim in force advance at every edge, whatever HALT is (R449). -/
def Rtc.tick (r : Rtc) : Rtc := { r with trimNow := if r.edge == 0 then r.trim else r.trimNow, edge := (r.edge + 1) % 32768 }

/-- The edge that sets HALTED applies the held writes (R446). -/
theorem rtcEdge_halting {c : Ctl} (h : c.rtc.halt = true) (hd : c.rtc.halted = false) :
    rtcEdge c = applyHeld (onRtc c (fun r => { r.tick with halted := true })) := by
  simp only [rtcEdge, onRtc_rtc, h, hd, if_true, Bool.false_eq_true, if_false]; rfl

theorem rtcEdge_halted {c : Ctl} (h : c.rtc.halt = true) (hd : c.rtc.halted = true) : rtcEdge c = onRtc c Rtc.tick := by
  simp only [rtcEdge, onRtc_rtc, h, hd, if_true]; rfl

theorem rtcEdge_resuming {c : Ctl} (h : c.rtc.halt = false) (hd : c.rtc.halted = true) :
    rtcEdge c = onRtc c (fun r => { r.tick with halted := false }) := by
  simp only [rtcEdge, onRtc_rtc, h, hd, if_true, Bool.false_eq_true, if_false]; rfl

theorem rtcEdge_running {c : Ctl} (h : c.rtc.halt = false) (hd : c.rtc.halted = false) :
    rtcEdge c = rtcAdvance (onRtc c Rtc.tick) (edgeIncrement c.rtc.tick.trimNow c.rtc.edge) := by
  simp only [rtcEdge, onRtc_rtc, h, hd, Bool.false_eq_true, if_false]; rfl

/-- The increment of an edge is 511, 512 or 513 (R441). -/
theorem edgeIncrement_bounds (trim : Int) (j : Nat) : 511 ≤ edgeIncrement trim j ∧ edgeIncrement trim j ≤ 513 := by
  unfold edgeIncrement; dsimp only; (repeat' split) <;> omega

theorem rtcAdvance_eq (c : Ctl) (n : Nat) : rtcAdvance c n = { c with rtc := (rtcAdvance c n).rtc } := by
  unfold rtcAdvance; dsimp only; split
  · rfl
  · exact alarmCheck_false_eq _

@[simp] theorem rtcAdvance_frac (c : Ctl) (n : Nat) : (rtcAdvance c n).rtc.frac = BitVec.ofNat 24 (c.rtc.frac.toNat + n) := by
  unfold rtcAdvance; dsimp only; split <;> simp
@[simp] theorem rtcAdvance_halted (c : Ctl) (n : Nat) : (rtcAdvance c n).rtc.halted = c.rtc.halted := by
  unfold rtcAdvance; dsimp only; split <;> simp

/-- An increment smaller than the range of the fraction moves it. -/
theorem rtcAdvance_frac_ne {c : Ctl} {n : Nat} (lo : 0 < n) (hi : n < 2 ^ 24) : (rtcAdvance c n).rtc.frac ≠ c.rtc.frac := by
  intro e
  have w := congrArg BitVec.toNat e
  have b := c.rtc.frac.isLt
  simp only [rtcAdvance_frac, BitVec.toNat_ofNat] at w
  omega

/-! ## HALT, time writes and the resume (R445 to R447) -/

theorem rtcSetHalt_running {c : Ctl} (h : c.rtc.halt = false) :
    rtcSetHalt c = onRtc c (fun r => { r with halt := true, wrote := false }) := by
  simp [rtcSetHalt, h]

/-- The fields of a time write of the whole RTC_TIME_HI or of RTC_TIME_LO (R11, R446). -/
theorem timeWriteFields_hi (r : Rtc) (val : Word) : timeWriteFields r 0x18 8 val.toNat = (some (val.setWidth 40), none) := by
  simp [timeWriteFields]
theorem timeWriteFields_lo (r : Rtc) (val : Word) : timeWriteFields r 0x08 8 val.toNat = (none, some ((val >>> 8).setWidth 24)) := by
  have shift : val.toNat / 256 = (val >>> 8).toNat := by simp [Nat.shiftRight_eq_div_pow]
  simp only [timeWriteFields, beq_self_eq_true, if_true, shift, BitVec.ofNat_toNat]

/-- What a time write leaves, by the fields that it covers. -/
theorem timeWriteOp_accepted {c : Ctl} {ini off size val : Nat} {sec : Option (BitVec 40)} {frac : Option (BitVec 24)}
    (f : timeWriteFields c.rtc off size val = (sec, frac)) (covers : (sec.isNone && frac.isNone) = false) (h : c.rtc.halt = true) :
    timeWriteOp c ini off size val = rtcAcceptTime c sec frac := by
  simp only [timeWriteOp, f, covers, h, Bool.false_eq_true, if_false, if_true]

theorem timeWriteOp_ignored {c : Ctl} {ini off size val : Nat} {sec : Option (BitVec 40)} {frac : Option (BitVec 24)}
    (f : timeWriteFields c.rtc off size val = (sec, frac)) (covers : (sec.isNone && frac.isNone) = false) (h : c.rtc.halt = false) :
    timeWriteOp c ini off size val = illegal (onRtc c (fun r => { r with ignored := satInc r.ignored 0xFFFF })) ini := by
  simp only [timeWriteOp, f, covers, h, Bool.false_eq_true, if_false]

/-- Before the edge that sets HALTED an accepted time write is held. -/
theorem rtcAcceptTime_held {c : Ctl} (hd : c.rtc.halted = false) (sec : Option (BitVec 40)) (frac : Option (BitVec 24)) :
    rtcAcceptTime c sec frac = onRtc c (fun r => { r with
      wrote := true
      adjusted := true
      heldSec := sec.or r.heldSec
      heldFrac := frac.or r.heldFrac }) := by
  simp [rtcAcceptTime, hd]

/-- While HALTED is 1 an accepted time write is applied at once; no held write and no armed alarm stand in its way here. -/
theorem rtcAcceptTime_halted {c : Ctl} (hd : c.rtc.halted = true) (hs : c.rtc.heldSec = none) (hf : c.rtc.heldFrac = none)
    (ha : c.rtc.armed = false) {sec : Option (BitVec 40)} {frac : Option (BitVec 24)} (covers : (sec.isSome || frac.isSome) = true) :
    rtcAcceptTime c sec frac = onRtc c (fun r => { r with
      wrote := true
      adjusted := true
      seconds := sec.getD r.seconds
      frac := frac.getD r.frac }) := by
  simp only [rtcAcceptTime, applyHeld, onRtc_rtc, hd, hs, hf, Option.or_none, covers, if_true]
  rw [alarmCheck_unarmed (by simpa using ha)]
  simp [onRtc, hs, hf]

/-- HALT is taken up: by the edge that sets HALTED, where none has (R469). -/
def haltTaken (c : Ctl) : Ctl := if c.rtc.halted then c else rtcEdge c

theorem haltTaken_halted {c : Ctl} (hd : c.rtc.halted = true) : haltTaken c = c := by simp [haltTaken, hd]

theorem haltTaken_pending {c : Ctl} (h : c.rtc.halt = true) (hd : c.rtc.halted = false) :
    haltTaken c = applyHeld (onRtc c (fun r => { r.tick with halted := true })) := by
  rw [← rtcEdge_halting h hd]; simp [haltTaken, hd]

theorem haltTaken_eq {c : Ctl} (h : c.rtc.halt = true) : haltTaken c = { c with rtc := (haltTaken c).rtc, fcu := (haltTaken c).fcu } := by
  cases hd : c.rtc.halted with
  | true => rw [haltTaken_halted hd]
  | false => rw [haltTaken_pending h hd]; exact applyHeld_eq _

theorem haltTaken_wrote {c : Ctl} (h : c.rtc.halt = true) : (haltTaken c).rtc.wrote = c.rtc.wrote := by
  cases hd : c.rtc.halted with
  | true => rw [haltTaken_halted hd]
  | false => rw [haltTaken_pending h hd]; simp [Rtc.tick]

/-- Without held writes the edge that takes up HALT reaches the clock alone, and leaves OSC_STOPPED. -/
theorem haltTaken_noHeld {c : Ctl} (h : c.rtc.halt = true) (hs : c.rtc.heldSec = none) (hf : c.rtc.heldFrac = none) :
    ∃ r, haltTaken c = { c with rtc := r } ∧ r.oscStopped = c.rtc.oscStopped := by
  cases hd : c.rtc.halted with
  | true => exact ⟨c.rtc, haltTaken_halted hd, rfl⟩
  | false =>
    refine ⟨{ c.rtc.tick with halted := true }, ?_, rfl⟩
    rw [haltTaken_pending h hd]
    exact applyHeld_none hs hf

/-- The resume after time writes clears OSC_STOPPED and raises TIME_SET; one without clears HALT alone (R447). -/
theorem rtcClearHalt_written {c : Ctl} (h : c.rtc.halt = true) (hw : c.rtc.wrote = true) :
    rtcClearHalt c = raiseF (endCond
      (onRtc (haltTaken c) (fun r => { r with halt := false, wrote := false, oscStopped := false })) 0x2F0) 0x2F5 0 := by
  have w : (haltTaken c).rtc.wrote = true := (haltTaken_wrote h).trans hw
  unfold haltTaken at w ⊢
  simp only [rtcClearHalt, h, w, Bool.not_true, Bool.false_eq_true, if_false, if_true]; rfl

theorem rtcClearHalt_unwritten {c : Ctl} (h : c.rtc.halt = true) (hw : c.rtc.wrote = false) :
    rtcClearHalt c = onRtc (haltTaken c) (fun r => { r with halt := false, wrote := false }) := by
  have w : (haltTaken c).rtc.wrote = false := (haltTaken_wrote h).trans hw
  unfold haltTaken at w ⊢
  simp only [rtcClearHalt, h, w, Bool.not_true, Bool.false_eq_true, if_false]

/-- The event that the resume raises waits at the root (R385, R447). -/
theorem raised_timeSet {c : Ctl} (on : aonOn c = true) (f : Rtc → Rtc) :
    Raised (raiseF (endCond (onRtc c f) 0x2F0) 0x2F5 0) 0x2F5 :=
  raised_raiseF (by simpa [aonOn] using on) rfl 0

/-! ## The accesses of the RTC block pass their checks (R11, R458, R468, R503) -/

theorem aonOn_of_canReach {c : Ctl} {ini : Nat} (h : canReach c ini = true) : aonOn c = true := by
  unfold canReach at h; exact (Bool.and_eq_true_iff.1 h).1

/-- An aligned access to the block by an initiator with management rights passes its checks. -/
theorem gateOf_rtc {s : State} {ini : Byte} (h : MayWrite s ini) {off size : Nat} (sz : size = 8 ∨ size = 4) (al : off % size = 0)
    (blk : blkOf off = .rtc) (wr : Bool) : gateOf s.ctl ini.toNat off size wr = .ok := by
  obtain ⟨reach, right⟩ := h
  have runs : blkAnswers s.ctl .rtc off = true := aonOn_of_canReach reach
  have may : accessRight s.ctl .rtc ini.toNat wr = true := by simp [accessRight, right]
  have size_ok : (size == 8 || size == 4) = true := by simpa using sz
  simp [gateOf, reach, blk, runs, may, size_ok, al]

theorem exec_backupDomainWriteEffective (s : State) : exec .backupDomainWriteEffective s = .next (s.withCtl (rtcEdge s.ctl)) := rfl

theorem exec_freezeExpiry (ini : Byte) (s : State) : exec (.freezeExpiry ini) s = .next (s.withCtl (freezeEnd s.ctl ini.toNat)) := rfl

section
variable {s : State} {ini : Byte} (h : MayWrite s ini)
include h

theorem exec_rtcHalt : exec (.rtcHalt ini) s = .next (s.withCtl (rtcSetHalt s.ctl)) := by
  change Host.Outcome.next (s.withCtl (regWrite s.ctl ini.toNat 0x7C0030 8 rtcSetHalt)) = _
  rw [regWrite_ok (gateOf_rtc h (.inl rfl) rfl rfl true)]

theorem exec_rtcResume : exec (.rtcResume ini) s = .next (s.withCtl (rtcClearHalt s.ctl)) := by
  change Host.Outcome.next (s.withCtl (regWrite s.ctl ini.toNat 0x7C0030 8 rtcClearHalt)) = _
  rw [regWrite_ok (gateOf_rtc h (.inl rfl) rfl rfl true)]

/-- A time write reaches the block at its offset within it. -/
theorem exec_timeWrite {off : BitVec 32} {o : Nat} (base : off.toNat - 0x7C0000 = o) (al : off.toNat % 8 = 0) (blk : blkOf off.toNat = .rtc)
    (val : Word) : exec (.timeWrite ini off 8 val) s = .next (s.withCtl (timeWriteOp s.ctl ini.toNat o 8 val.toNat)) := by
  change Host.Outcome.next (s.withCtl (if blkOf off.toNat == .rtc then regWrite s.ctl ini.toNat off.toNat 8
    (fun c => timeWriteOp c ini.toNat (off.toNat - 0x7C0000) 8 val.toNat) else s.ctl)) = _
  simp only [blk, beq_self_eq_true, if_true, regWrite_ok (gateOf_rtc h (.inl rfl) al blk true), base]

theorem exec_timeWrite_hi (val : Word) : exec (.timeWrite ini 0x7C0018 8 val) s =
    .next (s.withCtl (timeWriteOp s.ctl ini.toNat 0x18 8 val.toNat)) := exec_timeWrite h rfl rfl rfl val

theorem exec_timeWrite_lo (val : Word) : exec (.timeWrite ini 0x7C0008 8 val) s =
    .next (s.withCtl (timeWriteOp s.ctl ini.toNat 0x08 8 val.toNat)) := exec_timeWrite h rfl rfl rfl val

/-- A read of a time register answers the word of the shadow set, and leaves what the shadow read leaves (R443). -/
theorem exec_rtcTimeRead {off : BitVec 32} {size : Nat} (sz : size = 8 ∨ size = 4) (al : off.toNat % size = 0) (blk : blkOf off.toNat = .rtc)
    (time : 0x7C0008 ≤ off.toNat ∧ off.toNat < 0x7C0020) {w : Word} {c : Ctl}
    (read : rtcShadowRead s.ctl ini.toNat (off.toNat - 0x7C0000) size = (w, c)) :
    exec (.rtcTimeRead ini off size) s = .next (s.withCtl (emit c (.cxlIoData ini.toNat off.toNat w))) := by
  change Host.Outcome.next (s.withCtl (rtcTimeReadOp s.ctl ini.toNat off.toNat size)) = _
  simp only [rtcTimeReadOp, time, decide_true, Bool.and_self, if_true, regRead, gateOf_rtc h sz al blk false, read]
end

/-! ## Setting the time -/

section
variable {s : State}

/-- The edge that takes up HALT applies held writes (R445, R446). -/
theorem edge_halting (h : s.ctl.rtc.halt = true) (hd : s.ctl.rtc.halted = false) :
    Runs .backupDomainWriteEffective s (fun t => OnlyChanges [.rtc, .fcu] s t
      ∧ t.ctl.rtc.halted = true ∧ t.ctl.rtc.heldSec = none ∧ t.ctl.rtc.heldFrac = none
      ∧ t.ctl.rtc.seconds = s.ctl.rtc.heldSec.getD s.ctl.rtc.seconds ∧ t.ctl.rtc.frac = s.ctl.rtc.heldFrac.getD s.ctl.rtc.frac) := by
  refine ⟨_, exec_backupDomainWriteEffective s, ?_⟩
  rw [rtcEdge_halting h hd]
  refine ⟨?_, by simp, by simp, by simp, by simp [Rtc.tick], by simp [Rtc.tick]⟩
  rw [applyHeld_eq]; exact onlyChanges_rtc_fcu _ _ _

theorem edge_halted (h : s.ctl.rtc.halt = true) (hd : s.ctl.rtc.halted = true) :
    Runs .backupDomainWriteEffective s (fun t => OnlyChanges [.rtc] s t
      ∧ t.ctl.rtc.halted = true ∧ t.ctl.rtc.seconds = s.ctl.rtc.seconds ∧ t.ctl.rtc.frac = s.ctl.rtc.frac) := by
  refine ⟨_, exec_backupDomainWriteEffective s, ?_⟩
  rw [rtcEdge_halted h hd]
  exact ⟨onlyChanges_rtc _ _, hd, rfl, rfl⟩

/-- The edge after the resume clears HALTED and leaves the held value (R445). -/
theorem edge_resuming (h : s.ctl.rtc.halt = false) (hd : s.ctl.rtc.halted = true) :
    Runs .backupDomainWriteEffective s (fun t => OnlyChanges [.rtc] s t
      ∧ t.ctl.rtc.halted = false ∧ t.ctl.rtc.seconds = s.ctl.rtc.seconds ∧ t.ctl.rtc.frac = s.ctl.rtc.frac) := by
  refine ⟨_, exec_backupDomainWriteEffective s, ?_⟩
  rw [rtcEdge_resuming h hd]
  exact ⟨onlyChanges_rtc _ _, rfl, rfl, rfl⟩

/-- An edge of the running counter moves the fraction: the increment is never 0 (R441). -/
theorem edge_running (h : s.ctl.rtc.halt = false) (hd : s.ctl.rtc.halted = false) :
    Runs .backupDomainWriteEffective s (fun t => OnlyChanges [.rtc] s t ∧ t.ctl.rtc.halted = false ∧ t.ctl.rtc.frac ≠ s.ctl.rtc.frac) := by
  obtain ⟨lo, hi⟩ := edgeIncrement_bounds s.ctl.rtc.tick.trimNow s.ctl.rtc.edge
  refine ⟨_, exec_backupDomainWriteEffective s, ?_⟩
  rw [rtcEdge_running h hd]
  refine ⟨?_, ?_, rtcAdvance_frac_ne (by omega) (by omega)⟩
  · rw [rtcAdvance_eq]; exact onlyChanges_rtc _ _
  · simpa [Rtc.tick] using hd

variable {ini : Byte}

/-- A time write between HALT and the edge that sets HALTED is held; one while HALTED is 1 is applied at once; one while HALT is 0 is ignored
and counted (R446). -/
theorem timeWrite_held (m : MayWrite s ini) (h : s.ctl.rtc.halt = true) (hd : s.ctl.rtc.halted = false) (val : Word) :
    exec (.timeWrite ini 0x7C0018 8 val) s =
        .next (s.withRtc { s.ctl.rtc with heldSec := some (val.setWidth 40), adjusted := true, wrote := true })
      ∧ exec (.timeWrite ini 0x7C0008 8 val) s =
        .next (s.withRtc { s.ctl.rtc with heldFrac := some ((val >>> 8).setWidth 24), adjusted := true, wrote := true }) := by
  constructor
  · rw [exec_timeWrite_hi m, timeWriteOp_accepted (timeWriteFields_hi _ val) rfl h, rtcAcceptTime_held hd]; rfl
  · rw [exec_timeWrite_lo m, timeWriteOp_accepted (timeWriteFields_lo _ val) rfl h, rtcAcceptTime_held hd]; rfl

theorem timeWrite_halted (m : MayWrite s ini) (h : s.ctl.rtc.halt = true) (hd : s.ctl.rtc.halted = true)
    (hs : s.ctl.rtc.heldSec = none) (hf : s.ctl.rtc.heldFrac = none) (ha : s.ctl.rtc.armed = false) (val : Word) :
    exec (.timeWrite ini 0x7C0018 8 val) s =
        .next (s.withRtc { s.ctl.rtc with seconds := val.setWidth 40, adjusted := true, wrote := true })
      ∧ exec (.timeWrite ini 0x7C0008 8 val) s =
        .next (s.withRtc { s.ctl.rtc with frac := (val >>> 8).setWidth 24, adjusted := true, wrote := true }) := by
  constructor
  · rw [exec_timeWrite_hi m, timeWriteOp_accepted (timeWriteFields_hi _ val) rfl h, rtcAcceptTime_halted hd hs hf ha rfl]; rfl
  · rw [exec_timeWrite_lo m, timeWriteOp_accepted (timeWriteFields_lo _ val) rfl h, rtcAcceptTime_halted hd hs hf ha rfl]; rfl

theorem timeWrite_running (m : MayWrite s ini) (h : s.ctl.rtc.halt = false) (val : Word) :
    Runs (.timeWrite ini 0x7C0018 8 val) s (fun t => OnlyChanges [.rtc, .heads, .mgmt] s t
      ∧ t.ctl.rtc = { s.ctl.rtc with ignored := satInc s.ctl.rtc.ignored 0xFFFF }
      ∧ (ini = 0x60 → t.ctl.mgmt.viol.ignored = satInc s.ctl.mgmt.viol.ignored 0xFFFFFFFF)) := by
  refine ⟨_, exec_timeWrite_hi m val, ?_⟩
  rw [timeWriteOp_ignored (timeWriteFields_hi _ val) rfl h]
  refine ⟨?_, by simp, ?_⟩
  · rw [illegal_eq]; exact onlyChanges_rtc_heads_mgmt _ _ _ _
  · rintro rfl; exact illegal_ignored_station _

/-- The resume after a time write clears OSC_STOPPED and raises TIME_SET; one without changes neither (R447). -/
theorem resume_written (m : MayWrite s ini) (h : s.ctl.rtc.halt = true) (hw : s.ctl.rtc.wrote = true) :
    Runs (.rtcResume ini) s (fun t => OnlyChanges [.rtc, .fcu] s t ∧ t.ctl.rtc.halt = false
      ∧ t.ctl.rtc.wrote = false ∧ t.ctl.rtc.oscStopped = false ∧ Raised t.ctl 0x2F5
      ∧ (s.ctl.rtc.halted = true → t.ctl.rtc = { s.ctl.rtc with halt := false, wrote := false, oscStopped := false })) := by
  have on : aonOn (haltTaken s.ctl) = true := by rw [haltTaken_eq h]; exact aonOn_of_canReach m.1
  refine ⟨_, exec_rtcResume m, ?_⟩
  rw [rtcClearHalt_written h hw]
  refine ⟨?_, by simp, by simp, by simp, raised_timeSet on _, fun hd => by simp [haltTaken_halted hd]⟩
  rw [raiseF_eq, haltTaken_eq h]; exact onlyChanges_rtc_fcu _ _ _

theorem resume_unwritten (m : MayWrite s ini) (h : s.ctl.rtc.halt = true) (hw : s.ctl.rtc.wrote = false) (hs : s.ctl.rtc.heldSec = none)
    (hf : s.ctl.rtc.heldFrac = none) :
    Runs (.rtcResume ini) s (fun t => OnlyChanges [.rtc] s t ∧ t.ctl.rtc.halt = false ∧ t.ctl.rtc.oscStopped = s.ctl.rtc.oscStopped
      ∧ (s.ctl.rtc.halted = true → t.ctl.rtc = { s.ctl.rtc with halt := false })) := by
  obtain ⟨r, taken, osc⟩ := haltTaken_noHeld h hs hf
  refine ⟨_, exec_rtcResume m, ?_⟩
  rw [rtcClearHalt_unwritten h hw]
  refine ⟨?_, rfl, ?_, fun hd => ?_⟩
  · rw [taken]; exact onlyChanges_rtc _ _
  · rw [taken]; exact osc
  · rw [haltTaken_halted hd, ← hw]; rfl
end

/-- Settles O45: one lemma for each stage of the procedure, in the order of the statement. -/
theorem rtcSetTimeProcedure : Obligations.RtcSetTimeProcedure := by
  intro ini val s m
  refine ⟨fun h => ?_, edge_halting, edge_halted, edge_running, fun h hd => timeWrite_held m h hd val,
    fun h hd hs hf ha => timeWrite_halted m h hd hs hf ha val, fun h => timeWrite_running m h val, resume_written m, resume_unwritten m,
    edge_resuming⟩
  rw [exec_rtcHalt m, rtcSetHalt_running h]; rfl

/-! ## Reading the time -/

/-- The freeze of an initiator that holds one. -/
theorem freezeFor_held {c : Ctl} {ini : Nat} {f : Freeze} (h : c.rtc.freezes.find? (fun x => x.ini == ini) = some f) :
    freezeFor c ini = (f, c) := by
  simp [freezeFor, h]

/-- An initiator without a freeze starts one in a free shadow set (R443). -/
theorem freezeFor_new {c : Ctl} {ini : Nat} (h : ∀ f ∈ c.rtc.freezes, f.ini ≠ ini) (len : c.rtc.freezes.length < 8) :
    freezeFor c ini = (shadowOf c ini, onRtc c (fun r => { r with freezes := r.freezes ++ [shadowOf c ini] })) := by
  have none_held : c.rtc.freezes.find? (fun x => x.ini == ini) = none := by simpa using h
  simp [freezeFor, none_held, len]

/-- With all eight sets held it takes the one whose freeze began earliest (R444). -/
theorem freezeFor_steal {c : Ctl} {ini : Nat} (h : ∀ f ∈ c.rtc.freezes, f.ini ≠ ini) (len : ¬ c.rtc.freezes.length < 8) :
    freezeFor c ini = (shadowOf c ini, onRtc c (fun r => { r with
      freezes := r.freezes.tail ++ [shadowOf c ini]
      steals := satInc r.steals 0xFFFF })) := by
  have none_held : c.rtc.freezes.find? (fun x => x.ini == ini) = none := by simpa using h
  simp [freezeFor, none_held, len]

/-- What a read of RTC_TIME_LO, of RTC_CAL and of the upper half of RTC_TIME_HI returns of the shadow set; the last ends the freeze (R443). -/
theorem rtcShadowRead_lo {c d : Ctl} {ini : Nat} {f : Freeze} (h : freezeFor c ini = (f, d)) : rtcShadowRead c ini 0x08 8 = (f.lo, d) := by
  simp [rtcShadowRead, h, shadowReg]
theorem rtcShadowRead_cal {c d : Ctl} {ini : Nat} {f : Freeze} (h : freezeFor c ini = (f, d)) : rtcShadowRead c ini 0x10 8 = (f.cal, d) := by
  simp [rtcShadowRead, h, shadowReg]
theorem rtcShadowRead_hiUpper {c d : Ctl} {ini : Nat} {f : Freeze} (h : freezeFor c ini = (f, d)) :
    rtcShadowRead c ini 0x1C 4 = (f.hi >>> 32, freezeEnd d ini) := by
  simp [rtcShadowRead, h, shadowReg]

section
variable {s : State} {ini : Byte} (m : MayWrite s ini)
include m

/-- The first read of an initiator copies the registers into a free shadow set; its later reads return the shadow (R443). -/
theorem timeRead_new (other : ∀ f ∈ s.ctl.rtc.freezes, f.ini ≠ ini.toNat) (len : s.ctl.rtc.freezes.length < 8) :
    Runs (.rtcTimeRead ini 0x7C0008 8) s (fun t => OnlyChanges [.rtc, .out] s t
      ∧ t.ctl.rtc = { s.ctl.rtc with freezes := s.ctl.rtc.freezes ++ [shadowOf s.ctl ini.toNat] }
      ∧ t.ctl.out = .cxlIoData ini.toNat 0x7C0008 (rtcTimeLo s.ctl.rtc) :: s.ctl.out) :=
  ⟨_, exec_rtcTimeRead m (.inl rfl) rfl rfl (by decide) (rtcShadowRead_lo (freezeFor_new other len)), onlyChanges_rtc_out _ _ _, rfl, rfl⟩

theorem timeRead_held {f : Freeze} (held : s.ctl.rtc.freezes.find? (fun x => x.ini == ini.toNat) = some f) :
    Runs (.rtcTimeRead ini 0x7C0010 8) s (fun t => OnlyChanges [.out] s t
      ∧ t.ctl.out = .cxlIoData ini.toNat 0x7C0010 f.cal :: s.ctl.out) :=
  ⟨_, exec_rtcTimeRead m (.inl rfl) rfl rfl (by decide) (rtcShadowRead_cal (freezeFor_held held)), onlyChanges_out _ _, rfl⟩

/-- The read that covers the upper half of RTC_TIME_HI returns the shadow and ends the freeze (R443). -/
theorem timeRead_closing {f : Freeze} (held : s.ctl.rtc.freezes.find? (fun x => x.ini == ini.toNat) = some f) :
    Runs (.rtcTimeRead ini 0x7C001C 4) s (fun t => OnlyChanges [.rtc, .out] s t
      ∧ t.ctl.rtc = { s.ctl.rtc with freezes := s.ctl.rtc.freezes.filter (fun x => x.ini != ini.toNat) }
      ∧ t.ctl.out = .cxlIoData ini.toNat 0x7C001C (f.hi >>> 32) :: s.ctl.out) :=
  ⟨_, exec_rtcTimeRead m (.inr rfl) rfl rfl (by decide) (rtcShadowRead_hiUpper (freezeFor_held held)), onlyChanges_rtc_out _ _ _, rfl, rfl⟩

/-- A ninth freeze takes the shadow set whose freeze began earliest (R444). -/
theorem timeRead_steal (other : ∀ f ∈ s.ctl.rtc.freezes, f.ini ≠ ini.toNat) (len : s.ctl.rtc.freezes.length = 8) :
    Runs (.rtcTimeRead ini 0x7C0008 8) s (fun t => OnlyChanges [.rtc, .out] s t
      ∧ t.ctl.rtc = { s.ctl.rtc with
          freezes := s.ctl.rtc.freezes.tail ++ [shadowOf s.ctl ini.toNat]
          steals := satInc s.ctl.rtc.steals 0xFFFF }) :=
  ⟨_, exec_rtcTimeRead m (.inl rfl) rfl rfl (by decide) (rtcShadowRead_lo (freezeFor_steal other (by omega))), onlyChanges_rtc_out _ _ _, rfl⟩
end

/-- Settles O48: a new freeze, the reads of a held one with the read that ends it, a stolen set, and the expiry. -/
theorem rtcFreezes : Obligations.RtcFreezes := fun ini s m =>
  ⟨timeRead_new m, fun _ held => ⟨timeRead_held m held, timeRead_closing m held⟩, timeRead_steal m, exec_freezeExpiry ini s⟩

end Sys2Proof.Machine
end

section
/-! PROOFS. The flash commands (R470, R473 to R475, R490): what each check of BOOT_FLASH_CMD answers, what the end of a command leaves in the
page buffer and in the flash, and the obligation on the flash commands. -/
namespace Sys2Proof.Machine

/-! ## Frames of the boot controller's operations -/

theorem onlyChanges_boot (s : State) (b : Boot) : OnlyChanges [.boot] s (s.withBoot b) :=
  ⟨rfl, fun p hp => by
    cases p with
    | boot => exact absurd (by simp) hp
    | _ => rfl⟩

theorem onlyChanges_heads_mgmt (s : State) (h : Vector Head 16) (m : Mgmt) :
    OnlyChanges [.heads, .mgmt] s (s.withCtl { s.ctl with heads := h, mgmt := m }) :=
  ⟨rfl, fun p hp => by
    cases p with
    | heads => exact absurd (by simp) hp
    | mgmt => exact absurd (by simp) hp
    | _ => rfl⟩

theorem onlyChanges_boot_clk (s : State) (b : Boot) (x : Clk) :
    OnlyChanges [.boot, .clk] s (s.withCtl { s.ctl with boot := b, clk := x }) :=
  ⟨rfl, fun p hp => by
    cases p with
    | boot => exact absurd (by simp) hp
    | clk => exact absurd (by simp) hp
    | _ => rfl⟩

/-- The state with another boot controller, position in the free values and flash keeps every other part. -/
theorem onlyChanges_boot_free_flash (s : State) (b : Boot) (n : Nat) (l : List Host.Cell) :
    OnlyChanges [.boot, .free, .flash] s
      { s with dev := { ctl := { s.ctl with boot := b, free := n }, mem := { s.dev.mem with flash := l } } } :=
  ⟨rfl, fun p hp => by
    cases p with
    | boot => exact absurd (by simp) hp
    | free => exact absurd (by simp) hp
    | flash => exact absurd (by simp) hp
    | _ => rfl⟩

/-! ## Illegal sequences: where they are counted (R119, R513) -/

theorem onlyChanges_illegal (s : State) (ini : Nat) : OnlyChanges [.heads, .mgmt] s (s.withCtl (illegal s.ctl ini)) := by
  rw [illegal_eq]; exact onlyChanges_heads_mgmt _ _ _

/-- An LD's illegal sequences are counted by its head. -/
theorem illegal_ignored_head {ini : Nat} (h : ini < 0x40) (c : Ctl) :
    (headAt (illegal c ini) (ini / 4)).viol.ignored = satInc (headAt c (ini / 4)).viol.ignored 0xFFFFFFFF := by
  rw [illegal, if_pos h, headAt_onHead_same _ _ _ (by omega)]

/-- Those of any other initiator with management rights are counted by the endpoint. -/
theorem illegal_ignored_mgmt {ini : Nat} (h : 0x40 ≤ ini) {c : Ctl} (right : mgmtRight c ini = true) (d : Ctl) :
    (illegal d ini).mgmt.viol.ignored = satInc d.mgmt.viol.ignored 0xFFFFFFFF := by
  have low : ¬ ini < 0x40 := by omega
  have listed : (ini == 0x60 || ini == 0x40 || ini == 0x41) = true := by simpa [mgmtRight, low] using right
  rw [illegal, if_neg low, if_pos listed]

/-! ## The checks of a flash command, in their order (R470, R473, R475, R490) -/

section
variable {c : Ctl} {ini : Nat} {op : FlashOp} {gate : Bool}

theorem flashProtected_iff : flashProtected c op = true ↔ op ≠ .read ∧ c.glb.mode ≠ .standby ∧ c.glb.mode ≠ .vestibule ∧ c.boot.runSlot ≠ 0
    ∧ c.boot.flashAddr.toNat < slotBase c.boot.runSlot + 0x4000000
    ∧ slotBase c.boot.runSlot < c.boot.flashAddr.toNat + flashSpan op := by
  simp [flashProtected, inRunSlot, and_assoc]

theorem flashCmd_busy (h : c.boot.flashOp.isSome = true) : flashCmd c ini op gate = illegal c ini := by
  simp [flashCmd, h]

theorem flashCmd_saving (h : c.boot.flashOp = none) (hm : c.glb.mode = .save) : flashCmd c ini op gate = flashResult c 6 := by
  simp [flashCmd, h, hm]

theorem flashCmd_misaligned (h : c.boot.flashOp = none) (hm : c.glb.mode ≠ .save) (al : c.boot.flashAddr.toNat % flashSpan op ≠ 0) :
    flashCmd c ini op gate = flashResult c 7 := by
  simp [flashCmd, h, hm, al]

theorem flashCmd_protected (h : c.boot.flashOp = none) (hm : c.glb.mode ≠ .save) (al : c.boot.flashAddr.toNat % flashSpan op = 0)
    (p : flashProtected c op = true) : flashCmd c ini op gate = illegal (flashResult c 3) ini := by
  simp [flashCmd, h, hm, al, p]

/-- A command that its checks allow meets the flash gate last. -/
theorem flashCmd_allowed (h : c.boot.flashOp = none) (hm : c.glb.mode ≠ .save) (al : c.boot.flashAddr.toNat % flashSpan op = 0)
    (p : flashProtected c op = false) : flashCmd c ini op gate =
      if (gate && op != .read && !c.glb.mode.service) = true then flashResult c 4
      else onBoot (xspiWake c) (fun b => { b with flashOp := some op, flashResult := 2 }) := by
  simp [flashCmd, h, hm, al, p]
end

/-! ## A command is written -/

/-- The write of BOOT_FLASH_CMD passes its checks: the block runs wherever the always-on supply does (R468, R503). -/
theorem flashWrite_eq {s : State} {ini : Byte} (m : MayWrite s ini) (op : FlashOp) (gate : Bool) :
    flashWrite s ini op gate = .next (s.withCtl (flashCmd s.ctl ini.toNat op gate)) := by
  obtain ⟨reach, right⟩ := m
  have runs : blkAnswers s.dev.ctl .boot 0x7E2040 = true := aonOn_of_canReach reach
  have may : accessRight s.dev.ctl .boot ini.toNat true = true := by simp [accessRight, right]
  have passes : gateOf s.dev.ctl ini.toNat 0x7E2040 8 true = .ok := gateOf_ok reach rfl may runs
  rw [flashWrite, onCtl_next, regWrite_ok passes]

section
variable {s : State} {ini : Byte} (m : MayWrite s ini) {i : Instr} {op : FlashOp} {gate : Bool} (e : exec i s = flashWrite s ini op gate)
include m e

theorem flashWrite_busy (h : s.ctl.boot.flashOp.isSome = true) : Runs i s (fun t => OnlyChanges [.heads, .mgmt] s t) := by
  rw [flashWrite_eq m, flashCmd_busy h] at e
  exact ⟨_, e, onlyChanges_illegal s _⟩

theorem flashWrite_saving (h : s.ctl.boot.flashOp = none) (hm : s.ctl.glb.mode = .save) :
    exec i s = .next (s.withBoot { s.ctl.boot with flashResult := 6 }) := by
  rw [e, flashWrite_eq m, flashCmd_saving h hm]; rfl

theorem flashWrite_misaligned (h : s.ctl.boot.flashOp = none) (hm : s.ctl.glb.mode ≠ .save)
    (al : s.ctl.boot.flashAddr.toNat % flashSpan op ≠ 0) : exec i s = .next (s.withBoot { s.ctl.boot with flashResult := 7 }) := by
  rw [e, flashWrite_eq m, flashCmd_misaligned h hm al]; rfl

/-- A program or erase of the running slot reads RESULT 3 and is counted as an illegal sequence (R475). -/
theorem flashWrite_protected (h : s.ctl.boot.flashOp = none) (hm : s.ctl.glb.mode ≠ .save)
    (al : s.ctl.boot.flashAddr.toNat % flashSpan op = 0) (p : flashProtected s.ctl op = true) :
    Runs i s (fun t => OnlyChanges [.heads, .mgmt, .boot] s t ∧ t.ctl.boot = { s.ctl.boot with flashResult := 3 }
      ∧ (ini.toNat < 0x40 → (headAt t.ctl (ini.toNat / 4)).viol.ignored = satInc (headAt s.ctl (ini.toNat / 4)).viol.ignored 0xFFFFFFFF)
      ∧ (0x40 ≤ ini.toNat → t.ctl.mgmt.viol.ignored = satInc s.ctl.mgmt.viol.ignored 0xFFFFFFFF)) := by
  rw [flashWrite_eq m, flashCmd_protected h hm al p] at e
  have answered : OnlyChanges [.boot] s (s.withCtl (flashResult s.ctl 3)) := onlyChanges_boot s _
  have counted := onlyChanges_illegal (s.withCtl (flashResult s.ctl 3)) ini.toNat
  exact ⟨_, e, onlyChanges_trans (onlyChanges_mono answered (by simp)) (onlyChanges_mono counted (by simp)),
    illegal_boot _ _, fun lo => illegal_ignored_head lo _, fun hi => illegal_ignored_mgmt hi m.2 _⟩

/-- A command that its checks allow stops at the flash gate outside SERVICE, and is in progress otherwise (R473). -/
theorem flashWrite_allowed (h : s.ctl.boot.flashOp = none) (hm : s.ctl.glb.mode ≠ .save)
    (al : s.ctl.boot.flashAddr.toNat % flashSpan op = 0) (p : flashProtected s.ctl op = false) :
    (gate = true → op ≠ .read → s.ctl.glb.mode.service = false → exec i s = .next (s.withBoot { s.ctl.boot with flashResult := 4 }))
      ∧ (gate = false ∨ s.ctl.glb.mode.service = true → Runs i s (fun t => OnlyChanges [.boot, .clk] s t
        ∧ t.ctl.boot = { s.ctl.boot with flashOp := some op, flashResult := 2 } ∧ t.ctl.clk.xspiOn = true)) := by
  rw [flashWrite_eq m, flashCmd_allowed h hm al p] at e
  constructor
  · intro below notRead out
    rw [e, if_pos (by simp [below, notRead, out])]; rfl
  · intro pass
    have opened : ¬ (gate && op != .read && !s.ctl.glb.mode.service) = true := by
      rcases pass with above | serves
      · simp [above]
      · simp [serves]
    rw [if_neg opened] at e
    exact ⟨_, e, onlyChanges_boot_clk s _ _, rfl, rfl⟩
end

/-! ## A command ends (R470, R474, R490) -/

/-- The bytes that a program or erase leaves from its address on. -/
def flashBytes (d : Dev) (op : FlashOp) (ok : Bool) : List Byte :=
  if ok = false then freeBytes d.ctl (flashSpan op)
  else if op = .program then
    programmed (cread 0xFF d.mem.flash d.ctl.boot.flashAddr.toNat 256) (bufBytesOf d.ctl.boot) (freeBytes d.ctl (flashSpan op))
  else List.replicate (flashSpan op) 0xFF

/-- The flash at the end of a command. -/
def flashAfter (d : Dev) (op : FlashOp) (ok : Bool) : List Host.Cell :=
  if op = .read then d.mem.flash else cwrite 0xFF d.mem.flash d.ctl.boot.flashAddr.toNat (flashBytes d op ok)

/-- The boot controller at the end of a command, before its page buffer is filled. -/
def Boot.flashEnded (b : Boot) (ok : Bool) : Boot :=
  { b with flashOp := none, flashOps := (b.flashOps + 1) % 2 ^ 32, flashResult := if ok then 1 else 5 }

theorem flashBytes_length (d : Dev) (op : FlashOp) (ok : Bool) : (flashBytes d op ok).length = flashSpan op := by
  unfold flashBytes
  split
  · simp [freeBytes]
  · split
    · next h => simp [programmed, h, flashSpan]
    · exact List.length_replicate

/-- An erase leaves FFh in its whole sector. -/
theorem flashBytes_erase (d : Dev) {op : FlashOp} (h : op = .erase4k ∨ op = .erase64k) :
    flashBytes d op true = List.replicate (flashSpan op) 0xFF := by
  have other : op ≠ .program := by rcases h with rfl | rfl <;> decide
  rw [flashBytes, if_neg (by decide), if_neg other]

/-- A program leaves the buffer's byte where the flash was erased. -/
theorem flashBytes_program (d : Dev) {k : Nat} (b : k < 256) (erased : cget 0xFF d.mem.flash (d.ctl.boot.flashAddr.toNat + k) = 0xFF) :
    (flashBytes d .program true).getD k 0 = (bufBytesOf d.ctl.boot).getD k 0 := by
  rw [flashBytes, if_neg (by decide), if_pos rfl]
  simp only [programmed, cread, List.getD_eq_getElem?_getD, List.getElem?_map, List.getElem?_range b, Option.map_some, Option.getD_some,
    erased, beq_self_eq_true, if_true]

section
variable {d : Dev} {op : FlashOp} {ok : Bool}

theorem flashEffect_eq (change : op ≠ .read) : flashEffect d op ok =
    { ctl := { d.ctl with free := d.ctl.free + flashSpan op }, mem := { d.mem with flash := flashAfter d op ok } } := by
  cases op with
  | read => exact absurd rfl change
  | _ => cases ok <;> simp only [flashEffect, flashAfter, flashBytes, reduceCtorEq, if_true, if_false, Bool.not_true, Bool.not_false, Bool.false_eq_true]

/-- What the end of a command changes: the boot controller, the free values it takes and the flash. -/
theorem flashEnd_eq (h : d.ctl.boot.flashOp = some op) : ∃ buf n, flashEnd d ok =
    { ctl := { d.ctl with boot := { d.ctl.boot.flashEnded ok with buf := buf }, free := n }
      mem := { d.mem with flash := flashAfter d op ok } }
    ∧ (op = .read → buf = (flashFill d ok).ctl.boot.buf) := by
  unfold flashEnd
  rw [h]
  by_cases read : op = .read
  · subst read; exact ⟨_, _, rfl, fun _ => rfl⟩
  · have other : (op == .read) = false := by simpa using read
    simp only [other, Bool.false_eq_true, if_false, flashEffect_eq read]
    exact ⟨d.ctl.boot.buf, _, rfl, fun h => absurd h read⟩

/-- No byte outside the span of the command changes. -/
theorem flashAfter_outside (w : d.mem.wf = true) {x : Nat} (out : x < d.ctl.boot.flashAddr.toNat ∨ d.ctl.boot.flashAddr.toNat + flashSpan op ≤ x) :
    cget 0xFF (flashAfter d op ok) x = cget 0xFF d.mem.flash x := by
  unfold flashAfter
  split
  · rfl
  · rw [cget_cwrite _ _ _ (wf_iff.1 w).2.2, flashBytes_length, if_neg (by omega)]

/-- A byte inside the span of a program or erase is the byte that the command leaves there. -/
theorem flashAfter_inside (w : d.mem.wf = true) (change : op ≠ .read) {x : Nat} (lo : d.ctl.boot.flashAddr.toNat ≤ x)
    (hi : x < d.ctl.boot.flashAddr.toNat + flashSpan op) :
    cget 0xFF (flashAfter d op ok) x = (flashBytes d op ok).getD (x - d.ctl.boot.flashAddr.toNat) 0 := by
  rw [flashAfter, if_neg change, cget_cwrite _ _ _ (wf_iff.1 w).2.2, flashBytes_length, if_pos ⟨lo, hi⟩]

theorem flashAfter_erased (w : d.mem.wf = true) (h : op = .erase4k ∨ op = .erase64k) {x : Nat} (lo : d.ctl.boot.flashAddr.toNat ≤ x)
    (hi : x < d.ctl.boot.flashAddr.toNat + flashSpan op) : cget 0xFF (flashAfter d op true) x = 0xFF := by
  have change : op ≠ .read := by rcases h with rfl | rfl <;> decide
  have within : x - d.ctl.boot.flashAddr.toNat < flashSpan op := by omega
  rw [flashAfter_inside w change lo hi, flashBytes_erase d h]
  simp [List.getD_eq_getElem?_getD, within]

theorem flashAfter_programmed (w : d.mem.wf = true) (h : op = .program) {x : Nat} (lo : d.ctl.boot.flashAddr.toNat ≤ x)
    (hi : x < d.ctl.boot.flashAddr.toNat + 256) (erased : cget 0xFF d.mem.flash x = 0xFF) :
    cget 0xFF (flashAfter d op true) x = (bufBytesOf d.ctl.boot).getD (x - d.ctl.boot.flashAddr.toNat) 0 := by
  subst h
  rw [flashAfter_inside (op := .program) w (by decide) lo hi]
  refine flashBytes_program d (by omega) ?_
  rwa [Nat.add_sub_cancel' lo]
end

/-- An entry of a table that lists a function's values. -/
theorem tget_map_key {α : Type} (f : Nat → α) {k : Nat} : ∀ {l : List Nat}, k ∈ l → tget (l.map (fun i => (i, f i))) k = some (f k)
  | a :: l, h => by
    by_cases e : a = k
    · simp [tget, e]
    · have rest : k ∈ l := (List.mem_cons.1 h).resolve_left (Ne.symm e)
      simp [tget, e, tget_map_key f rest]

/-- A read that ends well fills the page buffer with the flash's words (R470). -/
theorem flashFill_buf (d : Dev) {k : Nat} (h : k < 32) :
    tgetD (flashFill d true).ctl.boot.buf k 0 = BitVec.ofNat 64 (flNum d.mem (d.ctl.boot.flashAddr.toNat + 8 * k) 8) := by
  change (tget ((List.range 32).map (fun i => (i, BitVec.ofNat 64 (flNum d.mem (d.ctl.boot.flashAddr.toNat + 8 * i) 8)))) k).getD 0 = _
  rw [tget_map_key _ (List.mem_range.2 h), Option.getD_some]

theorem exec_flashCommandDone {s : State} (on : aonOn s.ctl = true) (ok : Bool) :
    exec (.flashCommandDone ok) s = .next { s with dev := flashEnd s.dev ok } := by
  change Host.Outcome.next { s with dev := if aonOn s.ctl then flashEnd s.dev ok else s.dev } = _
  rw [if_pos on]

/-- Settles O51: a command that is written meets its checks in their order, by one lemma for each; the end of a command leaves
`flashAfter` in the flash. -/
theorem flashCommands : Obligations.FlashCommands := by
  intro s ini
  refine ⟨fun m => ?_, fun op ok on w h => ?_⟩
  · refine ⟨?_, fun gate => ⟨?_, ?_, ?_⟩⟩ <;>
      exact ⟨flashWrite_busy m rfl, flashWrite_saving m rfl, flashWrite_misaligned m rfl, flashWrite_protected m rfl, flashProtected_iff,
        flashWrite_allowed m rfl⟩
  · obtain ⟨buf, n, ended, filled⟩ := flashEnd_eq (ok := ok) h
    refine ⟨_, exec_flashCommandDone on ok, ?_⟩
    rw [ended]
    refine ⟨onlyChanges_boot_free_flash s _ n _, rfl, rfl, rfl, ?_, fun x => flashAfter_outside w, ?_, ?_⟩
    · rintro rfl
      refine ⟨rfl, ?_⟩
      rintro rfl k hk
      exact (congrArg (tgetD · k 0) (filled rfl)).trans (flashFill_buf _ hk)
    · rintro rfl erase x
      exact flashAfter_erased w erase
    · rintro rfl program x
      exact flashAfter_programmed w program

end Sys2Proof.Machine
end
